-- ==== Sys2Proof/Word.lean ====
section
/-!
DEFINITION. The word types of the machine and the names of its register files (spec/02 R26, spec/05 R101, R102).
-/

namespace Sys2Proof

/-- A 64-bit scalar value (R26). -/
abbrev Word := BitVec 64

/-- One byte of any address space. -/
abbrev Byte := BitVec 8

/-- One instruction word (R101). -/
abbrev IWord := BitVec 32

/-- A route word of 256 bits (R264). -/
abbrev RouteWord := BitVec 256

/-- The element-order byte image of one vector register, 512 bytes at most (R26, R70). -/
abbrev VImage := BitVec 4096

/-- One mask register, one bit for each element (R26). -/
abbrev MImage := BitVec 512

/-- The name of a scalar register s0 to s31. -/
abbrev SReg := Fin 32

/-- The name of a vector register v0 to v63. -/
abbrev VReg := Fin 64

/-- The name of a mask register m0 to m7. -/
abbrev MReg := Fin 8

/-- The name of a route register w0 to w15. -/
abbrev RReg := Fin 16

/-- The second source of a vector instruction: a vector register, or with K = 1 a scalar register (R105, R147). -/
inductive VSrc where
  | v (r : VReg)
  | s (r : SReg)
  deriving DecidableEq, Repr

/-- A strand's place: the core by its number, and the strand on it.
Core (x, y) of die d is 20,480 d + 128 y + x (R2), and die d's fabric manager core (R18) is 327,680 + d. -/
structure Place where
  core : Nat
  strand : Nat
  deriving DecidableEq, Repr

end Sys2Proof
end

