-- ==== Sys2Proof/Syntax.lean ====
section
/-!
DEFINITION. The instructions of the machine, one constructor for each row of the opcode table: the 249 instruction
words of R104 (those with fields first, in the order of the majors), then the 117 steps that have no encoding (moves
of an engine, arrivals, timers, host and management commands). A step without an encoding has no field in the table:
what it acts on and what it is given stands in the state (Machine/State.lean, Given).
-/

namespace Sys2Proof

/-- Every instruction and every step of the machine (R104, and the rules each constructor names). -/
inductive Instr where
  /-- TRAP (R141). -/
  | trap (a : SReg)
  /-- SLOTW (R143). -/
  | slotw (a : SReg) (b : SReg)
  /-- ADD (R119). -/
  | add (d : SReg) (a : SReg) (b : SReg)
  /-- SUB (R119). -/
  | sub (d : SReg) (a : SReg) (b : SReg)
  /-- AND (R119). -/
  | and (d : SReg) (a : SReg) (b : SReg)
  /-- OR (R119). -/
  | or (d : SReg) (a : SReg) (b : SReg)
  /-- XOR (R119). -/
  | xor (d : SReg) (a : SReg) (b : SReg)
  /-- SLL (R119). -/
  | sll (d : SReg) (a : SReg) (b : SReg)
  /-- SRL (R119). -/
  | srl (d : SReg) (a : SReg) (b : SReg)
  /-- SRA (R119). -/
  | sra (d : SReg) (a : SReg) (b : SReg)
  /-- SLT (R119). -/
  | slt (d : SReg) (a : SReg) (b : SReg)
  /-- SLTU (R119). -/
  | sltu (d : SReg) (a : SReg) (b : SReg)
  /-- MUL (R119). -/
  | mul (d : SReg) (a : SReg) (b : SReg)
  /-- MULH (R119). -/
  | mulh (d : SReg) (a : SReg) (b : SReg)
  /-- MULHU (R119). -/
  | mulhu (d : SReg) (a : SReg) (b : SReg)
  /-- DIV (R120). -/
  | div (d : SReg) (a : SReg) (b : SReg)
  /-- DIVU (R120). -/
  | divu (d : SReg) (a : SReg) (b : SReg)
  /-- REM (R120). -/
  | rem (d : SReg) (a : SReg) (b : SReg)
  /-- REMU (R120). -/
  | remu (d : SReg) (a : SReg) (b : SReg)
  /-- MIN (R119). -/
  | min (d : SReg) (a : SReg) (b : SReg)
  /-- MAX (R119). -/
  | max (d : SReg) (a : SReg) (b : SReg)
  /-- MINU (R119). -/
  | minu (d : SReg) (a : SReg) (b : SReg)
  /-- MAXU (R119). -/
  | maxu (d : SReg) (a : SReg) (b : SReg)
  /-- CLZ (R119). -/
  | clz (d : SReg) (a : SReg)
  /-- CTZ (R119). -/
  | ctz (d : SReg) (a : SReg)
  /-- POPC (R119). -/
  | popc (d : SReg) (a : SReg)
  /-- ADDI (R121). -/
  | addi (d : SReg) (a : SReg) (imm : BitVec 13)
  /-- ANDI (R121). -/
  | andi (d : SReg) (a : SReg) (imm : BitVec 13)
  /-- ORI (R121). -/
  | ori (d : SReg) (a : SReg) (imm : BitVec 13)
  /-- XORI (R121). -/
  | xori (d : SReg) (a : SReg) (imm : BitVec 13)
  /-- SLTI (R121). -/
  | slti (d : SReg) (a : SReg) (imm : BitVec 13)
  /-- SLTIU (R121). -/
  | sltiu (d : SReg) (a : SReg) (imm : BitVec 13)
  /-- SLLI (R122). -/
  | slli (d : SReg) (a : SReg) (sh : BitVec 6)
  /-- SRLI (R122). -/
  | srli (d : SReg) (a : SReg) (sh : BitVec 6)
  /-- SRAI (R122). -/
  | srai (d : SReg) (a : SReg) (sh : BitVec 6)
  /-- LUI (R123). -/
  | lui (d : SReg) (imm : BitVec 19)
  /-- ADDPC (R123). -/
  | addpc (d : SReg) (imm : BitVec 19)
  /-- LDB (R125). -/
  | ldb (d : SReg) (a : SReg) (imm : BitVec 13)
  /-- LDBU (R125). -/
  | ldbu (d : SReg) (a : SReg) (imm : BitVec 13)
  /-- LDH (R125). -/
  | ldh (d : SReg) (a : SReg) (imm : BitVec 13)
  /-- LDHU (R125). -/
  | ldhu (d : SReg) (a : SReg) (imm : BitVec 13)
  /-- LDW (R125). -/
  | ldw (d : SReg) (a : SReg) (imm : BitVec 13)
  /-- LDWU (R125). -/
  | ldwu (d : SReg) (a : SReg) (imm : BitVec 13)
  /-- LDD (R125). -/
  | ldd (d : SReg) (a : SReg) (imm : BitVec 13)
  /-- STB (R126). -/
  | stb (b : SReg) (a : SReg) (imm : BitVec 13)
  /-- STH (R126). -/
  | sth (b : SReg) (a : SReg) (imm : BitVec 13)
  /-- STW (R126). -/
  | stw (b : SReg) (a : SReg) (imm : BitVec 13)
  /-- STD (R126). -/
  | std (b : SReg) (a : SReg) (imm : BitVec 13)
  /-- BEQ (R128). -/
  | beq (b : SReg) (a : SReg) (imm : BitVec 13)
  /-- BNE (R128). -/
  | bne (b : SReg) (a : SReg) (imm : BitVec 13)
  /-- BLT (R128). -/
  | blt (b : SReg) (a : SReg) (imm : BitVec 13)
  /-- BGE (R128). -/
  | bge (b : SReg) (a : SReg) (imm : BitVec 13)
  /-- BLTU (R128). -/
  | bltu (b : SReg) (a : SReg) (imm : BitVec 13)
  /-- BGEU (R128). -/
  | bgeu (b : SReg) (a : SReg) (imm : BitVec 13)
  /-- JAL (R129). -/
  | jal (d : SReg) (imm : BitVec 19)
  /-- JALR (R129). -/
  | jalr (d : SReg) (a : SReg) (imm : BitVec 13)
  /-- LOOPI (R130). -/
  | loopi (level : Fin 6) (len : BitVec 5) (count : BitVec 16)
  /-- LOOP (R130). -/
  | loop (level : Fin 6) (len : BitVec 5) (a : SReg)
  /-- AMOADD (R136). -/
  | amoadd (d : SReg) (a : SReg) (b : SReg) (wide : Bool)
  /-- AMOSWAP (R136). -/
  | amoswap (d : SReg) (a : SReg) (b : SReg) (wide : Bool)
  /-- AMOCAS (R136). -/
  | amocas (d : SReg) (a : SReg) (b : SReg) (wide : Bool)
  /-- AMOMIN (R136). -/
  | amomin (d : SReg) (a : SReg) (b : SReg) (wide : Bool)
  /-- AMOMAX (R136). -/
  | amomax (d : SReg) (a : SReg) (b : SReg) (wide : Bool)
  /-- AMOMINU (R136). -/
  | amominu (d : SReg) (a : SReg) (b : SReg) (wide : Bool)
  /-- AMOMAXU (R136). -/
  | amomaxu (d : SReg) (a : SReg) (b : SReg) (wide : Bool)
  /-- AMOAND (R136). -/
  | amoand (d : SReg) (a : SReg) (b : SReg) (wide : Bool)
  /-- AMOOR (R136). -/
  | amoor (d : SReg) (a : SReg) (b : SReg) (wide : Bool)
  /-- AMOXOR (R136). -/
  | amoxor (d : SReg) (a : SReg) (b : SReg) (wide : Bool)
  /-- FENCE (R255). -/
  | fence (scope : Fin 7)
  /-- FENCEACQ (R255). -/
  | fenceacq (scope : Fin 7)
  /-- FENCEREL (R255). -/
  | fencerel (scope : Fin 7)
  /-- FENCEENG (R240). -/
  | fenceeng (scope : Fin 7)
  /-- WFEV (R241). -/
  | wfev (scope : Fin 7)
  /-- TAKE (R234). -/
  | take (d : SReg)
  /-- POST (R304). -/
  | post (d : SReg) (a : SReg)
  /-- POSTW (R234). -/
  | postw (a : RReg) (b : SReg)
  /-- RETIRE (R234). -/
  | retire (a : SReg)
  /-- WAKE (R234). -/
  | wake (a : SReg)
  /-- SIGNAL (R235). -/
  | signal (d : SReg) (a : SReg)
  /-- RECOAT (R236). -/
  | recoat (a : SReg) (b : SReg)
  /-- LDFULL (R237). -/
  | ldfull (d : SReg) (a : SReg)
  /-- LDFULLK (R237). -/
  | ldfullk (d : SReg) (a : SReg)
  /-- STFULL (R237). -/
  | stfull (d : SReg) (a : SReg)
  /-- STFILL (R237). -/
  | stfill (d : SReg) (a : SReg)
  /-- FECLR (R237). -/
  | feclr (a : SReg)
  /-- SETVL (R152). -/
  | setvl (d : SReg) (a : SReg) (rnd : Fin 5) (vfmt : Fin 3) (space : Fin 5) (scope : Fin 7) (sew : Fin 3)
  /-- VADD (R153). -/
  | vadd (c : Bool) (d : VReg) (a : VReg) (b : VSrc)
  /-- VSUB (R153). -/
  | vsub (c : Bool) (d : VReg) (a : VReg) (b : VSrc)
  /-- VRSUB (R153). -/
  | vrsub (c : Bool) (d : VReg) (a : VReg) (b : VSrc)
  /-- VMUL (R153). -/
  | vmul (c : Bool) (d : VReg) (a : VReg) (b : VSrc)
  /-- VMULH (R153). -/
  | vmulh (c : Bool) (d : VReg) (a : VReg) (b : VSrc)
  /-- VMULHU (R153). -/
  | vmulhu (c : Bool) (d : VReg) (a : VReg) (b : VSrc)
  /-- VMADD (R153). -/
  | vmadd (c : Bool) (d : VReg) (a : VReg) (b : VSrc)
  /-- VMSUB (R153). -/
  | vmsub (c : Bool) (d : VReg) (a : VReg) (b : VSrc)
  /-- VDIV (R154). -/
  | vdiv (c : Bool) (d : VReg) (a : VReg) (b : VSrc)
  /-- VDIVU (R154). -/
  | vdivu (c : Bool) (d : VReg) (a : VReg) (b : VSrc)
  /-- VREM (R154). -/
  | vrem (c : Bool) (d : VReg) (a : VReg) (b : VSrc)
  /-- VREMU (R154). -/
  | vremu (c : Bool) (d : VReg) (a : VReg) (b : VSrc)
  /-- VMIN (R153). -/
  | vmin (c : Bool) (d : VReg) (a : VReg) (b : VSrc)
  /-- VMAX (R153). -/
  | vmax (c : Bool) (d : VReg) (a : VReg) (b : VSrc)
  /-- VMINU (R153). -/
  | vminu (c : Bool) (d : VReg) (a : VReg) (b : VSrc)
  /-- VMAXU (R153). -/
  | vmaxu (c : Bool) (d : VReg) (a : VReg) (b : VSrc)
  /-- VAND (R153). -/
  | vand (c : Bool) (d : VReg) (a : VReg) (b : VSrc)
  /-- VOR (R153). -/
  | vor (c : Bool) (d : VReg) (a : VReg) (b : VSrc)
  /-- VXOR (R153). -/
  | vxor (c : Bool) (d : VReg) (a : VReg) (b : VSrc)
  /-- VSLL (R153). -/
  | vsll (c : Bool) (d : VReg) (a : VReg) (b : VSrc)
  /-- VSRL (R153). -/
  | vsrl (c : Bool) (d : VReg) (a : VReg) (b : VSrc)
  /-- VSRA (R153). -/
  | vsra (c : Bool) (d : VReg) (a : VReg) (b : VSrc)
  /-- VSADD (R154). -/
  | vsadd (c : Bool) (d : VReg) (a : VReg) (b : VSrc)
  /-- VSADDU (R154). -/
  | vsaddu (c : Bool) (d : VReg) (a : VReg) (b : VSrc)
  /-- VSSUB (R154). -/
  | vssub (c : Bool) (d : VReg) (a : VReg) (b : VSrc)
  /-- VSSUBU (R154). -/
  | vssubu (c : Bool) (d : VReg) (a : VReg) (b : VSrc)
  /-- VMERGE (R153). -/
  | vmerge (c : Bool) (d : VReg) (a : VReg) (b : VSrc)
  /-- VMV (R153). -/
  | vmv (c : Bool) (d : VReg) (b : VSrc)
  /-- VABS (R153). -/
  | vabs (c : Bool) (d : VReg) (a : VReg)
  /-- VCLZ (R153). -/
  | vclz (c : Bool) (d : VReg) (a : VReg)
  /-- VPOPC (R153). -/
  | vpopc (c : Bool) (d : VReg) (a : VReg)
  /-- VFADD (R155). -/
  | vfadd (c : Bool) (d : VReg) (a : VReg) (b : VSrc)
  /-- VFSUB (R155). -/
  | vfsub (c : Bool) (d : VReg) (a : VReg) (b : VSrc)
  /-- VFMUL (R155). -/
  | vfmul (c : Bool) (d : VReg) (a : VReg) (b : VSrc)
  /-- VFMA (R155). -/
  | vfma (c : Bool) (d : VReg) (a : VReg) (b : VSrc)
  /-- VFMS (R155). -/
  | vfms (c : Bool) (d : VReg) (a : VReg) (b : VSrc)
  /-- VFNMA (R155). -/
  | vfnma (c : Bool) (d : VReg) (a : VReg) (b : VSrc)
  /-- VFDIV (R155). -/
  | vfdiv (c : Bool) (d : VReg) (a : VReg) (b : VSrc)
  /-- VFSQRT (R155). -/
  | vfsqrt (c : Bool) (d : VReg) (a : VReg)
  /-- VFMIN (R156). -/
  | vfmin (c : Bool) (d : VReg) (a : VReg) (b : VSrc)
  /-- VFMAX (R156). -/
  | vfmax (c : Bool) (d : VReg) (a : VReg) (b : VSrc)
  /-- VFABS (R156). -/
  | vfabs (c : Bool) (d : VReg) (a : VReg)
  /-- VFNEG (R156). -/
  | vfneg (c : Bool) (d : VReg) (a : VReg)
  /-- VFCVT (R157). -/
  | vfcvt (c : Bool) (d : VReg) (a : VReg) (f : Fin 32)
  /-- VFCVTI (R157). -/
  | vfcvti (c : Bool) (d : VReg) (a : VReg)
  /-- VICVTF (R157). -/
  | vicvtf (c : Bool) (d : VReg) (a : VReg)
  /-- VFCLASS (R156). -/
  | vfclass (c : Bool) (d : VReg) (a : VReg)
  /-- VXCHG (R160). -/
  | vxchg (c : Bool) (d : VReg) (a : VReg) (k : Fin 9)
  /-- VSLIDEUP (R160). -/
  | vslideup (c : Bool) (d : VReg) (a : VReg) (b : SReg)
  /-- VSLIDEDN (R160). -/
  | vslidedn (c : Bool) (d : VReg) (a : VReg) (b : SReg)
  /-- VSLIDE1UP (R160). -/
  | vslide1up (c : Bool) (d : VReg) (a : VReg) (b : SReg)
  /-- VSLIDE1DN (R160). -/
  | vslide1dn (c : Bool) (d : VReg) (a : VReg) (b : SReg)
  /-- VGATHER (R160). -/
  | vgather (c : Bool) (d : VReg) (a : VReg) (b : VSrc)
  /-- VCOMPRESS (R161). -/
  | vcompress (c : Bool) (d : VReg) (a : VReg)
  /-- VEXTR (R161). -/
  | vextr (c : Bool) (d : SReg) (a : VReg) (b : SReg)
  /-- VINSR (R161). -/
  | vinsr (c : Bool) (d : VReg) (a : SReg) (b : SReg)
  /-- VIOTA (R161). -/
  | viota (c : Bool) (d : VReg)
  /-- VREDSUM (R162). -/
  | vredsum (c : Bool) (d : VReg) (a : VReg) (b : VSrc)
  /-- VREDMIN (R162). -/
  | vredmin (c : Bool) (d : VReg) (a : VReg) (b : VSrc)
  /-- VREDMAX (R162). -/
  | vredmax (c : Bool) (d : VReg) (a : VReg) (b : VSrc)
  /-- VREDMINU (R162). -/
  | vredminu (c : Bool) (d : VReg) (a : VReg) (b : VSrc)
  /-- VREDMAXU (R162). -/
  | vredmaxu (c : Bool) (d : VReg) (a : VReg) (b : VSrc)
  /-- VREDAND (R162). -/
  | vredand (c : Bool) (d : VReg) (a : VReg) (b : VSrc)
  /-- VREDOR (R162). -/
  | vredor (c : Bool) (d : VReg) (a : VReg) (b : VSrc)
  /-- VREDXOR (R162). -/
  | vredxor (c : Bool) (d : VReg) (a : VReg) (b : VSrc)
  /-- VFREDSUM (R162). -/
  | vfredsum (c : Bool) (d : VReg) (a : VReg) (b : VSrc)
  /-- VSCAN (R163). -/
  | vscan (c : Bool) (d : VReg) (a : VReg)
  /-- VCEQ (R164). -/
  | vceq (c : Bool) (d : MReg) (a : VReg) (b : VSrc)
  /-- VCNE (R164). -/
  | vcne (c : Bool) (d : MReg) (a : VReg) (b : VSrc)
  /-- VCLT (R164). -/
  | vclt (c : Bool) (d : MReg) (a : VReg) (b : VSrc)
  /-- VCLTU (R164). -/
  | vcltu (c : Bool) (d : MReg) (a : VReg) (b : VSrc)
  /-- VCLE (R164). -/
  | vcle (c : Bool) (d : MReg) (a : VReg) (b : VSrc)
  /-- VCLEU (R164). -/
  | vcleu (c : Bool) (d : MReg) (a : VReg) (b : VSrc)
  /-- VCGT (R164). -/
  | vcgt (c : Bool) (d : MReg) (a : VReg) (b : VSrc)
  /-- VCGTU (R164). -/
  | vcgtu (c : Bool) (d : MReg) (a : VReg) (b : VSrc)
  /-- VFCEQ (R164). -/
  | vfceq (c : Bool) (d : MReg) (a : VReg) (b : VSrc)
  /-- VFCLT (R164). -/
  | vfclt (c : Bool) (d : MReg) (a : VReg) (b : VSrc)
  /-- VFCLE (R164). -/
  | vfcle (c : Bool) (d : MReg) (a : VReg) (b : VSrc)
  /-- VFCUN (R164). -/
  | vfcun (c : Bool) (d : MReg) (a : VReg) (b : VSrc)
  /-- MAND (R165). -/
  | mand (c : Bool) (d : MReg) (a : MReg) (b : MReg)
  /-- MOR (R165). -/
  | mor (c : Bool) (d : MReg) (a : MReg) (b : MReg)
  /-- MXOR (R165). -/
  | mxor (c : Bool) (d : MReg) (a : MReg) (b : MReg)
  /-- MANDN (R165). -/
  | mandn (c : Bool) (d : MReg) (a : MReg) (b : MReg)
  /-- MNOT (R165). -/
  | mnot (c : Bool) (d : MReg) (a : MReg)
  /-- MPOPC (R165). -/
  | mpopc (c : Bool) (d : SReg) (a : MReg)
  /-- MFIRST (R165). -/
  | mfirst (c : Bool) (d : SReg) (a : MReg)
  /-- MSKFT (R165). -/
  | mskft (c : Bool) (d : MReg) (a : MReg)
  /-- MSKBF (R165). -/
  | mskbf (c : Bool) (d : MReg) (a : MReg)
  /-- MFROMV (R165). -/
  | mfromv (c : Bool) (d : MReg) (a : VReg)
  /-- MTOV (R165). -/
  | mtov (c : Bool) (d : VReg) (a : MReg)
  /-- VLD (R167). -/
  | vld (c : Bool) (d : VReg) (a : SReg)
  /-- VLDFF (R168). -/
  | vldff (c : Bool) (d : VReg) (a : SReg)
  /-- VLDX (R166). -/
  | vldx (c : Bool) (d : VReg) (a : SReg) (b : VReg)
  /-- VST (R170). -/
  | vst (c : Bool) (d : VReg) (a : SReg)
  /-- VSTX (R166). -/
  | vstx (c : Bool) (d : VReg) (a : SReg) (b : VReg)
  /-- VLDQ (R169). -/
  | vldq (c : Bool) (d : VReg) (a : SReg)
  /-- VSTQ (R169). -/
  | vstq (c : Bool) (d : VReg) (a : SReg)
  /-- VLDBC (R166). -/
  | vldbc (c : Bool) (d : VReg) (a : SReg)
  /-- MMA (R182). -/
  | mma (d : SReg) (a : VReg) (b : VReg) (rep : BitVec 4)
  /-- MOPA (R183). -/
  | mopa (d : SReg) (a : VReg) (b : VReg) (rep : BitVec 4)
  /-- MSLIDE (R184). -/
  | mslide (d : SReg) (a : VReg) (b : VReg) (rep : BitVec 4)
  /-- MRDC (R186). -/
  | mrdc (d : SReg) (a : VReg) (rep : BitVec 4)
  /-- MZERO (R186). -/
  | mzero (d : SReg) (rep : BitVec 4)
  /-- MDRAIN (R187). -/
  | mdrain (d : SReg) (rep : BitVec 4)
  /-- RINGCFG (R191). -/
  | ringcfg (a : SReg) (b : SReg)
  /-- RWAITF (R192). -/
  | rwaitf (d : SReg) (a : SReg) (b : SReg)
  /-- RWAITE (R192). -/
  | rwaite (d : SReg) (a : SReg) (b : SReg)
  /-- RADVH (R193). -/
  | radvh (d : SReg) (a : SReg) (b : SReg)
  /-- RADVT (R193). -/
  | radvt (d : SReg) (a : SReg) (b : SReg)
  /-- RSTAT (R194). -/
  | rstat (d : SReg) (a : SReg)
  /-- CPY (R199). -/
  | cpy (d : SReg) (a : SReg)
  /-- CPYWAIT (R204). -/
  | cpywait (d : SReg) (a : SReg)
  /-- CPYSTAT (R204). -/
  | cpystat (d : SReg) (a : SReg)
  /-- CPYCAN (R205). -/
  | cpycan (d : SReg) (a : SReg)
  /-- WLD (R214). -/
  | wld (d : RReg) (a : SReg)
  /-- WST (R214). -/
  | wst (d : RReg) (a : SReg)
  /-- WNARROW (R215). -/
  | wnarrow (d : RReg) (a : RReg) (b : SReg)
  /-- WDLG (R216). -/
  | wdlg (d : RReg) (a : RReg) (b : SReg)
  /-- WSTRIPE (R220). -/
  | wstripe (d : RReg) (a : SReg)
  /-- WCLR (R217). -/
  | wclr (d : RReg)
  /-- WINFO (R217). -/
  | winfo (d : SReg) (a : RReg) (b : SReg)
  /-- WMINT (R218). -/
  | wmint (d : RReg) (a : SReg)
  /-- WGEN (R219). -/
  | wgen (d : SReg) (a : SReg)
  /-- SEND (R226). -/
  | send (d : SReg) (a : RReg) (b : SReg)
  /-- SENDV (R226). -/
  | sendv (d : VReg) (a : RReg) (b : SReg)
  /-- RECV (R227). -/
  | recv (d : SReg) (a : SReg)
  /-- RLD (R224). -/
  | rld (d : SReg) (a : RReg) (b : SReg)
  /-- RST (R224). -/
  | rst (d : SReg) (a : RReg) (b : SReg)
  /-- RSTF (R224). -/
  | rstf (d : SReg) (a : RReg) (b : SReg)
  /-- RLDV (R225). -/
  | rldv (d : VReg) (a : RReg) (b : SReg)
  /-- RSTV (R225). -/
  | rstv (d : VReg) (a : RReg) (b : SReg)
  /-- RAMO (R224). -/
  | ramo (d : SReg) (a : RReg) (b : SReg) (op : BitVec 3)
  /-- WLEASE (R229). -/
  | wlease (d : SReg) (a : RReg) (b : SReg)
  /-- WRELEASE (R230). -/
  | wrelease (d : SReg) (a : SReg)
  /-- WLSTAT (R230). -/
  | wlstat (d : SReg) (a : SReg)
  /-- GBAR (R232). -/
  | gbar (d : SReg) (a : SReg)
  /-- GARRIVE (R232). -/
  | garrive (d : SReg) (a : SReg)
  /-- GWAIT (R232). -/
  | gwait (d : SReg) (a : SReg) (b : SReg)
  /-- GRED (R232). -/
  | gred (d : SReg) (a : SReg) (b : SReg)
  /-- GINFO (R231). -/
  | ginfo (d : SReg) (a : SReg) (b : SReg)
  /-- VEXP2 (R158). -/
  | vexp2 (c : Bool) (d : VReg) (a : VReg)
  /-- VLOG2 (R158). -/
  | vlog2 (c : Bool) (d : VReg) (a : VReg)
  /-- VRCP (R158). -/
  | vrcp (c : Bool) (d : VReg) (a : VReg)
  /-- VRSQRT (R158). -/
  | vrsqrt (c : Bool) (d : VReg) (a : VReg)
  /-- VSIN (R158). -/
  | vsin (c : Bool) (d : VReg) (a : VReg)
  /-- VCOS (R158). -/
  | vcos (c : Bool) (d : VReg) (a : VReg)
  /-- VTANH (R158). -/
  | vtanh (c : Bool) (d : VReg) (a : VReg)
  /-- VSIGM (R158). -/
  | vsigm (c : Bool) (d : VReg) (a : VReg)
  /-- MLDS (R176). -/
  | mlds (a : SReg)
  /-- MLDSS (R177). -/
  | mldss (a : SReg)
  /-- CSRR (R138). -/
  | csrr (d : SReg) (n : BitVec 11)
  /-- CSRW (R138). -/
  | csrw (d : SReg) (a : SReg) (n : BitVec 11)
  /-- CSRS (R138). -/
  | csrs (d : SReg) (a : SReg) (n : BitVec 11)
  /-- CSRC (R138). -/
  | csrc (d : SReg) (a : SReg) (n : BitVec 11)
  /-- ECALL (R142). -/
  | ecall
  /-- BREAK (R142). -/
  | brk
  /-- ERET (R74). -/
  | eret
  /-- UIRET (R73). -/
  | uiret
  /-- WFI (R62). -/
  | wfi
  /-- HALT (R144). -/
  | halt
  /-- YIELD (R234). -/
  | yield
  /-- SLEEP (R234). -/
  | sleep
  /-- MSWAP (R179). -/
  | mswap
  /-- LOFT_MOVES_COMPLETE (R35). -/
  | loftMovesComplete
  /-- RESOURCE_AVAILABLE (R56). -/
  | resourceAvailable
  /-- LOAD_MISS_FILL (R118). -/
  | loadMissFill
  /-- STORE_BUFFER_DRAIN (R126). -/
  | storeBufferDrain
  /-- GRANARY_WRITEBACK (R248). -/
  | granaryWriteback
  /-- CORE_BARRIER_QUIESCENT (R62). -/
  | coreBarrierQuiescent
  /-- MATRIX_OP_COMPLETE (R188). -/
  | matrixOpComplete
  /-- TIMECMP_MATCH (R42). -/
  | timecmpMatch
  /-- YIELD_EXPIRY (R234). -/
  | yieldExpiry
  /-- USER_INTERRUPT_ENTRY (R73). -/
  | userInterruptEntry
  /-- ENGINE_TRAP (R202). -/
  | engineTrap
  /-- UNCORRECTED_TRAP (R76). -/
  | uncorrectedTrap
  /-- LOCK_WATCHDOG (R78). -/
  | lockWatchdog
  /-- FEWAIT_LIMIT (R386). -/
  | fewaitLimit
  /-- BARWAIT_LIMIT (R345). -/
  | barwaitLimit
  /-- WITHDRAWAL_ANSWER (R345). -/
  | withdrawalAnswer
  /-- COPY_START (R201). -/
  | copyStart
  /-- COPY_LINE_WRITE (R200). -/
  | copyLineWrite
  /-- COPY_DONE (R198). -/
  | copyDone
  /-- COPY_FAIL (R202). -/
  | copyFail
  /-- CPYCAN_COMPLETE (R205). -/
  | cpycanComplete
  /-- TRANSLATION_WALK (R354). -/
  | translationWalk
  /-- PAGE_SERVICE_COMPLETE (R356). -/
  | pageServiceComplete
  /-- PRI_RESPONSE (R357). -/
  | priResponse
  /-- ATS_INVALIDATION (R358). -/
  | atsInvalidation
  /-- SHOOTDOWN_COMPLETE (R363). -/
  | shootdownComplete
  /-- SHOOTDOWN (R361). -/
  | shootdown
  /-- EVICT (R360). -/
  | evict
  /-- DESTROY_KEY_SLOT (R361). -/
  | destroyKeySlot
  /-- GENERATE_KEY_SLOT (R361). -/
  | generateKeySlot
  /-- SKIM_PAGE (R362). -/
  | skimPage
  /-- MAINT_REQUEST_DISCARD (R361). -/
  | maintRequestDiscard
  /-- SWITCH_HEADER (R270). -/
  | switchHeader
  /-- GATEWAY_HEADER (R271). -/
  | gatewayHeader
  /-- REMOTE_ACCESS_ARRIVAL (R274). -/
  | remoteAccessArrival
  /-- MESSAGE_ARRIVAL (R311). -/
  | messageArrival
  /-- TASK_PACKET_ARRIVAL (R304). -/
  | taskPacketArrival
  /-- RESPONSE_ARRIVAL (R209). -/
  | responseArrival
  /-- ACKNOWLEDGEMENT_ARRIVAL (R260). -/
  | acknowledgementArrival
  /-- REFUSAL_ARRIVAL (R273). -/
  | refusalArrival
  /-- NACK_ARRIVAL (R211). -/
  | nackArrival
  /-- NACK_RESEND (R211). -/
  | nackResend
  /-- KEEP_WAITING_TIMER (R364). -/
  | keepWaitingTimer
  /-- KEEP_WAITING_NOTICE (R365). -/
  | keepWaitingNotice
  /-- RESPONSE_TIMER_EXPIRY (R365). -/
  | responseTimerExpiry
  /-- PORT_GEN_ADVANCE (R219). -/
  | portGenAdvance
  /-- LINK_RETRY (R282). -/
  | linkRetry
  /-- ROUTE_REMINT (R288). -/
  | routeRemint
  /-- LANE_LOSS (R289). -/
  | laneLoss
  /-- CHANNEL_LOCK_LOSS (R281). -/
  | channelLockLoss
  /-- BLOCKED_HEAD_TIMEOUT (R290). -/
  | blockedHeadTimeout
  /-- TOKEN_VISIT (R291). -/
  | tokenVisit
  /-- RECOVERY_SINK_APPLY (R293). -/
  | recoverySinkApply
  /-- LEASE_REQUEST_ARRIVAL (R297). -/
  | leaseRequestArrival
  /-- LEASE_GRANT (R298). -/
  | leaseGrant
  /-- RETUNE_COMPLETE (R297). -/
  | retuneComplete
  /-- LEASE_TERM_EXPIRY (R297). -/
  | leaseTermExpiry
  /-- LEASE_REQUEST_TIMEOUT (R297). -/
  | leaseRequestTimeout
  /-- STARVATION_TIMEOUT (R300). -/
  | starvationTimeout
  /-- RECLAIM_EXPIRY (R297). -/
  | reclaimExpiry
  /-- COUNTER_ARM (R308). -/
  | counterArm
  /-- COUNTER_SIGNAL (R235). -/
  | counterSignal
  /-- ARM_ANSWER (R309). -/
  | armAnswer
  /-- ZERO_NOTICE (R309). -/
  | zeroNotice
  /-- TASK_AGING (R306). -/
  | taskAging
  /-- BALANCER_ROUND (R313). -/
  | balancerRound
  /-- BALANCE_COMMAND (R314). -/
  | balanceCommand
  /-- MIGRATION_SEND (R314). -/
  | migrationSend
  /-- MIGRATION_ARRIVAL (R314). -/
  | migrationArrival
  /-- MIGRATION_REFUSED (R302). -/
  | migrationRefused
  /-- HQ_TAIL_WRITE (R317). -/
  | hqTailWrite
  /-- HQ_ENABLE_WRITE (R397). -/
  | hqEnableWrite
  /-- HQ_REG_WRITE (R397). -/
  | hqRegWrite
  /-- HOST_LAUNCH (R318). -/
  | hostLaunch
  /-- HOST_POST (R318). -/
  | hostPost
  /-- COUNTER_SET (R318). -/
  | counterSet
  /-- BALANCE (R316). -/
  | balance
  /-- DUTY_REPLY (R318). -/
  | dutyReply
  /-- TOKEN (R291). -/
  | token
  /-- OCCUPANCY (R318). -/
  | occupancy
  /-- KERNEL_LAUNCH (R324). -/
  | kernelLaunch
  /-- BAY_SCRUB_COMPLETE (R55). -/
  | bayScrubComplete
  /-- KERNEL_RETIRE (R327). -/
  | kernelRetire
  /-- RECOAT_HANDOVER (R330). -/
  | recoatHandover
  /-- BARRIER_ARRIVAL (R342). -/
  | barrierArrival
  /-- BARRIER_RELEASE_SENT (R342). -/
  | barrierReleaseSent
  /-- BARRIER_RELEASE (R343). -/
  | barrierRelease
  /-- WATCH_ARRIVAL (R343). -/
  | watchArrival
  /-- WATCH_ANSWER (R343). -/
  | watchAnswer
  /-- LEAVE_NOTICE (R344). -/
  | leaveNotice
  /-- WITHDRAWAL_ARRIVAL (R345). -/
  | withdrawalArrival
  /-- LOCK (R368). -/
  | lock
  /-- UNLOCK (R372). -/
  | unlock
  /-- SCRUB_COMPLETE (R372). -/
  | scrubComplete
  /-- SUSPEND (R79). -/
  | suspend
  /-- SUSPEND_COMPLETE (R374). -/
  | suspendComplete
  /-- RESTORE (R375). -/
  | restore
  /-- MIGRATE (R376). -/
  | migrate
  /-- MIGRATION_CHUNK (R376). -/
  | migrationChunk
  /-- CONFIRM (R376). -/
  | confirm
  /-- MIGRATION_ACK (R376). -/
  | migrationAck
  /-- MIGRATION_COMMIT_TIMEOUT (R377). -/
  | migrationCommitTimeout
  /-- ALARM_NOTICE (R377). -/
  | alarmNotice
  /-- ALARM_LEVEL2 (R379). -/
  | alarmLevel2
  /-- ALARM_LEVEL3 (R380). -/
  | alarmLevel3
  /-- SENSOR_LIMIT (R399). -/
  | sensorLimit
  /-- TAMPER_MESH (R378). -/
  | tamperMesh
  /-- COLD_START (R391). -/
  | coldStart
  /-- WARM_START (R392). -/
  | warmStart
  /-- SET_DUTY (R395). -/
  | setDuty
  /-- FW_STAGE (R393). -/
  | fwStage
  /-- FW_ACTIVATE (R393). -/
  | fwActivate
  /-- READ_LOG (R398). -/
  | readLog
  /-- GET_MEASUREMENTS (R394). -/
  | getMeasurements
  /-- KEY_EXCHANGE (R394). -/
  | keyExchange
  /-- MIGRATION_OFFER (R366). -/
  | migrationOffer
  /-- MIGRATION_ABORT (R377). -/
  | migrationAbort
  deriving DecidableEq, Repr

end Sys2Proof
end

