-- ==== Sys2Proof/WellFormed.lean ====
section
/-!
DEFINITION. Which instructions are well formed: the conditions on an instruction's fields that its constructor's types
do not already say (R28, R36, R224).
-/

namespace Sys2Proof

/-- The control-register numbers that R36 lists. -/
def csrListed (n : BitVec 11) : Bool :=
  let v := n.toNat
  v ≤ 0x00A || (0x010 ≤ v && v ≤ 0x016) || (0x020 ≤ v && v ≤ 0x023) || (0x030 ≤ v && v ≤ 0x032) ||
  (0x040 ≤ v && v ≤ 0x044) || (0x050 ≤ v && v ≤ 0x055) || (0x060 ≤ v && v ≤ 0x062)

/-- RAMO with op cas needs an even D of at most 30 (R224). -/
def ramoForm (d : SReg) (op : BitVec 3) : Bool := op != 2 || (d.val % 2 == 0 && d.val ≤ 30)

/-- The conditions on fields that a word of a constructor must meet (R28 for mask destinations, R36 for CSR numbers, R224
for RAMO with op cas). A step without an encoding has no field, and none to check. -/
def Instr.wf : Instr → Bool
  | .vceq _ d _ _ => d != 0
  | .vcne _ d _ _ => d != 0
  | .vclt _ d _ _ => d != 0
  | .vcltu _ d _ _ => d != 0
  | .vcle _ d _ _ => d != 0
  | .vcleu _ d _ _ => d != 0
  | .vcgt _ d _ _ => d != 0
  | .vcgtu _ d _ _ => d != 0
  | .vfceq _ d _ _ => d != 0
  | .vfclt _ d _ _ => d != 0
  | .vfcle _ d _ _ => d != 0
  | .vfcun _ d _ _ => d != 0
  | .mand _ d _ _ => d != 0
  | .mor _ d _ _ => d != 0
  | .mxor _ d _ _ => d != 0
  | .mandn _ d _ _ => d != 0
  | .mnot _ d _ => d != 0
  | .mskft _ d _ => d != 0
  | .mskbf _ d _ => d != 0
  | .mfromv _ d _ => d != 0
  | .ramo d _ _ op => ramoForm d op
  | .csrr _ n => csrListed n
  | .csrw _ _ n => csrListed n
  | .csrs _ _ n => csrListed n
  | .csrc _ _ n => csrListed n
  | .trap .. | .slotw .. | .add .. | .sub .. | .and .. | .or .. | .xor .. | .sll .. | .srl .. | .sra .. | .slt ..
  | .sltu .. | .mul .. | .mulh .. | .mulhu .. | .div .. | .divu .. | .rem .. | .remu .. | .min .. | .max ..
  | .minu .. | .maxu .. | .clz .. | .ctz .. | .popc .. | .addi .. | .andi .. | .ori .. | .xori .. | .slti ..
  | .sltiu .. | .slli .. | .srli .. | .srai .. | .lui .. | .addpc .. | .ldb .. | .ldbu .. | .ldh .. | .ldhu ..
  | .ldw .. | .ldwu .. | .ldd .. | .stb .. | .sth .. | .stw .. | .std .. | .beq .. | .bne .. | .blt .. | .bge ..
  | .bltu .. | .bgeu .. | .jal .. | .jalr .. | .loopi .. | .loop .. | .amoadd .. | .amoswap .. | .amocas ..
  | .amomin .. | .amomax .. | .amominu .. | .amomaxu .. | .amoand .. | .amoor .. | .amoxor .. | .fence ..
  | .fenceacq .. | .fencerel .. | .fenceeng .. | .wfev .. | .take .. | .post .. | .postw .. | .retire .. | .wake ..
  | .signal .. | .recoat .. | .ldfull .. | .ldfullk .. | .stfull .. | .stfill .. | .feclr .. | .setvl .. | .vadd ..
  | .vsub .. | .vrsub .. | .vmul .. | .vmulh .. | .vmulhu .. | .vmadd .. | .vmsub .. | .vdiv .. | .vdivu ..
  | .vrem .. | .vremu .. | .vmin .. | .vmax .. | .vminu .. | .vmaxu .. | .vand .. | .vor .. | .vxor .. | .vsll ..
  | .vsrl .. | .vsra .. | .vsadd .. | .vsaddu .. | .vssub .. | .vssubu .. | .vmerge .. | .vmv .. | .vabs ..
  | .vclz .. | .vpopc .. | .vfadd .. | .vfsub .. | .vfmul .. | .vfma .. | .vfms .. | .vfnma .. | .vfdiv ..
  | .vfsqrt .. | .vfmin .. | .vfmax .. | .vfabs .. | .vfneg .. | .vfcvt .. | .vfcvti .. | .vicvtf .. | .vfclass ..
  | .vxchg .. | .vslideup .. | .vslidedn .. | .vslide1up .. | .vslide1dn .. | .vgather .. | .vcompress .. | .vextr ..
  | .vinsr .. | .viota .. | .vredsum .. | .vredmin .. | .vredmax .. | .vredminu .. | .vredmaxu .. | .vredand ..
  | .vredor .. | .vredxor .. | .vfredsum .. | .vscan .. | .mpopc .. | .mfirst .. | .mtov .. | .vld .. | .vldff ..
  | .vldx .. | .vst .. | .vstx .. | .vldq .. | .vstq .. | .vldbc .. | .mma .. | .mopa .. | .mslide .. | .mrdc ..
  | .mzero .. | .mdrain .. | .ringcfg .. | .rwaitf .. | .rwaite .. | .radvh .. | .radvt .. | .rstat .. | .cpy ..
  | .cpywait .. | .cpystat .. | .cpycan .. | .wld .. | .wst .. | .wnarrow .. | .wdlg .. | .wstripe .. | .wclr ..
  | .winfo .. | .wmint .. | .wgen .. | .send .. | .sendv .. | .recv .. | .rld .. | .rst .. | .rstf .. | .rldv ..
  | .rstv .. | .wlease .. | .wrelease .. | .wlstat .. | .gbar .. | .garrive .. | .gwait .. | .gred .. | .ginfo ..
  | .vexp2 .. | .vlog2 .. | .vrcp .. | .vrsqrt .. | .vsin .. | .vcos .. | .vtanh .. | .vsigm .. | .mlds ..
  | .mldss .. | .ecall | .brk | .eret | .uiret | .wfi | .halt | .yield | .sleep | .mswap | .loftMovesComplete
  | .resourceAvailable | .loadMissFill | .storeBufferDrain | .granaryWriteback | .coreBarrierQuiescent
  | .matrixOpComplete | .timecmpMatch | .yieldExpiry | .userInterruptEntry | .engineTrap | .uncorrectedTrap
  | .lockWatchdog | .fewaitLimit | .barwaitLimit | .withdrawalAnswer | .copyStart | .copyLineWrite | .copyDone
  | .copyFail | .cpycanComplete | .translationWalk | .pageServiceComplete | .priResponse | .atsInvalidation
  | .shootdownComplete | .shootdown | .evict | .destroyKeySlot | .generateKeySlot | .skimPage | .maintRequestDiscard
  | .switchHeader | .gatewayHeader | .remoteAccessArrival | .messageArrival | .taskPacketArrival | .responseArrival
  | .acknowledgementArrival | .refusalArrival | .nackArrival | .nackResend | .keepWaitingTimer | .keepWaitingNotice
  | .responseTimerExpiry | .portGenAdvance | .linkRetry | .routeRemint | .laneLoss | .channelLockLoss
  | .blockedHeadTimeout | .tokenVisit | .recoverySinkApply | .leaseRequestArrival | .leaseGrant | .retuneComplete
  | .leaseTermExpiry | .leaseRequestTimeout | .starvationTimeout | .reclaimExpiry | .counterArm | .counterSignal
  | .armAnswer | .zeroNotice | .taskAging | .balancerRound | .balanceCommand | .migrationSend | .migrationArrival
  | .migrationRefused | .hqTailWrite | .hqEnableWrite | .hqRegWrite | .hostLaunch | .hostPost | .counterSet
  | .balance | .dutyReply | .token | .occupancy | .kernelLaunch | .bayScrubComplete | .kernelRetire | .recoatHandover
  | .barrierArrival | .barrierReleaseSent | .barrierRelease | .watchArrival | .watchAnswer | .leaveNotice
  | .withdrawalArrival | .lock | .unlock | .scrubComplete | .suspend | .suspendComplete | .restore | .migrate
  | .migrationChunk | .confirm | .migrationAck | .migrationCommitTimeout | .alarmNotice | .alarmLevel2 | .alarmLevel3
  | .sensorLimit | .tamperMesh | .coldStart | .warmStart | .setDuty | .fwStage | .fwActivate | .readLog
  | .getMeasurements | .keyExchange | .migrationOffer | .migrationAbort => true

end Sys2Proof
end

