-- ==== Sys2Proof/Decode.lean ====
section
/-!
DEFINITION. Decoding an instruction word and encoding an instruction, written from the formats of R103, the opcode map
of R104, the register fields of R105 and the decode tests 2 to 9 of R106.
A word that fails a test is rejected under the name of the first test it fails; each of them raises ILLEGAL.
-/

namespace Sys2Proof

/-- The tests of R106 that a word alone can fail, in their order. -/
inductive DecodeError where
  /-- Test 2: C = 1 in a major that does not permit it. -/
  | convoyBit
  /-- Test 3: a major of 0x34 to 0x3F. -/
  | reservedMajor
  /-- Test 4: an undefined function, MF, KIND, OP, LEVEL or CFG value. -/
  | undefinedFunction
  /-- Test 5: K is not legal for the instruction. -/
  | kBit
  /-- Test 6: a register field, or an immediate in a register field, is out of range. -/
  | fieldRange
  /-- Test 7: an unused field is not 0. -/
  | unusedField
  /-- Test 8: the CSR number is not listed. -/
  | csrNumber
  /-- Test 9: m0 is the destination. -/
  | maskZero
  deriving DecidableEq, Repr

/-- What decoding a word answers. -/
abbrev Decoded := Except DecodeError Instr

/-! ### The fields of a word (R103) -/

/-- The convoy bit C (R101). -/
def wordC (w : IWord) : Bool := w.getLsbD 31
/-- The major opcode (R101). -/
def wordMajor (w : IWord) : BitVec 6 := w.extractLsb' 25 6
/-- Field D of bits [24:19]. -/
def wordD (w : IWord) : BitVec 6 := w.extractLsb' 19 6
/-- Field A of bits [18:13]. -/
def wordA (w : IWord) : BitVec 6 := w.extractLsb' 13 6
/-- Field B of bits [12:7]. -/
def wordB (w : IWord) : BitVec 6 := w.extractLsb' 7 6
/-- The function code F of bits [6:0]. -/
def wordF (w : IWord) : BitVec 7 := w.extractLsb' 0 7
/-- K, the top bit of F in the vector majors (R105). -/
def wordK (w : IWord) : Bool := w.getLsbD 6
/-- F[5:0], the function code of the vector majors. -/
def wordF6 (w : IWord) : BitVec 6 := w.extractLsb' 0 6
/-- IMM13 of formats I and S. -/
def wordI13 (w : IWord) : BitVec 13 := w.extractLsb' 0 13
/-- IMM19 of formats U and J. -/
def wordI19 (w : IWord) : BitVec 19 := w.extractLsb' 0 19

/-- The major opcodes that permit C = 1 (R101). -/
def convoyMajor (m : BitVec 6) : Bool :=
  m == 0x24 || m == 0x25 || m == 0x26 || m == 0x27 || m == 0x28 || m == 0x29 || m == 0x31

/-! ### Register fields (R102) -/

/-- A scalar register field: 0 to 31. -/
def fieldS (x : BitVec 6) : Except DecodeError SReg :=
  if h : x.toNat < 32 then .ok ⟨x.toNat, h⟩ else .error .fieldRange
/-- A vector register field: every value is in range. -/
def fieldV (x : BitVec 6) : VReg := x.toFin
/-- A mask register field: 0 to 7. -/
def fieldM (x : BitVec 6) : Except DecodeError MReg :=
  if h : x.toNat < 8 then .ok ⟨x.toNat, h⟩ else .error .fieldRange
/-- A route register field: 0 to 15. -/
def fieldW (x : BitVec 6) : Except DecodeError RReg :=
  if h : x.toNat < 16 then .ok ⟨x.toNat, h⟩ else .error .fieldRange
/-- An immediate of a field, below a bound. -/
def fieldBelow {w : Nat} (n : Nat) (e : DecodeError) (x : BitVec w) : Except DecodeError (Fin n) :=
  if h : x.toNat < n then .ok ⟨x.toNat, h⟩ else .error e
/-- The B field of an instruction with a K form (R105). -/
def fieldVS (k : Bool) (x : BitVec 6) : Except DecodeError VSrc :=
  if k then (fieldS x).map .s else .ok (.v (fieldV x))
/-- Test 7: a field that is not used must be 0. -/
def unusedZero {w : Nat} (x : BitVec w) (i : Instr) : Decoded :=
  if x = 0 then .ok i else .error .unusedField
/-- Test 9: m0 is no destination. -/
def maskDest (d : MReg) (i : Decoded) : Decoded :=
  i.bind fun j => if d = 0 then .error .maskZero else .ok j
/-- Test 5 for an instruction without a K form. -/
def noK (w : IWord) (i : Decoded) : Decoded := if wordK w then .error .kBit else i
/-- Test 5 for an instruction that has the K form only. -/
def onlyK (w : IWord) (i : Decoded) : Decoded := if wordK w then i else .error .kBit

/-! ### The function tables of the majors (R104) -/

/-- Major 0x00, SYS. -/
def decodeSys (w : IWord) : Decoded :=
  match (wordF w).toNat with
  | 0x01 => unusedZero (wordD w ++ wordA w ++ wordB w) .ecall
  | 0x02 => unusedZero (wordD w ++ wordA w ++ wordB w) .brk
  | 0x03 => unusedZero (wordD w ++ wordA w ++ wordB w) .eret
  | 0x04 => unusedZero (wordD w ++ wordA w ++ wordB w) .uiret
  | 0x05 => unusedZero (wordD w ++ wordA w ++ wordB w) .wfi
  | 0x06 => unusedZero (wordD w ++ wordA w ++ wordB w) .halt
  | 0x07 => (fieldS (wordA w)).bind fun a => unusedZero (wordD w ++ wordB w) (.trap a)
  | 0x08 => (fieldS (wordA w)).bind fun a => (fieldS (wordB w)).bind fun b => unusedZero (wordD w) (.slotw a b)
  | _ => .error .undefinedFunction

/-- Major 0x01, ALU. -/
def decodeAlu (w : IWord) : Decoded :=
  match (wordF w).toNat with
  | 0x00 => (fieldS (wordD w)).bind fun d => (fieldS (wordA w)).bind fun a => (fieldS (wordB w)).bind fun b => .ok (.add d a b)
  | 0x01 => (fieldS (wordD w)).bind fun d => (fieldS (wordA w)).bind fun a => (fieldS (wordB w)).bind fun b => .ok (.sub d a b)
  | 0x02 => (fieldS (wordD w)).bind fun d => (fieldS (wordA w)).bind fun a => (fieldS (wordB w)).bind fun b => .ok (.and d a b)
  | 0x03 => (fieldS (wordD w)).bind fun d => (fieldS (wordA w)).bind fun a => (fieldS (wordB w)).bind fun b => .ok (.or d a b)
  | 0x04 => (fieldS (wordD w)).bind fun d => (fieldS (wordA w)).bind fun a => (fieldS (wordB w)).bind fun b => .ok (.xor d a b)
  | 0x05 => (fieldS (wordD w)).bind fun d => (fieldS (wordA w)).bind fun a => (fieldS (wordB w)).bind fun b => .ok (.sll d a b)
  | 0x06 => (fieldS (wordD w)).bind fun d => (fieldS (wordA w)).bind fun a => (fieldS (wordB w)).bind fun b => .ok (.srl d a b)
  | 0x07 => (fieldS (wordD w)).bind fun d => (fieldS (wordA w)).bind fun a => (fieldS (wordB w)).bind fun b => .ok (.sra d a b)
  | 0x08 => (fieldS (wordD w)).bind fun d => (fieldS (wordA w)).bind fun a => (fieldS (wordB w)).bind fun b => .ok (.slt d a b)
  | 0x09 => (fieldS (wordD w)).bind fun d => (fieldS (wordA w)).bind fun a => (fieldS (wordB w)).bind fun b => .ok (.sltu d a b)
  | 0x0A => (fieldS (wordD w)).bind fun d => (fieldS (wordA w)).bind fun a => (fieldS (wordB w)).bind fun b => .ok (.mul d a b)
  | 0x0B => (fieldS (wordD w)).bind fun d => (fieldS (wordA w)).bind fun a => (fieldS (wordB w)).bind fun b => .ok (.mulh d a b)
  | 0x0C => (fieldS (wordD w)).bind fun d => (fieldS (wordA w)).bind fun a => (fieldS (wordB w)).bind fun b => .ok (.mulhu d a b)
  | 0x0D => (fieldS (wordD w)).bind fun d => (fieldS (wordA w)).bind fun a => (fieldS (wordB w)).bind fun b => .ok (.div d a b)
  | 0x0E => (fieldS (wordD w)).bind fun d => (fieldS (wordA w)).bind fun a => (fieldS (wordB w)).bind fun b => .ok (.divu d a b)
  | 0x0F => (fieldS (wordD w)).bind fun d => (fieldS (wordA w)).bind fun a => (fieldS (wordB w)).bind fun b => .ok (.rem d a b)
  | 0x10 => (fieldS (wordD w)).bind fun d => (fieldS (wordA w)).bind fun a => (fieldS (wordB w)).bind fun b => .ok (.remu d a b)
  | 0x11 => (fieldS (wordD w)).bind fun d => (fieldS (wordA w)).bind fun a => (fieldS (wordB w)).bind fun b => .ok (.min d a b)
  | 0x12 => (fieldS (wordD w)).bind fun d => (fieldS (wordA w)).bind fun a => (fieldS (wordB w)).bind fun b => .ok (.max d a b)
  | 0x13 => (fieldS (wordD w)).bind fun d => (fieldS (wordA w)).bind fun a => (fieldS (wordB w)).bind fun b => .ok (.minu d a b)
  | 0x14 => (fieldS (wordD w)).bind fun d => (fieldS (wordA w)).bind fun a => (fieldS (wordB w)).bind fun b => .ok (.maxu d a b)
  | 0x15 => (fieldS (wordD w)).bind fun d => (fieldS (wordA w)).bind fun a => unusedZero (wordB w) (.clz d a)
  | 0x16 => (fieldS (wordD w)).bind fun d => (fieldS (wordA w)).bind fun a => unusedZero (wordB w) (.ctz d a)
  | 0x17 => (fieldS (wordD w)).bind fun d => (fieldS (wordA w)).bind fun a => unusedZero (wordB w) (.popc d a)
  | _ => .error .undefinedFunction

/-- Major 0x08, SHI. -/
def decodeShi (w : IWord) : Decoded :=
  match (w.extractLsb' 11 2).toNat with
  | 0 => (fieldS (wordD w)).bind fun d => (fieldS (wordA w)).bind fun a => unusedZero (w.extractLsb' 6 5) (.slli d a (w.extractLsb' 0 6))
  | 1 => (fieldS (wordD w)).bind fun d => (fieldS (wordA w)).bind fun a => unusedZero (w.extractLsb' 6 5) (.srli d a (w.extractLsb' 0 6))
  | 2 => (fieldS (wordD w)).bind fun d => (fieldS (wordA w)).bind fun a => unusedZero (w.extractLsb' 6 5) (.srai d a (w.extractLsb' 0 6))
  | _ => .error .undefinedFunction

/-- Major 0x1E, LOOP. -/
def decodeLoop (w : IWord) : Decoded :=
  match (w.getLsbD 16).toNat with
  | 1 => (fieldBelow 6 .undefinedFunction (w.extractLsb' 22 3)).bind fun level => .ok (.loopi level (w.extractLsb' 17 5) (w.extractLsb' 0 16))
  | 0 => (fieldBelow 6 .undefinedFunction (w.extractLsb' 22 3)).bind fun level => (fieldS (w.extractLsb' 10 6)).bind fun a => unusedZero (w.extractLsb' 0 10) (.loop level (w.extractLsb' 17 5) a)
  | _ => .error .undefinedFunction

/-- Major 0x1F, ATOM. -/
def decodeAtom (w : IWord) : Decoded :=
  match (w.extractLsb' 0 5).toNat + 32 * (w.extractLsb' 6 1).toNat with
  | 0x00 => (fieldS (wordD w)).bind fun d => (fieldS (wordA w)).bind fun a => (fieldS (wordB w)).bind fun b => .ok (.amoadd d a b (w.getLsbD 5))
  | 0x01 => (fieldS (wordD w)).bind fun d => (fieldS (wordA w)).bind fun a => (fieldS (wordB w)).bind fun b => .ok (.amoswap d a b (w.getLsbD 5))
  | 0x02 => (fieldS (wordD w)).bind fun d => (fieldS (wordA w)).bind fun a => (fieldS (wordB w)).bind fun b => .ok (.amocas d a b (w.getLsbD 5))
  | 0x03 => (fieldS (wordD w)).bind fun d => (fieldS (wordA w)).bind fun a => (fieldS (wordB w)).bind fun b => .ok (.amomin d a b (w.getLsbD 5))
  | 0x04 => (fieldS (wordD w)).bind fun d => (fieldS (wordA w)).bind fun a => (fieldS (wordB w)).bind fun b => .ok (.amomax d a b (w.getLsbD 5))
  | 0x05 => (fieldS (wordD w)).bind fun d => (fieldS (wordA w)).bind fun a => (fieldS (wordB w)).bind fun b => .ok (.amominu d a b (w.getLsbD 5))
  | 0x06 => (fieldS (wordD w)).bind fun d => (fieldS (wordA w)).bind fun a => (fieldS (wordB w)).bind fun b => .ok (.amomaxu d a b (w.getLsbD 5))
  | 0x07 => (fieldS (wordD w)).bind fun d => (fieldS (wordA w)).bind fun a => (fieldS (wordB w)).bind fun b => .ok (.amoand d a b (w.getLsbD 5))
  | 0x08 => (fieldS (wordD w)).bind fun d => (fieldS (wordA w)).bind fun a => (fieldS (wordB w)).bind fun b => .ok (.amoor d a b (w.getLsbD 5))
  | 0x09 => (fieldS (wordD w)).bind fun d => (fieldS (wordA w)).bind fun a => (fieldS (wordB w)).bind fun b => .ok (.amoxor d a b (w.getLsbD 5))
  | _ => .error .undefinedFunction

/-- Major 0x20, SYNC. -/
def decodeSync (w : IWord) : Decoded :=
  match (wordF w).toNat with
  | 0x00 => (fieldBelow 7 .fieldRange (wordB w)).bind fun scope => unusedZero (wordD w ++ wordA w) (.fence scope)
  | 0x01 => (fieldBelow 7 .fieldRange (wordB w)).bind fun scope => unusedZero (wordD w ++ wordA w) (.fenceacq scope)
  | 0x02 => (fieldBelow 7 .fieldRange (wordB w)).bind fun scope => unusedZero (wordD w ++ wordA w) (.fencerel scope)
  | 0x03 => (fieldBelow 7 .fieldRange (wordB w)).bind fun scope => unusedZero (wordD w ++ wordA w) (.fenceeng scope)
  | 0x04 => (fieldBelow 7 .fieldRange (wordB w)).bind fun scope => unusedZero (wordD w ++ wordA w) (.wfev scope)
  | _ => .error .undefinedFunction

/-- Major 0x21, TASK. -/
def decodeTask (w : IWord) : Decoded :=
  match (wordF w).toNat with
  | 0x00 => (fieldS (wordD w)).bind fun d => unusedZero (wordA w ++ wordB w) (.take d)
  | 0x01 => (fieldS (wordD w)).bind fun d => (fieldS (wordA w)).bind fun a => unusedZero (wordB w) (.post d a)
  | 0x02 => (fieldW (wordA w)).bind fun a => (fieldS (wordB w)).bind fun b => unusedZero (wordD w) (.postw a b)
  | 0x03 => (fieldS (wordA w)).bind fun a => unusedZero (wordD w ++ wordB w) (.retire a)
  | 0x04 => unusedZero (wordD w ++ wordA w ++ wordB w) .yield
  | 0x05 => unusedZero (wordD w ++ wordA w ++ wordB w) .sleep
  | 0x06 => (fieldS (wordA w)).bind fun a => unusedZero (wordD w ++ wordB w) (.wake a)
  | 0x07 => (fieldS (wordD w)).bind fun d => (fieldS (wordA w)).bind fun a => unusedZero (wordB w) (.signal d a)
  | 0x08 => (fieldS (wordA w)).bind fun a => (fieldS (wordB w)).bind fun b => unusedZero (wordD w) (.recoat a b)
  | _ => .error .undefinedFunction

/-- Major 0x22, FE. -/
def decodeFe (w : IWord) : Decoded :=
  match (wordF w).toNat with
  | 0x00 => (fieldS (wordD w)).bind fun d => (fieldS (wordA w)).bind fun a => unusedZero (wordB w) (.ldfull d a)
  | 0x01 => (fieldS (wordD w)).bind fun d => (fieldS (wordA w)).bind fun a => unusedZero (wordB w) (.ldfullk d a)
  | 0x02 => (fieldS (wordD w)).bind fun d => (fieldS (wordA w)).bind fun a => unusedZero (wordB w) (.stfull d a)
  | 0x03 => (fieldS (wordD w)).bind fun d => (fieldS (wordA w)).bind fun a => unusedZero (wordB w) (.stfill d a)
  | 0x04 => (fieldS (wordA w)).bind fun a => unusedZero (wordD w ++ wordB w) (.feclr a)
  | _ => .error .undefinedFunction

/-- Major 0x23, VSET. -/
def decodeVset (w : IWord) : Decoded :=
  (fieldBelow 5 .undefinedFunction (w.extractLsb' 10 3)).bind fun rnd => (fieldBelow 3 .undefinedFunction (w.extractLsb' 8 2)).bind fun vfmt => (fieldBelow 5 .undefinedFunction (w.extractLsb' 5 3)).bind fun space => (fieldBelow 7 .undefinedFunction (w.extractLsb' 2 3)).bind fun scope => (fieldBelow 3 .undefinedFunction (w.extractLsb' 0 2)).bind fun sew => (fieldS (wordD w)).bind fun d => (fieldS (wordA w)).bind fun a => .ok (.setvl d a rnd vfmt space scope sew)

/-- Major 0x24, VINT. -/
def decodeVint (w : IWord) : Decoded :=
  match (wordF6 w).toNat with
  | 0x00 => (fieldVS (wordK w) (wordB w)).bind fun b => .ok (.vadd (wordC w) (fieldV (wordD w)) (fieldV (wordA w)) b)
  | 0x01 => (fieldVS (wordK w) (wordB w)).bind fun b => .ok (.vsub (wordC w) (fieldV (wordD w)) (fieldV (wordA w)) b)
  | 0x02 => (fieldVS (wordK w) (wordB w)).bind fun b => .ok (.vrsub (wordC w) (fieldV (wordD w)) (fieldV (wordA w)) b)
  | 0x03 => (fieldVS (wordK w) (wordB w)).bind fun b => .ok (.vmul (wordC w) (fieldV (wordD w)) (fieldV (wordA w)) b)
  | 0x04 => (fieldVS (wordK w) (wordB w)).bind fun b => .ok (.vmulh (wordC w) (fieldV (wordD w)) (fieldV (wordA w)) b)
  | 0x05 => (fieldVS (wordK w) (wordB w)).bind fun b => .ok (.vmulhu (wordC w) (fieldV (wordD w)) (fieldV (wordA w)) b)
  | 0x06 => (fieldVS (wordK w) (wordB w)).bind fun b => .ok (.vmadd (wordC w) (fieldV (wordD w)) (fieldV (wordA w)) b)
  | 0x07 => (fieldVS (wordK w) (wordB w)).bind fun b => .ok (.vmsub (wordC w) (fieldV (wordD w)) (fieldV (wordA w)) b)
  | 0x08 => (fieldVS (wordK w) (wordB w)).bind fun b => .ok (.vdiv (wordC w) (fieldV (wordD w)) (fieldV (wordA w)) b)
  | 0x09 => (fieldVS (wordK w) (wordB w)).bind fun b => .ok (.vdivu (wordC w) (fieldV (wordD w)) (fieldV (wordA w)) b)
  | 0x0A => (fieldVS (wordK w) (wordB w)).bind fun b => .ok (.vrem (wordC w) (fieldV (wordD w)) (fieldV (wordA w)) b)
  | 0x0B => (fieldVS (wordK w) (wordB w)).bind fun b => .ok (.vremu (wordC w) (fieldV (wordD w)) (fieldV (wordA w)) b)
  | 0x0C => (fieldVS (wordK w) (wordB w)).bind fun b => .ok (.vmin (wordC w) (fieldV (wordD w)) (fieldV (wordA w)) b)
  | 0x0D => (fieldVS (wordK w) (wordB w)).bind fun b => .ok (.vmax (wordC w) (fieldV (wordD w)) (fieldV (wordA w)) b)
  | 0x0E => (fieldVS (wordK w) (wordB w)).bind fun b => .ok (.vminu (wordC w) (fieldV (wordD w)) (fieldV (wordA w)) b)
  | 0x0F => (fieldVS (wordK w) (wordB w)).bind fun b => .ok (.vmaxu (wordC w) (fieldV (wordD w)) (fieldV (wordA w)) b)
  | 0x10 => (fieldVS (wordK w) (wordB w)).bind fun b => .ok (.vand (wordC w) (fieldV (wordD w)) (fieldV (wordA w)) b)
  | 0x11 => (fieldVS (wordK w) (wordB w)).bind fun b => .ok (.vor (wordC w) (fieldV (wordD w)) (fieldV (wordA w)) b)
  | 0x12 => (fieldVS (wordK w) (wordB w)).bind fun b => .ok (.vxor (wordC w) (fieldV (wordD w)) (fieldV (wordA w)) b)
  | 0x13 => (fieldVS (wordK w) (wordB w)).bind fun b => .ok (.vsll (wordC w) (fieldV (wordD w)) (fieldV (wordA w)) b)
  | 0x14 => (fieldVS (wordK w) (wordB w)).bind fun b => .ok (.vsrl (wordC w) (fieldV (wordD w)) (fieldV (wordA w)) b)
  | 0x15 => (fieldVS (wordK w) (wordB w)).bind fun b => .ok (.vsra (wordC w) (fieldV (wordD w)) (fieldV (wordA w)) b)
  | 0x16 => (fieldVS (wordK w) (wordB w)).bind fun b => .ok (.vsadd (wordC w) (fieldV (wordD w)) (fieldV (wordA w)) b)
  | 0x17 => (fieldVS (wordK w) (wordB w)).bind fun b => .ok (.vsaddu (wordC w) (fieldV (wordD w)) (fieldV (wordA w)) b)
  | 0x18 => (fieldVS (wordK w) (wordB w)).bind fun b => .ok (.vssub (wordC w) (fieldV (wordD w)) (fieldV (wordA w)) b)
  | 0x19 => (fieldVS (wordK w) (wordB w)).bind fun b => .ok (.vssubu (wordC w) (fieldV (wordD w)) (fieldV (wordA w)) b)
  | 0x1A => (fieldVS (wordK w) (wordB w)).bind fun b => .ok (.vmerge (wordC w) (fieldV (wordD w)) (fieldV (wordA w)) b)
  | 0x1B => (fieldVS (wordK w) (wordB w)).bind fun b => unusedZero (wordA w) (.vmv (wordC w) (fieldV (wordD w)) b)
  | 0x1C => noK w (unusedZero (wordB w) (.vabs (wordC w) (fieldV (wordD w)) (fieldV (wordA w))))
  | 0x1D => noK w (unusedZero (wordB w) (.vclz (wordC w) (fieldV (wordD w)) (fieldV (wordA w))))
  | 0x1E => noK w (unusedZero (wordB w) (.vpopc (wordC w) (fieldV (wordD w)) (fieldV (wordA w))))
  | _ => .error .undefinedFunction

/-- Major 0x25, VFLT. -/
def decodeVflt (w : IWord) : Decoded :=
  match (wordF6 w).toNat with
  | 0x00 => (fieldVS (wordK w) (wordB w)).bind fun b => .ok (.vfadd (wordC w) (fieldV (wordD w)) (fieldV (wordA w)) b)
  | 0x01 => (fieldVS (wordK w) (wordB w)).bind fun b => .ok (.vfsub (wordC w) (fieldV (wordD w)) (fieldV (wordA w)) b)
  | 0x02 => (fieldVS (wordK w) (wordB w)).bind fun b => .ok (.vfmul (wordC w) (fieldV (wordD w)) (fieldV (wordA w)) b)
  | 0x03 => (fieldVS (wordK w) (wordB w)).bind fun b => .ok (.vfma (wordC w) (fieldV (wordD w)) (fieldV (wordA w)) b)
  | 0x04 => (fieldVS (wordK w) (wordB w)).bind fun b => .ok (.vfms (wordC w) (fieldV (wordD w)) (fieldV (wordA w)) b)
  | 0x05 => (fieldVS (wordK w) (wordB w)).bind fun b => .ok (.vfnma (wordC w) (fieldV (wordD w)) (fieldV (wordA w)) b)
  | 0x06 => (fieldVS (wordK w) (wordB w)).bind fun b => .ok (.vfdiv (wordC w) (fieldV (wordD w)) (fieldV (wordA w)) b)
  | 0x07 => noK w (unusedZero (wordB w) (.vfsqrt (wordC w) (fieldV (wordD w)) (fieldV (wordA w))))
  | 0x08 => (fieldVS (wordK w) (wordB w)).bind fun b => .ok (.vfmin (wordC w) (fieldV (wordD w)) (fieldV (wordA w)) b)
  | 0x09 => (fieldVS (wordK w) (wordB w)).bind fun b => .ok (.vfmax (wordC w) (fieldV (wordD w)) (fieldV (wordA w)) b)
  | 0x0A => noK w (unusedZero (wordB w) (.vfabs (wordC w) (fieldV (wordD w)) (fieldV (wordA w))))
  | 0x0B => noK w (unusedZero (wordB w) (.vfneg (wordC w) (fieldV (wordD w)) (fieldV (wordA w))))
  | 0x0C => noK w ((fieldBelow 32 .fieldRange (wordB w)).bind fun f => .ok (.vfcvt (wordC w) (fieldV (wordD w)) (fieldV (wordA w)) f))
  | 0x0D => noK w (unusedZero (wordB w) (.vfcvti (wordC w) (fieldV (wordD w)) (fieldV (wordA w))))
  | 0x0E => noK w (unusedZero (wordB w) (.vicvtf (wordC w) (fieldV (wordD w)) (fieldV (wordA w))))
  | 0x0F => noK w (unusedZero (wordB w) (.vfclass (wordC w) (fieldV (wordD w)) (fieldV (wordA w))))
  | _ => .error .undefinedFunction

/-- Major 0x26, VPERM. -/
def decodeVperm (w : IWord) : Decoded :=
  match (wordF6 w).toNat with
  | 0x00 => noK w ((fieldBelow 9 .fieldRange (wordB w)).bind fun k => .ok (.vxchg (wordC w) (fieldV (wordD w)) (fieldV (wordA w)) k))
  | 0x01 => onlyK w ((fieldS (wordB w)).bind fun b => .ok (.vslideup (wordC w) (fieldV (wordD w)) (fieldV (wordA w)) b))
  | 0x02 => onlyK w ((fieldS (wordB w)).bind fun b => .ok (.vslidedn (wordC w) (fieldV (wordD w)) (fieldV (wordA w)) b))
  | 0x03 => onlyK w ((fieldS (wordB w)).bind fun b => .ok (.vslide1up (wordC w) (fieldV (wordD w)) (fieldV (wordA w)) b))
  | 0x04 => onlyK w ((fieldS (wordB w)).bind fun b => .ok (.vslide1dn (wordC w) (fieldV (wordD w)) (fieldV (wordA w)) b))
  | 0x05 => (fieldVS (wordK w) (wordB w)).bind fun b => .ok (.vgather (wordC w) (fieldV (wordD w)) (fieldV (wordA w)) b)
  | 0x06 => noK w (unusedZero (wordB w) (.vcompress (wordC w) (fieldV (wordD w)) (fieldV (wordA w))))
  | 0x07 => onlyK w ((fieldS (wordD w)).bind fun d => (fieldS (wordB w)).bind fun b => .ok (.vextr (wordC w) d (fieldV (wordA w)) b))
  | 0x08 => onlyK w ((fieldS (wordA w)).bind fun a => (fieldS (wordB w)).bind fun b => .ok (.vinsr (wordC w) (fieldV (wordD w)) a b))
  | 0x09 => noK w (unusedZero (wordA w ++ wordB w) (.viota (wordC w) (fieldV (wordD w))))
  | 0x0A => (fieldVS (wordK w) (wordB w)).bind fun b => .ok (.vredsum (wordC w) (fieldV (wordD w)) (fieldV (wordA w)) b)
  | 0x0B => (fieldVS (wordK w) (wordB w)).bind fun b => .ok (.vredmin (wordC w) (fieldV (wordD w)) (fieldV (wordA w)) b)
  | 0x0C => (fieldVS (wordK w) (wordB w)).bind fun b => .ok (.vredmax (wordC w) (fieldV (wordD w)) (fieldV (wordA w)) b)
  | 0x0D => (fieldVS (wordK w) (wordB w)).bind fun b => .ok (.vredminu (wordC w) (fieldV (wordD w)) (fieldV (wordA w)) b)
  | 0x0E => (fieldVS (wordK w) (wordB w)).bind fun b => .ok (.vredmaxu (wordC w) (fieldV (wordD w)) (fieldV (wordA w)) b)
  | 0x0F => (fieldVS (wordK w) (wordB w)).bind fun b => .ok (.vredand (wordC w) (fieldV (wordD w)) (fieldV (wordA w)) b)
  | 0x10 => (fieldVS (wordK w) (wordB w)).bind fun b => .ok (.vredor (wordC w) (fieldV (wordD w)) (fieldV (wordA w)) b)
  | 0x11 => (fieldVS (wordK w) (wordB w)).bind fun b => .ok (.vredxor (wordC w) (fieldV (wordD w)) (fieldV (wordA w)) b)
  | 0x12 => (fieldVS (wordK w) (wordB w)).bind fun b => .ok (.vfredsum (wordC w) (fieldV (wordD w)) (fieldV (wordA w)) b)
  | 0x13 => noK w (unusedZero (wordB w) (.vscan (wordC w) (fieldV (wordD w)) (fieldV (wordA w))))
  | _ => .error .undefinedFunction

/-- Major 0x27, VCMP. -/
def decodeVcmp (w : IWord) : Decoded :=
  match (wordF6 w).toNat with
  | 0x00 => (fieldM (wordD w)).bind fun d => (fieldVS (wordK w) (wordB w)).bind fun b => maskDest d (.ok (.vceq (wordC w) d (fieldV (wordA w)) b))
  | 0x01 => (fieldM (wordD w)).bind fun d => (fieldVS (wordK w) (wordB w)).bind fun b => maskDest d (.ok (.vcne (wordC w) d (fieldV (wordA w)) b))
  | 0x02 => (fieldM (wordD w)).bind fun d => (fieldVS (wordK w) (wordB w)).bind fun b => maskDest d (.ok (.vclt (wordC w) d (fieldV (wordA w)) b))
  | 0x03 => (fieldM (wordD w)).bind fun d => (fieldVS (wordK w) (wordB w)).bind fun b => maskDest d (.ok (.vcltu (wordC w) d (fieldV (wordA w)) b))
  | 0x04 => (fieldM (wordD w)).bind fun d => (fieldVS (wordK w) (wordB w)).bind fun b => maskDest d (.ok (.vcle (wordC w) d (fieldV (wordA w)) b))
  | 0x05 => (fieldM (wordD w)).bind fun d => (fieldVS (wordK w) (wordB w)).bind fun b => maskDest d (.ok (.vcleu (wordC w) d (fieldV (wordA w)) b))
  | 0x06 => (fieldM (wordD w)).bind fun d => (fieldVS (wordK w) (wordB w)).bind fun b => maskDest d (.ok (.vcgt (wordC w) d (fieldV (wordA w)) b))
  | 0x07 => (fieldM (wordD w)).bind fun d => (fieldVS (wordK w) (wordB w)).bind fun b => maskDest d (.ok (.vcgtu (wordC w) d (fieldV (wordA w)) b))
  | 0x08 => (fieldM (wordD w)).bind fun d => (fieldVS (wordK w) (wordB w)).bind fun b => maskDest d (.ok (.vfceq (wordC w) d (fieldV (wordA w)) b))
  | 0x09 => (fieldM (wordD w)).bind fun d => (fieldVS (wordK w) (wordB w)).bind fun b => maskDest d (.ok (.vfclt (wordC w) d (fieldV (wordA w)) b))
  | 0x0A => (fieldM (wordD w)).bind fun d => (fieldVS (wordK w) (wordB w)).bind fun b => maskDest d (.ok (.vfcle (wordC w) d (fieldV (wordA w)) b))
  | 0x0B => (fieldM (wordD w)).bind fun d => (fieldVS (wordK w) (wordB w)).bind fun b => maskDest d (.ok (.vfcun (wordC w) d (fieldV (wordA w)) b))
  | _ => .error .undefinedFunction

/-- Major 0x28, MASK. -/
def decodeMask (w : IWord) : Decoded :=
  match (wordF6 w).toNat with
  | 0x00 => noK w ((fieldM (wordD w)).bind fun d => (fieldM (wordA w)).bind fun a => (fieldM (wordB w)).bind fun b => maskDest d (.ok (.mand (wordC w) d a b)))
  | 0x01 => noK w ((fieldM (wordD w)).bind fun d => (fieldM (wordA w)).bind fun a => (fieldM (wordB w)).bind fun b => maskDest d (.ok (.mor (wordC w) d a b)))
  | 0x02 => noK w ((fieldM (wordD w)).bind fun d => (fieldM (wordA w)).bind fun a => (fieldM (wordB w)).bind fun b => maskDest d (.ok (.mxor (wordC w) d a b)))
  | 0x03 => noK w ((fieldM (wordD w)).bind fun d => (fieldM (wordA w)).bind fun a => (fieldM (wordB w)).bind fun b => maskDest d (.ok (.mandn (wordC w) d a b)))
  | 0x04 => noK w ((fieldM (wordD w)).bind fun d => (fieldM (wordA w)).bind fun a => maskDest d (unusedZero (wordB w) (.mnot (wordC w) d a)))
  | 0x05 => noK w ((fieldS (wordD w)).bind fun d => (fieldM (wordA w)).bind fun a => unusedZero (wordB w) (.mpopc (wordC w) d a))
  | 0x06 => noK w ((fieldS (wordD w)).bind fun d => (fieldM (wordA w)).bind fun a => unusedZero (wordB w) (.mfirst (wordC w) d a))
  | 0x07 => noK w ((fieldM (wordD w)).bind fun d => (fieldM (wordA w)).bind fun a => maskDest d (unusedZero (wordB w) (.mskft (wordC w) d a)))
  | 0x08 => noK w ((fieldM (wordD w)).bind fun d => (fieldM (wordA w)).bind fun a => maskDest d (unusedZero (wordB w) (.mskbf (wordC w) d a)))
  | 0x09 => noK w ((fieldM (wordD w)).bind fun d => maskDest d (unusedZero (wordB w) (.mfromv (wordC w) d (fieldV (wordA w)))))
  | 0x0A => noK w ((fieldM (wordA w)).bind fun a => unusedZero (wordB w) (.mtov (wordC w) (fieldV (wordD w)) a))
  | _ => .error .undefinedFunction

/-- Major 0x29, VMEM. -/
def decodeVmem (w : IWord) : Decoded :=
  match (wordF6 w).toNat with
  | 0x00 => noK w ((fieldS (wordA w)).bind fun a => unusedZero (wordB w) (.vld (wordC w) (fieldV (wordD w)) a))
  | 0x01 => noK w ((fieldS (wordA w)).bind fun a => unusedZero (wordB w) (.vldff (wordC w) (fieldV (wordD w)) a))
  | 0x02 => noK w ((fieldS (wordA w)).bind fun a => .ok (.vldx (wordC w) (fieldV (wordD w)) a (fieldV (wordB w))))
  | 0x03 => noK w ((fieldS (wordA w)).bind fun a => unusedZero (wordB w) (.vst (wordC w) (fieldV (wordD w)) a))
  | 0x04 => noK w ((fieldS (wordA w)).bind fun a => .ok (.vstx (wordC w) (fieldV (wordD w)) a (fieldV (wordB w))))
  | 0x05 => noK w ((fieldS (wordA w)).bind fun a => unusedZero (wordB w) (.vldq (wordC w) (fieldV (wordD w)) a))
  | 0x06 => noK w ((fieldS (wordA w)).bind fun a => unusedZero (wordB w) (.vstq (wordC w) (fieldV (wordD w)) a))
  | 0x07 => noK w ((fieldS (wordA w)).bind fun a => unusedZero (wordB w) (.vldbc (wordC w) (fieldV (wordD w)) a))
  | _ => .error .undefinedFunction

/-- Major 0x2A, MTX. -/
def decodeMtx (w : IWord) : Decoded :=
  match (w.extractLsb' 0 3).toNat with
  | 0 => (fieldS (wordD w)).bind fun d => .ok (.mma d (fieldV (wordA w)) (fieldV (wordB w)) (w.extractLsb' 3 4))
  | 1 => (fieldS (wordD w)).bind fun d => .ok (.mopa d (fieldV (wordA w)) (fieldV (wordB w)) (w.extractLsb' 3 4))
  | 2 => (fieldS (wordD w)).bind fun d => .ok (.mslide d (fieldV (wordA w)) (fieldV (wordB w)) (w.extractLsb' 3 4))
  | 3 => (fieldS (wordD w)).bind fun d => unusedZero (wordB w) (.mrdc d (fieldV (wordA w)) (w.extractLsb' 3 4))
  | 4 => (fieldS (wordD w)).bind fun d => unusedZero (wordA w ++ wordB w) (.mzero d (w.extractLsb' 3 4))
  | 5 => (fieldS (wordD w)).bind fun d => unusedZero (wordA w ++ wordB w) (.mdrain d (w.extractLsb' 3 4))
  | _ => .error .undefinedFunction

/-- Major 0x2B, RING. -/
def decodeRing (w : IWord) : Decoded :=
  match (wordF w).toNat with
  | 0x00 => (fieldS (wordA w)).bind fun a => (fieldS (wordB w)).bind fun b => unusedZero (wordD w) (.ringcfg a b)
  | 0x01 => (fieldS (wordD w)).bind fun d => (fieldS (wordA w)).bind fun a => (fieldS (wordB w)).bind fun b => .ok (.rwaitf d a b)
  | 0x02 => (fieldS (wordD w)).bind fun d => (fieldS (wordA w)).bind fun a => (fieldS (wordB w)).bind fun b => .ok (.rwaite d a b)
  | 0x03 => (fieldS (wordD w)).bind fun d => (fieldS (wordA w)).bind fun a => (fieldS (wordB w)).bind fun b => .ok (.radvh d a b)
  | 0x04 => (fieldS (wordD w)).bind fun d => (fieldS (wordA w)).bind fun a => (fieldS (wordB w)).bind fun b => .ok (.radvt d a b)
  | 0x05 => (fieldS (wordD w)).bind fun d => (fieldS (wordA w)).bind fun a => unusedZero (wordB w) (.rstat d a)
  | _ => .error .undefinedFunction

/-- Major 0x2C, CPY. -/
def decodeCpy (w : IWord) : Decoded :=
  match (wordF w).toNat with
  | 0x00 => (fieldS (wordD w)).bind fun d => (fieldS (wordA w)).bind fun a => unusedZero (wordB w) (.cpy d a)
  | 0x01 => (fieldS (wordD w)).bind fun d => (fieldS (wordA w)).bind fun a => unusedZero (wordB w) (.cpywait d a)
  | 0x02 => (fieldS (wordD w)).bind fun d => (fieldS (wordA w)).bind fun a => unusedZero (wordB w) (.cpystat d a)
  | 0x03 => (fieldS (wordD w)).bind fun d => (fieldS (wordA w)).bind fun a => unusedZero (wordB w) (.cpycan d a)
  | _ => .error .undefinedFunction

/-- Major 0x2D, ROUTE. -/
def decodeRoute (w : IWord) : Decoded :=
  match (wordF w).toNat with
  | 0x00 => (fieldW (wordD w)).bind fun d => (fieldS (wordA w)).bind fun a => unusedZero (wordB w) (.wld d a)
  | 0x01 => (fieldW (wordD w)).bind fun d => (fieldS (wordA w)).bind fun a => unusedZero (wordB w) (.wst d a)
  | 0x02 => (fieldW (wordD w)).bind fun d => (fieldW (wordA w)).bind fun a => (fieldS (wordB w)).bind fun b => .ok (.wnarrow d a b)
  | 0x03 => (fieldW (wordD w)).bind fun d => (fieldW (wordA w)).bind fun a => (fieldS (wordB w)).bind fun b => .ok (.wdlg d a b)
  | 0x04 => (fieldW (wordD w)).bind fun d => (fieldS (wordA w)).bind fun a => unusedZero (wordB w) (.wstripe d a)
  | 0x05 => (fieldW (wordD w)).bind fun d => unusedZero (wordA w ++ wordB w) (.wclr d)
  | 0x06 => (fieldS (wordD w)).bind fun d => (fieldW (wordA w)).bind fun a => (fieldS (wordB w)).bind fun b => .ok (.winfo d a b)
  | 0x07 => (fieldW (wordD w)).bind fun d => (fieldS (wordA w)).bind fun a => unusedZero (wordB w) (.wmint d a)
  | 0x08 => (fieldS (wordD w)).bind fun d => (fieldS (wordA w)).bind fun a => unusedZero (wordB w) (.wgen d a)
  | _ => .error .undefinedFunction

/-- Major 0x2E, REMOTE. -/
def decodeRemote (w : IWord) : Decoded :=
  if w.extractLsb' 3 4 = 2 then (fieldS (wordD w)).bind fun d => (fieldW (wordA w)).bind fun a => (fieldS (wordB w)).bind fun b => if ramoForm d (w.extractLsb' 0 3) then .ok (.ramo d a b (w.extractLsb' 0 3)) else .error .fieldRange
  else
  match (wordF w).toNat with
  | 0x00 => (fieldS (wordD w)).bind fun d => (fieldW (wordA w)).bind fun a => (fieldS (wordB w)).bind fun b => .ok (.send d a b)
  | 0x01 => (fieldW (wordA w)).bind fun a => (fieldS (wordB w)).bind fun b => .ok (.sendv (fieldV (wordD w)) a b)
  | 0x02 => (fieldS (wordD w)).bind fun d => (fieldS (wordA w)).bind fun a => unusedZero (wordB w) (.recv d a)
  | 0x03 => (fieldS (wordD w)).bind fun d => (fieldW (wordA w)).bind fun a => (fieldS (wordB w)).bind fun b => .ok (.rld d a b)
  | 0x04 => (fieldS (wordD w)).bind fun d => (fieldW (wordA w)).bind fun a => (fieldS (wordB w)).bind fun b => .ok (.rst d a b)
  | 0x05 => (fieldS (wordD w)).bind fun d => (fieldW (wordA w)).bind fun a => (fieldS (wordB w)).bind fun b => .ok (.rstf d a b)
  | 0x08 => (fieldW (wordA w)).bind fun a => (fieldS (wordB w)).bind fun b => .ok (.rldv (fieldV (wordD w)) a b)
  | 0x09 => (fieldW (wordA w)).bind fun a => (fieldS (wordB w)).bind fun b => .ok (.rstv (fieldV (wordD w)) a b)
  | _ => .error .undefinedFunction

/-- Major 0x2F, LEASE. -/
def decodeLease (w : IWord) : Decoded :=
  match (wordF w).toNat with
  | 0x00 => (fieldS (wordD w)).bind fun d => (fieldW (wordA w)).bind fun a => (fieldS (wordB w)).bind fun b => .ok (.wlease d a b)
  | 0x01 => (fieldS (wordD w)).bind fun d => (fieldS (wordA w)).bind fun a => unusedZero (wordB w) (.wrelease d a)
  | 0x02 => (fieldS (wordD w)).bind fun d => (fieldS (wordA w)).bind fun a => unusedZero (wordB w) (.wlstat d a)
  | _ => .error .undefinedFunction

/-- Major 0x30, GROUP. -/
def decodeGroup (w : IWord) : Decoded :=
  match (wordF w).toNat with
  | 0x00 => (fieldS (wordD w)).bind fun d => (fieldS (wordA w)).bind fun a => unusedZero (wordB w) (.gbar d a)
  | 0x01 => (fieldS (wordD w)).bind fun d => (fieldS (wordA w)).bind fun a => unusedZero (wordB w) (.garrive d a)
  | 0x02 => (fieldS (wordD w)).bind fun d => (fieldS (wordA w)).bind fun a => (fieldS (wordB w)).bind fun b => .ok (.gwait d a b)
  | 0x03 => (fieldS (wordD w)).bind fun d => (fieldS (wordA w)).bind fun a => (fieldS (wordB w)).bind fun b => .ok (.gred d a b)
  | 0x04 => (fieldS (wordD w)).bind fun d => (fieldS (wordA w)).bind fun a => (fieldS (wordB w)).bind fun b => .ok (.ginfo d a b)
  | _ => .error .undefinedFunction

/-- Major 0x31, SF. -/
def decodeSf (w : IWord) : Decoded :=
  match (wordF6 w).toNat with
  | 0x00 => noK w (unusedZero (wordB w) (.vexp2 (wordC w) (fieldV (wordD w)) (fieldV (wordA w))))
  | 0x01 => noK w (unusedZero (wordB w) (.vlog2 (wordC w) (fieldV (wordD w)) (fieldV (wordA w))))
  | 0x02 => noK w (unusedZero (wordB w) (.vrcp (wordC w) (fieldV (wordD w)) (fieldV (wordA w))))
  | 0x03 => noK w (unusedZero (wordB w) (.vrsqrt (wordC w) (fieldV (wordD w)) (fieldV (wordA w))))
  | 0x04 => noK w (unusedZero (wordB w) (.vsin (wordC w) (fieldV (wordD w)) (fieldV (wordA w))))
  | 0x05 => noK w (unusedZero (wordB w) (.vcos (wordC w) (fieldV (wordD w)) (fieldV (wordA w))))
  | 0x06 => noK w (unusedZero (wordB w) (.vtanh (wordC w) (fieldV (wordD w)) (fieldV (wordA w))))
  | 0x07 => noK w (unusedZero (wordB w) (.vsigm (wordC w) (fieldV (wordD w)) (fieldV (wordA w))))
  | _ => .error .undefinedFunction

/-- Major 0x32, MPLANE. -/
def decodeMplane (w : IWord) : Decoded :=
  match (wordF w).toNat with
  | 0x00 => (fieldS (wordA w)).bind fun a => unusedZero (wordD w ++ wordB w) (.mlds a)
  | 0x01 => (fieldS (wordA w)).bind fun a => unusedZero (wordD w ++ wordB w) (.mldss a)
  | 0x02 => unusedZero (wordD w ++ wordA w ++ wordB w) .mswap
  | _ => .error .undefinedFunction

/-- Major 0x33, CSR. -/
def decodeCsr (w : IWord) : Decoded :=
  match (w.extractLsb' 11 2).toNat with
  | 0 => (fieldS (wordD w)).bind fun d => if wordA w = 0 then if csrListed (w.extractLsb' 0 11) then .ok (.csrr d (w.extractLsb' 0 11)) else .error .csrNumber else .error .unusedField
  | 1 => (fieldS (wordD w)).bind fun d => (fieldS (wordA w)).bind fun a => if csrListed (w.extractLsb' 0 11) then .ok (.csrw d a (w.extractLsb' 0 11)) else .error .csrNumber
  | 2 => (fieldS (wordD w)).bind fun d => (fieldS (wordA w)).bind fun a => if csrListed (w.extractLsb' 0 11) then .ok (.csrs d a (w.extractLsb' 0 11)) else .error .csrNumber
  | 3 => (fieldS (wordD w)).bind fun d => (fieldS (wordA w)).bind fun a => if csrListed (w.extractLsb' 0 11) then .ok (.csrc d a (w.extractLsb' 0 11)) else .error .csrNumber
  | _ => .error .undefinedFunction

/-- Decoding of a word (R101 to R106): tests 2 to 9 in their order, total on every word. -/
def decode (w : IWord) : Decoded :=
  if wordC w && !convoyMajor (wordMajor w) then .error .convoyBit
  else
    match (wordMajor w).toNat with
    | 0x00 => decodeSys w
    | 0x01 => decodeAlu w
    | 0x02 => (fieldS (wordD w)).bind fun d => (fieldS (wordA w)).bind fun a => .ok (.addi d a (wordI13 w))
    | 0x03 => (fieldS (wordD w)).bind fun d => (fieldS (wordA w)).bind fun a => .ok (.andi d a (wordI13 w))
    | 0x04 => (fieldS (wordD w)).bind fun d => (fieldS (wordA w)).bind fun a => .ok (.ori d a (wordI13 w))
    | 0x05 => (fieldS (wordD w)).bind fun d => (fieldS (wordA w)).bind fun a => .ok (.xori d a (wordI13 w))
    | 0x06 => (fieldS (wordD w)).bind fun d => (fieldS (wordA w)).bind fun a => .ok (.slti d a (wordI13 w))
    | 0x07 => (fieldS (wordD w)).bind fun d => (fieldS (wordA w)).bind fun a => .ok (.sltiu d a (wordI13 w))
    | 0x08 => decodeShi w
    | 0x09 => (fieldS (wordD w)).bind fun d => .ok (.lui d (wordI19 w))
    | 0x0A => (fieldS (wordD w)).bind fun d => .ok (.addpc d (wordI19 w))
    | 0x0B => (fieldS (wordD w)).bind fun d => (fieldS (wordA w)).bind fun a => .ok (.ldb d a (wordI13 w))
    | 0x0C => (fieldS (wordD w)).bind fun d => (fieldS (wordA w)).bind fun a => .ok (.ldbu d a (wordI13 w))
    | 0x0D => (fieldS (wordD w)).bind fun d => (fieldS (wordA w)).bind fun a => .ok (.ldh d a (wordI13 w))
    | 0x0E => (fieldS (wordD w)).bind fun d => (fieldS (wordA w)).bind fun a => .ok (.ldhu d a (wordI13 w))
    | 0x0F => (fieldS (wordD w)).bind fun d => (fieldS (wordA w)).bind fun a => .ok (.ldw d a (wordI13 w))
    | 0x10 => (fieldS (wordD w)).bind fun d => (fieldS (wordA w)).bind fun a => .ok (.ldwu d a (wordI13 w))
    | 0x11 => (fieldS (wordD w)).bind fun d => (fieldS (wordA w)).bind fun a => .ok (.ldd d a (wordI13 w))
    | 0x12 => (fieldS (wordD w)).bind fun b => (fieldS (wordA w)).bind fun a => .ok (.stb b a (wordI13 w))
    | 0x13 => (fieldS (wordD w)).bind fun b => (fieldS (wordA w)).bind fun a => .ok (.sth b a (wordI13 w))
    | 0x14 => (fieldS (wordD w)).bind fun b => (fieldS (wordA w)).bind fun a => .ok (.stw b a (wordI13 w))
    | 0x15 => (fieldS (wordD w)).bind fun b => (fieldS (wordA w)).bind fun a => .ok (.std b a (wordI13 w))
    | 0x16 => (fieldS (wordD w)).bind fun b => (fieldS (wordA w)).bind fun a => .ok (.beq b a (wordI13 w))
    | 0x17 => (fieldS (wordD w)).bind fun b => (fieldS (wordA w)).bind fun a => .ok (.bne b a (wordI13 w))
    | 0x18 => (fieldS (wordD w)).bind fun b => (fieldS (wordA w)).bind fun a => .ok (.blt b a (wordI13 w))
    | 0x19 => (fieldS (wordD w)).bind fun b => (fieldS (wordA w)).bind fun a => .ok (.bge b a (wordI13 w))
    | 0x1A => (fieldS (wordD w)).bind fun b => (fieldS (wordA w)).bind fun a => .ok (.bltu b a (wordI13 w))
    | 0x1B => (fieldS (wordD w)).bind fun b => (fieldS (wordA w)).bind fun a => .ok (.bgeu b a (wordI13 w))
    | 0x1C => (fieldS (wordD w)).bind fun d => .ok (.jal d (wordI19 w))
    | 0x1D => (fieldS (wordD w)).bind fun d => (fieldS (wordA w)).bind fun a => .ok (.jalr d a (wordI13 w))
    | 0x1E => decodeLoop w
    | 0x1F => decodeAtom w
    | 0x20 => decodeSync w
    | 0x21 => decodeTask w
    | 0x22 => decodeFe w
    | 0x23 => decodeVset w
    | 0x24 => decodeVint w
    | 0x25 => decodeVflt w
    | 0x26 => decodeVperm w
    | 0x27 => decodeVcmp w
    | 0x28 => decodeMask w
    | 0x29 => decodeVmem w
    | 0x2A => decodeMtx w
    | 0x2B => decodeRing w
    | 0x2C => decodeCpy w
    | 0x2D => decodeRoute w
    | 0x2E => decodeRemote w
    | 0x2F => decodeLease w
    | 0x30 => decodeGroup w
    | 0x31 => decodeSf w
    | 0x32 => decodeMplane w
    | 0x33 => decodeCsr w
    | _ => .error .reservedMajor

/-! ### Encoding (R103, R104) -/

/-- A register number in a 6-bit field. -/
def encReg {n : Nat} (r : Fin n) : BitVec 6 := BitVec.ofNat 6 r.val
/-- The K bit and field B of a second source (R105). -/
def encK : VSrc → Bool
  | .v _ => false
  | .s _ => true
/-- Field B of a second source. -/
def encB : VSrc → BitVec 6
  | .v r => encReg r
  | .s r => encReg r
/-- The major opcode and what stands below it (R103: the word is the major shifted by 25 plus the format's fields). -/
def packMajor (m : BitVec 6) (low : Nat) : IWord := BitVec.ofNat 32 (m.toNat * 2 ^ 25 + low)
/-- Format R (R103). -/
def packR (m d a b : BitVec 6) (f : BitVec 7) : IWord :=
  packMajor m (d.toNat * 2 ^ 19 + a.toNat * 2 ^ 13 + b.toNat * 2 ^ 7 + f.toNat)
/-- Format R of a vector major: C, K and F[5:0] apart. -/
def packV (c : Bool) (m d a b : BitVec 6) (k : Bool) (f : BitVec 6) : IWord :=
  BitVec.ofNat 32 (c.toNat * 2 ^ 31 + m.toNat * 2 ^ 25 + d.toNat * 2 ^ 19 + a.toNat * 2 ^ 13 + b.toNat * 2 ^ 7 +
    k.toNat * 2 ^ 6 + f.toNat)
/-- Formats I and S. -/
def packI (m d a : BitVec 6) (i : BitVec 13) : IWord := packMajor m (d.toNat * 2 ^ 19 + a.toNat * 2 ^ 13 + i.toNat)
/-- Format I, SHI variant. -/
def packShi (d a : BitVec 6) (kind : BitVec 2) (sh : BitVec 6) : IWord :=
  packMajor 0x08 (d.toNat * 2 ^ 19 + a.toNat * 2 ^ 13 + kind.toNat * 2 ^ 11 + sh.toNat)
/-- Format I, CSR variant. -/
def packCsr (d a : BitVec 6) (op : BitVec 2) (n : BitVec 11) : IWord :=
  packMajor 0x33 (d.toNat * 2 ^ 19 + a.toNat * 2 ^ 13 + op.toNat * 2 ^ 11 + n.toNat)
/-- Formats U and J. -/
def packU (m d : BitVec 6) (i : BitVec 19) : IWord := packMajor m (d.toNat * 2 ^ 19 + i.toNat)
/-- Format L. -/
def packL (level : Fin 6) (len : BitVec 5) (immc : Bool) (rest : BitVec 16) : IWord :=
  packMajor 0x1E (level.val * 2 ^ 22 + len.toNat * 2 ^ 17 + immc.toNat * 2 ^ 16 + rest.toNat)
/-- Format M. -/
def packM (d a b : BitVec 6) (rep : BitVec 4) (f : BitVec 3) : IWord :=
  packMajor 0x2A (d.toNat * 2 ^ 19 + a.toNat * 2 ^ 13 + b.toNat * 2 ^ 7 + rep.toNat * 2 ^ 3 + f.toNat)
/-- Format VSET. -/
def packVset (d a : BitVec 6) (rnd : Fin 5) (vfmt : Fin 3) (space : Fin 5) (scope : Fin 7) (sew : Fin 3) : IWord :=
  packMajor 0x23 (d.toNat * 2 ^ 19 + a.toNat * 2 ^ 13 + rnd.val * 2 ^ 10 + vfmt.val * 2 ^ 8 + space.val * 2 ^ 5 +
    scope.val * 2 ^ 2 + sew.val)

/-- The word of an instruction; a step without an encoding has none. -/
def encode : Instr → Option IWord
  | .ecall => some (packR 0x00#6 0#6 0#6 0#6 0x01#7)
  | .brk => some (packR 0x00#6 0#6 0#6 0#6 0x02#7)
  | .eret => some (packR 0x00#6 0#6 0#6 0#6 0x03#7)
  | .uiret => some (packR 0x00#6 0#6 0#6 0#6 0x04#7)
  | .wfi => some (packR 0x00#6 0#6 0#6 0#6 0x05#7)
  | .halt => some (packR 0x00#6 0#6 0#6 0#6 0x06#7)
  | .trap a => some (packR 0x00#6 0#6 (encReg a) 0#6 0x07#7)
  | .slotw a b => some (packR 0x00#6 0#6 (encReg a) (encReg b) 0x08#7)
  | .add d a b => some (packR 0x01#6 (encReg d) (encReg a) (encReg b) 0x00#7)
  | .sub d a b => some (packR 0x01#6 (encReg d) (encReg a) (encReg b) 0x01#7)
  | .and d a b => some (packR 0x01#6 (encReg d) (encReg a) (encReg b) 0x02#7)
  | .or d a b => some (packR 0x01#6 (encReg d) (encReg a) (encReg b) 0x03#7)
  | .xor d a b => some (packR 0x01#6 (encReg d) (encReg a) (encReg b) 0x04#7)
  | .sll d a b => some (packR 0x01#6 (encReg d) (encReg a) (encReg b) 0x05#7)
  | .srl d a b => some (packR 0x01#6 (encReg d) (encReg a) (encReg b) 0x06#7)
  | .sra d a b => some (packR 0x01#6 (encReg d) (encReg a) (encReg b) 0x07#7)
  | .slt d a b => some (packR 0x01#6 (encReg d) (encReg a) (encReg b) 0x08#7)
  | .sltu d a b => some (packR 0x01#6 (encReg d) (encReg a) (encReg b) 0x09#7)
  | .mul d a b => some (packR 0x01#6 (encReg d) (encReg a) (encReg b) 0x0A#7)
  | .mulh d a b => some (packR 0x01#6 (encReg d) (encReg a) (encReg b) 0x0B#7)
  | .mulhu d a b => some (packR 0x01#6 (encReg d) (encReg a) (encReg b) 0x0C#7)
  | .div d a b => some (packR 0x01#6 (encReg d) (encReg a) (encReg b) 0x0D#7)
  | .divu d a b => some (packR 0x01#6 (encReg d) (encReg a) (encReg b) 0x0E#7)
  | .rem d a b => some (packR 0x01#6 (encReg d) (encReg a) (encReg b) 0x0F#7)
  | .remu d a b => some (packR 0x01#6 (encReg d) (encReg a) (encReg b) 0x10#7)
  | .min d a b => some (packR 0x01#6 (encReg d) (encReg a) (encReg b) 0x11#7)
  | .max d a b => some (packR 0x01#6 (encReg d) (encReg a) (encReg b) 0x12#7)
  | .minu d a b => some (packR 0x01#6 (encReg d) (encReg a) (encReg b) 0x13#7)
  | .maxu d a b => some (packR 0x01#6 (encReg d) (encReg a) (encReg b) 0x14#7)
  | .clz d a => some (packR 0x01#6 (encReg d) (encReg a) 0#6 0x15#7)
  | .ctz d a => some (packR 0x01#6 (encReg d) (encReg a) 0#6 0x16#7)
  | .popc d a => some (packR 0x01#6 (encReg d) (encReg a) 0#6 0x17#7)
  | .addi d a imm => some (packI 0x02#6 (encReg d) (encReg a) imm)
  | .andi d a imm => some (packI 0x03#6 (encReg d) (encReg a) imm)
  | .ori d a imm => some (packI 0x04#6 (encReg d) (encReg a) imm)
  | .xori d a imm => some (packI 0x05#6 (encReg d) (encReg a) imm)
  | .slti d a imm => some (packI 0x06#6 (encReg d) (encReg a) imm)
  | .sltiu d a imm => some (packI 0x07#6 (encReg d) (encReg a) imm)
  | .slli d a sh => some (packShi (encReg d) (encReg a) 0#2 sh)
  | .srli d a sh => some (packShi (encReg d) (encReg a) 1#2 sh)
  | .srai d a sh => some (packShi (encReg d) (encReg a) 2#2 sh)
  | .lui d imm => some (packU 0x09#6 (encReg d) imm)
  | .addpc d imm => some (packU 0x0A#6 (encReg d) imm)
  | .ldb d a imm => some (packI 0x0B#6 (encReg d) (encReg a) imm)
  | .ldbu d a imm => some (packI 0x0C#6 (encReg d) (encReg a) imm)
  | .ldh d a imm => some (packI 0x0D#6 (encReg d) (encReg a) imm)
  | .ldhu d a imm => some (packI 0x0E#6 (encReg d) (encReg a) imm)
  | .ldw d a imm => some (packI 0x0F#6 (encReg d) (encReg a) imm)
  | .ldwu d a imm => some (packI 0x10#6 (encReg d) (encReg a) imm)
  | .ldd d a imm => some (packI 0x11#6 (encReg d) (encReg a) imm)
  | .stb b a imm => some (packI 0x12#6 (encReg b) (encReg a) imm)
  | .sth b a imm => some (packI 0x13#6 (encReg b) (encReg a) imm)
  | .stw b a imm => some (packI 0x14#6 (encReg b) (encReg a) imm)
  | .std b a imm => some (packI 0x15#6 (encReg b) (encReg a) imm)
  | .beq b a imm => some (packI 0x16#6 (encReg b) (encReg a) imm)
  | .bne b a imm => some (packI 0x17#6 (encReg b) (encReg a) imm)
  | .blt b a imm => some (packI 0x18#6 (encReg b) (encReg a) imm)
  | .bge b a imm => some (packI 0x19#6 (encReg b) (encReg a) imm)
  | .bltu b a imm => some (packI 0x1A#6 (encReg b) (encReg a) imm)
  | .bgeu b a imm => some (packI 0x1B#6 (encReg b) (encReg a) imm)
  | .jal d imm => some (packU 0x1C#6 (encReg d) imm)
  | .jalr d a imm => some (packI 0x1D#6 (encReg d) (encReg a) imm)
  | .loopi level len count => some (packL level len true count)
  | .loop level len a => some (packL level len false (BitVec.ofNat 16 (a.val * 2 ^ 10)))
  | .amoadd d a b wide => some (packR 0x1F#6 (encReg d) (encReg a) (encReg b) (BitVec.ofNat 7 (wide.toNat * 2 ^ 5 + 0)))
  | .amoswap d a b wide => some (packR 0x1F#6 (encReg d) (encReg a) (encReg b) (BitVec.ofNat 7 (wide.toNat * 2 ^ 5 + 1)))
  | .amocas d a b wide => some (packR 0x1F#6 (encReg d) (encReg a) (encReg b) (BitVec.ofNat 7 (wide.toNat * 2 ^ 5 + 2)))
  | .amomin d a b wide => some (packR 0x1F#6 (encReg d) (encReg a) (encReg b) (BitVec.ofNat 7 (wide.toNat * 2 ^ 5 + 3)))
  | .amomax d a b wide => some (packR 0x1F#6 (encReg d) (encReg a) (encReg b) (BitVec.ofNat 7 (wide.toNat * 2 ^ 5 + 4)))
  | .amominu d a b wide => some (packR 0x1F#6 (encReg d) (encReg a) (encReg b) (BitVec.ofNat 7 (wide.toNat * 2 ^ 5 + 5)))
  | .amomaxu d a b wide => some (packR 0x1F#6 (encReg d) (encReg a) (encReg b) (BitVec.ofNat 7 (wide.toNat * 2 ^ 5 + 6)))
  | .amoand d a b wide => some (packR 0x1F#6 (encReg d) (encReg a) (encReg b) (BitVec.ofNat 7 (wide.toNat * 2 ^ 5 + 7)))
  | .amoor d a b wide => some (packR 0x1F#6 (encReg d) (encReg a) (encReg b) (BitVec.ofNat 7 (wide.toNat * 2 ^ 5 + 8)))
  | .amoxor d a b wide => some (packR 0x1F#6 (encReg d) (encReg a) (encReg b) (BitVec.ofNat 7 (wide.toNat * 2 ^ 5 + 9)))
  | .fence scope => some (packR 0x20#6 0#6 0#6 (encReg scope) 0#7)
  | .fenceacq scope => some (packR 0x20#6 0#6 0#6 (encReg scope) 1#7)
  | .fencerel scope => some (packR 0x20#6 0#6 0#6 (encReg scope) 2#7)
  | .fenceeng scope => some (packR 0x20#6 0#6 0#6 (encReg scope) 3#7)
  | .wfev scope => some (packR 0x20#6 0#6 0#6 (encReg scope) 4#7)
  | .take d => some (packR 0x21#6 (encReg d) 0#6 0#6 0x00#7)
  | .post d a => some (packR 0x21#6 (encReg d) (encReg a) 0#6 0x01#7)
  | .postw a b => some (packR 0x21#6 0#6 (encReg a) (encReg b) 0x02#7)
  | .retire a => some (packR 0x21#6 0#6 (encReg a) 0#6 0x03#7)
  | .yield => some (packR 0x21#6 0#6 0#6 0#6 0x04#7)
  | .sleep => some (packR 0x21#6 0#6 0#6 0#6 0x05#7)
  | .wake a => some (packR 0x21#6 0#6 (encReg a) 0#6 0x06#7)
  | .signal d a => some (packR 0x21#6 (encReg d) (encReg a) 0#6 0x07#7)
  | .recoat a b => some (packR 0x21#6 0#6 (encReg a) (encReg b) 0x08#7)
  | .ldfull d a => some (packR 0x22#6 (encReg d) (encReg a) 0#6 0x00#7)
  | .ldfullk d a => some (packR 0x22#6 (encReg d) (encReg a) 0#6 0x01#7)
  | .stfull d a => some (packR 0x22#6 (encReg d) (encReg a) 0#6 0x02#7)
  | .stfill d a => some (packR 0x22#6 (encReg d) (encReg a) 0#6 0x03#7)
  | .feclr a => some (packR 0x22#6 0#6 (encReg a) 0#6 0x04#7)
  | .setvl d a rnd vfmt space scope sew => some (packVset (encReg d) (encReg a) rnd vfmt space scope sew)
  | .vadd c d a b => some (packV c 0x24#6 (encReg d) (encReg a) (encB b) (encK b) 0x00#6)
  | .vsub c d a b => some (packV c 0x24#6 (encReg d) (encReg a) (encB b) (encK b) 0x01#6)
  | .vrsub c d a b => some (packV c 0x24#6 (encReg d) (encReg a) (encB b) (encK b) 0x02#6)
  | .vmul c d a b => some (packV c 0x24#6 (encReg d) (encReg a) (encB b) (encK b) 0x03#6)
  | .vmulh c d a b => some (packV c 0x24#6 (encReg d) (encReg a) (encB b) (encK b) 0x04#6)
  | .vmulhu c d a b => some (packV c 0x24#6 (encReg d) (encReg a) (encB b) (encK b) 0x05#6)
  | .vmadd c d a b => some (packV c 0x24#6 (encReg d) (encReg a) (encB b) (encK b) 0x06#6)
  | .vmsub c d a b => some (packV c 0x24#6 (encReg d) (encReg a) (encB b) (encK b) 0x07#6)
  | .vdiv c d a b => some (packV c 0x24#6 (encReg d) (encReg a) (encB b) (encK b) 0x08#6)
  | .vdivu c d a b => some (packV c 0x24#6 (encReg d) (encReg a) (encB b) (encK b) 0x09#6)
  | .vrem c d a b => some (packV c 0x24#6 (encReg d) (encReg a) (encB b) (encK b) 0x0A#6)
  | .vremu c d a b => some (packV c 0x24#6 (encReg d) (encReg a) (encB b) (encK b) 0x0B#6)
  | .vmin c d a b => some (packV c 0x24#6 (encReg d) (encReg a) (encB b) (encK b) 0x0C#6)
  | .vmax c d a b => some (packV c 0x24#6 (encReg d) (encReg a) (encB b) (encK b) 0x0D#6)
  | .vminu c d a b => some (packV c 0x24#6 (encReg d) (encReg a) (encB b) (encK b) 0x0E#6)
  | .vmaxu c d a b => some (packV c 0x24#6 (encReg d) (encReg a) (encB b) (encK b) 0x0F#6)
  | .vand c d a b => some (packV c 0x24#6 (encReg d) (encReg a) (encB b) (encK b) 0x10#6)
  | .vor c d a b => some (packV c 0x24#6 (encReg d) (encReg a) (encB b) (encK b) 0x11#6)
  | .vxor c d a b => some (packV c 0x24#6 (encReg d) (encReg a) (encB b) (encK b) 0x12#6)
  | .vsll c d a b => some (packV c 0x24#6 (encReg d) (encReg a) (encB b) (encK b) 0x13#6)
  | .vsrl c d a b => some (packV c 0x24#6 (encReg d) (encReg a) (encB b) (encK b) 0x14#6)
  | .vsra c d a b => some (packV c 0x24#6 (encReg d) (encReg a) (encB b) (encK b) 0x15#6)
  | .vsadd c d a b => some (packV c 0x24#6 (encReg d) (encReg a) (encB b) (encK b) 0x16#6)
  | .vsaddu c d a b => some (packV c 0x24#6 (encReg d) (encReg a) (encB b) (encK b) 0x17#6)
  | .vssub c d a b => some (packV c 0x24#6 (encReg d) (encReg a) (encB b) (encK b) 0x18#6)
  | .vssubu c d a b => some (packV c 0x24#6 (encReg d) (encReg a) (encB b) (encK b) 0x19#6)
  | .vmerge c d a b => some (packV c 0x24#6 (encReg d) (encReg a) (encB b) (encK b) 0x1A#6)
  | .vmv c d b => some (packV c 0x24#6 (encReg d) 0#6 (encB b) (encK b) 0x1B#6)
  | .vabs c d a => some (packV c 0x24#6 (encReg d) (encReg a) 0#6 false 0x1C#6)
  | .vclz c d a => some (packV c 0x24#6 (encReg d) (encReg a) 0#6 false 0x1D#6)
  | .vpopc c d a => some (packV c 0x24#6 (encReg d) (encReg a) 0#6 false 0x1E#6)
  | .vfadd c d a b => some (packV c 0x25#6 (encReg d) (encReg a) (encB b) (encK b) 0x00#6)
  | .vfsub c d a b => some (packV c 0x25#6 (encReg d) (encReg a) (encB b) (encK b) 0x01#6)
  | .vfmul c d a b => some (packV c 0x25#6 (encReg d) (encReg a) (encB b) (encK b) 0x02#6)
  | .vfma c d a b => some (packV c 0x25#6 (encReg d) (encReg a) (encB b) (encK b) 0x03#6)
  | .vfms c d a b => some (packV c 0x25#6 (encReg d) (encReg a) (encB b) (encK b) 0x04#6)
  | .vfnma c d a b => some (packV c 0x25#6 (encReg d) (encReg a) (encB b) (encK b) 0x05#6)
  | .vfdiv c d a b => some (packV c 0x25#6 (encReg d) (encReg a) (encB b) (encK b) 0x06#6)
  | .vfsqrt c d a => some (packV c 0x25#6 (encReg d) (encReg a) 0#6 false 0x07#6)
  | .vfmin c d a b => some (packV c 0x25#6 (encReg d) (encReg a) (encB b) (encK b) 0x08#6)
  | .vfmax c d a b => some (packV c 0x25#6 (encReg d) (encReg a) (encB b) (encK b) 0x09#6)
  | .vfabs c d a => some (packV c 0x25#6 (encReg d) (encReg a) 0#6 false 0x0A#6)
  | .vfneg c d a => some (packV c 0x25#6 (encReg d) (encReg a) 0#6 false 0x0B#6)
  | .vfcvt c d a f => some (packV c 0x25#6 (encReg d) (encReg a) (encReg f) false 0x0C#6)
  | .vfcvti c d a => some (packV c 0x25#6 (encReg d) (encReg a) 0#6 false 0x0D#6)
  | .vicvtf c d a => some (packV c 0x25#6 (encReg d) (encReg a) 0#6 false 0x0E#6)
  | .vfclass c d a => some (packV c 0x25#6 (encReg d) (encReg a) 0#6 false 0x0F#6)
  | .vxchg c d a k => some (packV c 0x26#6 (encReg d) (encReg a) (encReg k) false 0x00#6)
  | .vslideup c d a b => some (packV c 0x26#6 (encReg d) (encReg a) (encReg b) true 0x01#6)
  | .vslidedn c d a b => some (packV c 0x26#6 (encReg d) (encReg a) (encReg b) true 0x02#6)
  | .vslide1up c d a b => some (packV c 0x26#6 (encReg d) (encReg a) (encReg b) true 0x03#6)
  | .vslide1dn c d a b => some (packV c 0x26#6 (encReg d) (encReg a) (encReg b) true 0x04#6)
  | .vgather c d a b => some (packV c 0x26#6 (encReg d) (encReg a) (encB b) (encK b) 0x05#6)
  | .vcompress c d a => some (packV c 0x26#6 (encReg d) (encReg a) 0#6 false 0x06#6)
  | .vextr c d a b => some (packV c 0x26#6 (encReg d) (encReg a) (encReg b) true 0x07#6)
  | .vinsr c d a b => some (packV c 0x26#6 (encReg d) (encReg a) (encReg b) true 0x08#6)
  | .viota c d => some (packV c 0x26#6 (encReg d) 0#6 0#6 false 0x09#6)
  | .vredsum c d a b => some (packV c 0x26#6 (encReg d) (encReg a) (encB b) (encK b) 0x0A#6)
  | .vredmin c d a b => some (packV c 0x26#6 (encReg d) (encReg a) (encB b) (encK b) 0x0B#6)
  | .vredmax c d a b => some (packV c 0x26#6 (encReg d) (encReg a) (encB b) (encK b) 0x0C#6)
  | .vredminu c d a b => some (packV c 0x26#6 (encReg d) (encReg a) (encB b) (encK b) 0x0D#6)
  | .vredmaxu c d a b => some (packV c 0x26#6 (encReg d) (encReg a) (encB b) (encK b) 0x0E#6)
  | .vredand c d a b => some (packV c 0x26#6 (encReg d) (encReg a) (encB b) (encK b) 0x0F#6)
  | .vredor c d a b => some (packV c 0x26#6 (encReg d) (encReg a) (encB b) (encK b) 0x10#6)
  | .vredxor c d a b => some (packV c 0x26#6 (encReg d) (encReg a) (encB b) (encK b) 0x11#6)
  | .vfredsum c d a b => some (packV c 0x26#6 (encReg d) (encReg a) (encB b) (encK b) 0x12#6)
  | .vscan c d a => some (packV c 0x26#6 (encReg d) (encReg a) 0#6 false 0x13#6)
  | .vceq c d a b => some (packV c 0x27#6 (encReg d) (encReg a) (encB b) (encK b) 0x00#6)
  | .vcne c d a b => some (packV c 0x27#6 (encReg d) (encReg a) (encB b) (encK b) 0x01#6)
  | .vclt c d a b => some (packV c 0x27#6 (encReg d) (encReg a) (encB b) (encK b) 0x02#6)
  | .vcltu c d a b => some (packV c 0x27#6 (encReg d) (encReg a) (encB b) (encK b) 0x03#6)
  | .vcle c d a b => some (packV c 0x27#6 (encReg d) (encReg a) (encB b) (encK b) 0x04#6)
  | .vcleu c d a b => some (packV c 0x27#6 (encReg d) (encReg a) (encB b) (encK b) 0x05#6)
  | .vcgt c d a b => some (packV c 0x27#6 (encReg d) (encReg a) (encB b) (encK b) 0x06#6)
  | .vcgtu c d a b => some (packV c 0x27#6 (encReg d) (encReg a) (encB b) (encK b) 0x07#6)
  | .vfceq c d a b => some (packV c 0x27#6 (encReg d) (encReg a) (encB b) (encK b) 0x08#6)
  | .vfclt c d a b => some (packV c 0x27#6 (encReg d) (encReg a) (encB b) (encK b) 0x09#6)
  | .vfcle c d a b => some (packV c 0x27#6 (encReg d) (encReg a) (encB b) (encK b) 0x0A#6)
  | .vfcun c d a b => some (packV c 0x27#6 (encReg d) (encReg a) (encB b) (encK b) 0x0B#6)
  | .mand c d a b => some (packV c 0x28#6 (encReg d) (encReg a) (encReg b) false 0x00#6)
  | .mor c d a b => some (packV c 0x28#6 (encReg d) (encReg a) (encReg b) false 0x01#6)
  | .mxor c d a b => some (packV c 0x28#6 (encReg d) (encReg a) (encReg b) false 0x02#6)
  | .mandn c d a b => some (packV c 0x28#6 (encReg d) (encReg a) (encReg b) false 0x03#6)
  | .mnot c d a => some (packV c 0x28#6 (encReg d) (encReg a) 0#6 false 0x04#6)
  | .mpopc c d a => some (packV c 0x28#6 (encReg d) (encReg a) 0#6 false 0x05#6)
  | .mfirst c d a => some (packV c 0x28#6 (encReg d) (encReg a) 0#6 false 0x06#6)
  | .mskft c d a => some (packV c 0x28#6 (encReg d) (encReg a) 0#6 false 0x07#6)
  | .mskbf c d a => some (packV c 0x28#6 (encReg d) (encReg a) 0#6 false 0x08#6)
  | .mfromv c d a => some (packV c 0x28#6 (encReg d) (encReg a) 0#6 false 0x09#6)
  | .mtov c d a => some (packV c 0x28#6 (encReg d) (encReg a) 0#6 false 0x0A#6)
  | .vld c d a => some (packV c 0x29#6 (encReg d) (encReg a) 0#6 false 0x00#6)
  | .vldff c d a => some (packV c 0x29#6 (encReg d) (encReg a) 0#6 false 0x01#6)
  | .vldx c d a b => some (packV c 0x29#6 (encReg d) (encReg a) (encReg b) false 0x02#6)
  | .vst c d a => some (packV c 0x29#6 (encReg d) (encReg a) 0#6 false 0x03#6)
  | .vstx c d a b => some (packV c 0x29#6 (encReg d) (encReg a) (encReg b) false 0x04#6)
  | .vldq c d a => some (packV c 0x29#6 (encReg d) (encReg a) 0#6 false 0x05#6)
  | .vstq c d a => some (packV c 0x29#6 (encReg d) (encReg a) 0#6 false 0x06#6)
  | .vldbc c d a => some (packV c 0x29#6 (encReg d) (encReg a) 0#6 false 0x07#6)
  | .mma d a b rep => some (packM (encReg d) (encReg a) (encReg b) rep 0#3)
  | .mopa d a b rep => some (packM (encReg d) (encReg a) (encReg b) rep 1#3)
  | .mslide d a b rep => some (packM (encReg d) (encReg a) (encReg b) rep 2#3)
  | .mrdc d a rep => some (packM (encReg d) (encReg a) 0#6 rep 3#3)
  | .mzero d rep => some (packM (encReg d) 0#6 0#6 rep 4#3)
  | .mdrain d rep => some (packM (encReg d) 0#6 0#6 rep 5#3)
  | .ringcfg a b => some (packR 0x2B#6 0#6 (encReg a) (encReg b) 0x00#7)
  | .rwaitf d a b => some (packR 0x2B#6 (encReg d) (encReg a) (encReg b) 0x01#7)
  | .rwaite d a b => some (packR 0x2B#6 (encReg d) (encReg a) (encReg b) 0x02#7)
  | .radvh d a b => some (packR 0x2B#6 (encReg d) (encReg a) (encReg b) 0x03#7)
  | .radvt d a b => some (packR 0x2B#6 (encReg d) (encReg a) (encReg b) 0x04#7)
  | .rstat d a => some (packR 0x2B#6 (encReg d) (encReg a) 0#6 0x05#7)
  | .cpy d a => some (packR 0x2C#6 (encReg d) (encReg a) 0#6 0x00#7)
  | .cpywait d a => some (packR 0x2C#6 (encReg d) (encReg a) 0#6 0x01#7)
  | .cpystat d a => some (packR 0x2C#6 (encReg d) (encReg a) 0#6 0x02#7)
  | .cpycan d a => some (packR 0x2C#6 (encReg d) (encReg a) 0#6 0x03#7)
  | .wld d a => some (packR 0x2D#6 (encReg d) (encReg a) 0#6 0x00#7)
  | .wst d a => some (packR 0x2D#6 (encReg d) (encReg a) 0#6 0x01#7)
  | .wnarrow d a b => some (packR 0x2D#6 (encReg d) (encReg a) (encReg b) 0x02#7)
  | .wdlg d a b => some (packR 0x2D#6 (encReg d) (encReg a) (encReg b) 0x03#7)
  | .wstripe d a => some (packR 0x2D#6 (encReg d) (encReg a) 0#6 0x04#7)
  | .wclr d => some (packR 0x2D#6 (encReg d) 0#6 0#6 0x05#7)
  | .winfo d a b => some (packR 0x2D#6 (encReg d) (encReg a) (encReg b) 0x06#7)
  | .wmint d a => some (packR 0x2D#6 (encReg d) (encReg a) 0#6 0x07#7)
  | .wgen d a => some (packR 0x2D#6 (encReg d) (encReg a) 0#6 0x08#7)
  | .send d a b => some (packR 0x2E#6 (encReg d) (encReg a) (encReg b) 0x00#7)
  | .sendv d a b => some (packR 0x2E#6 (encReg d) (encReg a) (encReg b) 0x01#7)
  | .recv d a => some (packR 0x2E#6 (encReg d) (encReg a) 0#6 0x02#7)
  | .rld d a b => some (packR 0x2E#6 (encReg d) (encReg a) (encReg b) 0x03#7)
  | .rst d a b => some (packR 0x2E#6 (encReg d) (encReg a) (encReg b) 0x04#7)
  | .rstf d a b => some (packR 0x2E#6 (encReg d) (encReg a) (encReg b) 0x05#7)
  | .rldv d a b => some (packR 0x2E#6 (encReg d) (encReg a) (encReg b) 0x08#7)
  | .rstv d a b => some (packR 0x2E#6 (encReg d) (encReg a) (encReg b) 0x09#7)
  | .ramo d a b op => some (packR 0x2E#6 (encReg d) (encReg a) (encReg b) (BitVec.ofNat 7 (0x10 + op.toNat)))
  | .wlease d a b => some (packR 0x2F#6 (encReg d) (encReg a) (encReg b) 0x00#7)
  | .wrelease d a => some (packR 0x2F#6 (encReg d) (encReg a) 0#6 0x01#7)
  | .wlstat d a => some (packR 0x2F#6 (encReg d) (encReg a) 0#6 0x02#7)
  | .gbar d a => some (packR 0x30#6 (encReg d) (encReg a) 0#6 0x00#7)
  | .garrive d a => some (packR 0x30#6 (encReg d) (encReg a) 0#6 0x01#7)
  | .gwait d a b => some (packR 0x30#6 (encReg d) (encReg a) (encReg b) 0x02#7)
  | .gred d a b => some (packR 0x30#6 (encReg d) (encReg a) (encReg b) 0x03#7)
  | .ginfo d a b => some (packR 0x30#6 (encReg d) (encReg a) (encReg b) 0x04#7)
  | .vexp2 c d a => some (packV c 0x31#6 (encReg d) (encReg a) 0#6 false 0x00#6)
  | .vlog2 c d a => some (packV c 0x31#6 (encReg d) (encReg a) 0#6 false 0x01#6)
  | .vrcp c d a => some (packV c 0x31#6 (encReg d) (encReg a) 0#6 false 0x02#6)
  | .vrsqrt c d a => some (packV c 0x31#6 (encReg d) (encReg a) 0#6 false 0x03#6)
  | .vsin c d a => some (packV c 0x31#6 (encReg d) (encReg a) 0#6 false 0x04#6)
  | .vcos c d a => some (packV c 0x31#6 (encReg d) (encReg a) 0#6 false 0x05#6)
  | .vtanh c d a => some (packV c 0x31#6 (encReg d) (encReg a) 0#6 false 0x06#6)
  | .vsigm c d a => some (packV c 0x31#6 (encReg d) (encReg a) 0#6 false 0x07#6)
  | .mlds a => some (packR 0x32#6 0#6 (encReg a) 0#6 0x00#7)
  | .mldss a => some (packR 0x32#6 0#6 (encReg a) 0#6 0x01#7)
  | .mswap => some (packR 0x32#6 0#6 0#6 0#6 0x02#7)
  | .csrr d n => some (packCsr (encReg d) 0#6 0#2 n)
  | .csrw d a n => some (packCsr (encReg d) (encReg a) 1#2 n)
  | .csrs d a n => some (packCsr (encReg d) (encReg a) 2#2 n)
  | .csrc d a n => some (packCsr (encReg d) (encReg a) 3#2 n)
  | .loftMovesComplete => none
  | .resourceAvailable => none
  | .loadMissFill => none
  | .storeBufferDrain => none
  | .granaryWriteback => none
  | .coreBarrierQuiescent => none
  | .matrixOpComplete => none
  | .timecmpMatch => none
  | .yieldExpiry => none
  | .userInterruptEntry => none
  | .engineTrap => none
  | .uncorrectedTrap => none
  | .lockWatchdog => none
  | .fewaitLimit => none
  | .barwaitLimit => none
  | .withdrawalAnswer => none
  | .copyStart => none
  | .copyLineWrite => none
  | .copyDone => none
  | .copyFail => none
  | .cpycanComplete => none
  | .translationWalk => none
  | .pageServiceComplete => none
  | .priResponse => none
  | .atsInvalidation => none
  | .shootdownComplete => none
  | .shootdown => none
  | .evict => none
  | .destroyKeySlot => none
  | .generateKeySlot => none
  | .skimPage => none
  | .maintRequestDiscard => none
  | .switchHeader => none
  | .gatewayHeader => none
  | .remoteAccessArrival => none
  | .messageArrival => none
  | .taskPacketArrival => none
  | .responseArrival => none
  | .acknowledgementArrival => none
  | .refusalArrival => none
  | .nackArrival => none
  | .nackResend => none
  | .keepWaitingTimer => none
  | .keepWaitingNotice => none
  | .responseTimerExpiry => none
  | .portGenAdvance => none
  | .linkRetry => none
  | .routeRemint => none
  | .laneLoss => none
  | .channelLockLoss => none
  | .blockedHeadTimeout => none
  | .tokenVisit => none
  | .recoverySinkApply => none
  | .leaseRequestArrival => none
  | .leaseGrant => none
  | .retuneComplete => none
  | .leaseTermExpiry => none
  | .leaseRequestTimeout => none
  | .starvationTimeout => none
  | .reclaimExpiry => none
  | .counterArm => none
  | .counterSignal => none
  | .armAnswer => none
  | .zeroNotice => none
  | .taskAging => none
  | .balancerRound => none
  | .balanceCommand => none
  | .migrationSend => none
  | .migrationArrival => none
  | .migrationRefused => none
  | .hqTailWrite => none
  | .hqEnableWrite => none
  | .hqRegWrite => none
  | .hostLaunch => none
  | .hostPost => none
  | .counterSet => none
  | .balance => none
  | .dutyReply => none
  | .token => none
  | .occupancy => none
  | .kernelLaunch => none
  | .bayScrubComplete => none
  | .kernelRetire => none
  | .recoatHandover => none
  | .barrierArrival => none
  | .barrierReleaseSent => none
  | .barrierRelease => none
  | .watchArrival => none
  | .watchAnswer => none
  | .leaveNotice => none
  | .withdrawalArrival => none
  | .lock => none
  | .unlock => none
  | .scrubComplete => none
  | .suspend => none
  | .suspendComplete => none
  | .restore => none
  | .migrate => none
  | .migrationChunk => none
  | .confirm => none
  | .migrationAck => none
  | .migrationCommitTimeout => none
  | .alarmNotice => none
  | .alarmLevel2 => none
  | .alarmLevel3 => none
  | .sensorLimit => none
  | .tamperMesh => none
  | .coldStart => none
  | .warmStart => none
  | .setDuty => none
  | .fwStage => none
  | .fwActivate => none
  | .readLog => none
  | .getMeasurements => none
  | .keyExchange => none
  | .migrationOffer => none
  | .migrationAbort => none

/-- The table's numbering of an instruction's bits (spec/opcode_table.json): one 32-bit word. -/
def decodeTableWord (nbits w : Nat) : Option Instr :=
  if nbits = 32 then (decode (BitVec.ofNat 32 w)).toOption else none

end Sys2Proof
end

