-- ==== Sys2Proof/Machine/Map.lean ====
section
/-!
DEFINITION. Sparse data by key: a list of key and value pairs, keys strictly rising.
Register files, memories, cores, strands, queues and packets are held in this form; a key that is not listed reads as
what the reader of the map says.
-/

namespace Sys2Proof.Machine

/-- A sparse map: pairs with strictly rising keys. -/
abbrev SMap (β : Type) := List (Nat × β)

variable {β : Type}

/-- The value at a key. -/
def mget (m : SMap β) (k : Nat) : Option β :=
  match m with
  | [] => none
  | (a, v) :: r => if a = k then some v else mget r k

/-- The map with a key set. -/
def mset (m : SMap β) (k : Nat) (v : β) : SMap β :=
  match m with
  | [] => [(k, v)]
  | (a, w) :: r => if a = k then (k, v) :: r else if k < a then (k, v) :: (a, w) :: r else (a, w) :: mset r k v

/-- The map without a key. -/
def mdel (m : SMap β) (k : Nat) : SMap β :=
  match m with
  | [] => []
  | (a, w) :: r => if a = k then mdel r k else (a, w) :: mdel r k

/-- The map with a key set, or taken out when the value is what an unlisted key reads as. -/
def mput [DecidableEq β] (z : β) (m : SMap β) (k : Nat) (v : β) : SMap β :=
  if v = z then mdel m k else mset m k v

/-- The value at a key, or what an unlisted key reads as. -/
def mgetD (m : SMap β) (k : Nat) (z : β) : β := (mget m k).getD z

/-- Whether a key is listed. -/
def mhas (m : SMap β) (k : Nat) : Bool := (mget m k).isSome

/-- Keys strictly rising, all above a bound. -/
def msortedFrom : Nat → SMap β → Bool
  | _, [] => true
  | lo, (a, _) :: r => decide (lo ≤ a) && msortedFrom (a + 1) r

/-- Keys strictly rising. -/
def msorted (m : SMap β) : Bool := msortedFrom 0 m

/-- The first listed pair that satisfies a test. -/
def mfind (p : Nat → β → Bool) (m : SMap β) : Option (Nat × β) := m.find? fun e => p e.1 e.2

/-- The listed keys. -/
def mkeys (m : SMap β) : List Nat := m.map (·.1)

/-- The lowest number below a bound that is not listed. -/
def mfree (m : SMap β) (n : Nat) : Option Nat := (List.range n).find? fun k => !mhas m k

/-- A key that is above every listed key. -/
def mnext (m : SMap β) : Nat := m.foldl (fun n e => max n (e.1 + 1)) 0

/-- Every listed value changed. -/
def mmap (f : Nat → β → β) (m : SMap β) : SMap β := m.map fun e => (e.1, f e.1 e.2)

/-- The listed pairs that satisfy a test. -/
def mfilter (p : Nat → β → Bool) (m : SMap β) : SMap β := m.filter fun e => p e.1 e.2

/-! ### Bytes -/

/-- The value of a list of bytes, the first the least significant (R3: little-endian). -/
def leNat : List Byte → Nat
  | [] => 0
  | b :: r => b.toNat + 256 * leNat r

/-- The n low bytes of a number, the least significant first. -/
def leBytes : Nat → Nat → List Byte
  | 0, _ => []
  | n + 1, v => BitVec.ofNat 8 v :: leBytes n (v / 256)

/-- A run of bytes read from a map whose unlisted bytes read as 0. -/
def readBytes (m : SMap Byte) (a : Nat) : Nat → List Byte
  | 0 => []
  | n + 1 => mgetD m a 0 :: readBytes m (a + 1) n

/-- Consecutive bytes written to a map whose unlisted bytes read as 0. -/
def writeBytes (m : SMap Byte) (a : Nat) : List Byte → SMap Byte
  | [] => m
  | b :: r => writeBytes (mput 0 m a b) (a + 1) r

/-- Bits [hi:lo] of a number, by their count. -/
def bits (v lo n : Nat) : Nat := v / 2 ^ lo % 2 ^ n

/-- One bit of a number. -/
def bit (v i : Nat) : Bool := v / 2 ^ i % 2 == 1

/-- Two's complement reading of the low w bits of a number. -/
def toInt (w v : Nat) : Int := if 2 * (v % 2 ^ w) < 2 ^ w then (v % 2 ^ w : Nat) else (v % 2 ^ w : Nat) - (2 ^ w : Nat)

/-- The low w bits of an integer, as a number (R9: an assignment keeps the low bits that fit). -/
def ofInt (w : Nat) (v : Int) : Nat := (v % (2 ^ w : Nat)).toNat

/-- Sign extension of an immediate to 64 bits. -/
def sext64 {w : Nat} (v : BitVec w) : Word := v.signExtend 64

end Sys2Proof.Machine
end

