-- ==== Sys2Proof/Machine/Aes.lean ====
section
/-!
DEFINITION. AES-256 (FIPS 197), the CMAC of route words (R265, NIST SP 800-38B) and the XTS of stack lines (R360).
Bytes are numbers below 256; a block is a list of 16 of them, in the order in which they stand in memory.
-/

namespace Sys2Proof.Machine.Aes

/-- Multiplication by x in GF(2^8). -/
def xtime (a : Nat) : Nat := if a < 128 then 2 * a else (2 * a - 256) ^^^ 0x1B

/-- Multiplication in GF(2^8), over the bits of the second factor. -/
def gmulBits : Nat → Nat → Nat → Nat
  | 0, _, _ => 0
  | n + 1, a, b => if b = 0 then 0 else (if b % 2 = 1 then a else 0) ^^^ gmulBits n (xtime a) (b / 2)

/-- Multiplication in GF(2^8). -/
def gmul (a b : Nat) : Nat := gmulBits 8 a b

/-- The inverse in GF(2^8): the 254th power. -/
def ginv (a : Nat) : Nat :=
  let a2 := gmul a a
  let a4 := gmul a2 a2
  let a8 := gmul a4 a4
  let a16 := gmul a8 a8
  let a32 := gmul a16 a16
  let a64 := gmul a32 a32
  let a128 := gmul a64 a64
  gmul a2 (gmul a4 (gmul a8 (gmul a16 (gmul a32 (gmul a64 a128)))))

/-- Rotation of a byte to the left. -/
def rotl8 (a n : Nat) : Nat := (a * 2 ^ n) % 256 + a / 2 ^ (8 - n)

/-- The S-box and its inverse by their definition: the inverse in GF(2^8) and an affine map. -/
def subOf (a : Nat) : Nat :=
  let b := ginv a
  b ^^^ rotl8 b 1 ^^^ rotl8 b 2 ^^^ rotl8 b 3 ^^^ rotl8 b 4 ^^^ 0x63
def invSubOf (a : Nat) : Nat := ginv (rotl8 a 1 ^^^ rotl8 a 3 ^^^ rotl8 a 6 ^^^ 0x05)

/-- The S-box as FIPS 197 tabulates it, entry a in byte a. -/
def sbox : Nat :=
  0xC072A49CAFA2D4ADF04759FA7DC982CA76ABD7FE2B670130C56F6BF27B777C63 +
  0x75B227EBE28012079A059618C323C7041531D871F1E5A534CCF73F362693FDB7 * 2 ^ 256 +
  0xCF584C4A39BECB6A5BB1FC20ED00D153842FE329B3D63B52A05A6E1B1A2C8309 * 2 ^ 512 +
  0xD2F3FF1021DAB6BCF5389D928F40A351A89F3C507F02F94585334D43FBAAEFD0 * 2 ^ 768 +
  0xDB0B5EDE14B8EE4688902A22DC4F816073195D643D7EA7C41744975FEC130CCD * 2 ^ 1024 +
  0x08AE7A65EAF4566CA94ED58D6D37C8E779E4959162ACD3C25C2406490A3A32E0 * 2 ^ 1280 +
  0x9E1DC186B95735610EF6034866B53E708A8BBD4B1F74DDE8C6B4A61C2E2578BA * 2 ^ 1536 +
  0x16BB54B00F2D99416842E6BF0D89A18CDF2855CEE9871E9B948ED9691198F8E1 * 2 ^ 1792

/-- Its inverse. -/
def invSbox : Nat :=
  0xCBE9DEC444438E3487FF2F9B8239E37CFBD7F3819EA340BF38A53630D56A0952 +
  0x25D18B6D49A25B76B224D92866A12E084EC3FA420B954CEE3D23C2A632947B54 * 2 ^ 256 +
  0x849D8DA75746155EDAB9EDFD5048706C92B6655DCC5CA4D41698688664F6F872 * 2 ^ 512 +
  0x6B8A130103BDAFC1020F3FCA8F1E2CD00645B3B80558E4F70AD3BC8C00ABD890 * 2 ^ 768 +
  0x6EDF751CE837F9E28535ADE72274AC9673E6B4F0CECFF297EADC674F4111913A * 2 ^ 1024 +
  0xF45ACD78FEC0DB9A2079D2C64B3E56FC1BBE18AA0E62B76F89C5291D711AF147 * 2 ^ 1280 +
  0xEF9CC9939F7AE52D0D4AB519A97F51605FEC8027591012B131C7078833A8DD1F * 2 ^ 1536 +
  0x7D0C2155631469E126D677BA7E042B17619953833CBBEBC8B0F52AAE4D3BE0A0 * 2 ^ 1792

/-- The S-box and its inverse of a byte. -/
def sub (a : Nat) : Nat := (sbox >>> (8 * a)) % 256
def invSub (a : Nat) : Nat := (invSbox >>> (8 * a)) % 256

/-- Bytewise exclusive or. -/
def xorL (a b : List Nat) : List Nat := List.zipWith (· ^^^ ·) a b

/-- The element of a block, row r of column c (column-major order). -/
def at' (b : List Nat) (r c : Nat) : Nat := b.getD (4 * (c % 4) + r) 0

/-- A block by its rows and columns. -/
def tabulate (f : Nat → Nat → Nat) : List Nat :=
  (List.range 16).map fun i => f (i % 4) (i / 4)

def shiftRows (b : List Nat) : List Nat := tabulate fun r c => at' b r (c + r)
def invShiftRows (b : List Nat) : List Nat := tabulate fun r c => at' b r (c + 4 - r)

/-- A column mixed with a row of coefficients. -/
def mixWith (k0 k1 k2 k3 : Nat) (b : List Nat) : List Nat := tabulate fun r c =>
  gmul (at' b r c) k0 ^^^ gmul (at' b ((r + 1) % 4) c) k1 ^^^ gmul (at' b ((r + 2) % 4) c) k2 ^^^
    gmul (at' b ((r + 3) % 4) c) k3
def mixColumns : List Nat → List Nat := mixWith 2 3 1 1
def invMixColumns : List Nat → List Nat := mixWith 14 11 13 9

/-- The key schedule: words from the last eight, newest first, for a number of further words. -/
def expand : Nat → Nat → Nat → List (List Nat) → List (List Nat)
  | 0, _, _, ws => ws
  | n + 1, i, rcon, ws =>
    let prev := ws.getD 0 []
    let old := ws.getD 7 []
    let t := if i % 8 = 0 then
        xorL ((prev.drop 1 ++ prev.take 1).map sub) [rcon, 0, 0, 0]
      else if i % 8 = 4 then prev.map sub else prev
    expand n (i + 1) (if i % 8 = 0 then xtime rcon else rcon) (xorL old t :: ws)

/-- The bytes of a key, byte 0 the least significant (log 22, DESIGN CHOICE). -/
def keyBytes (k : BitVec 256) : List Nat := (leBytes 32 k.toNat).map BitVec.toNat

/-- The fifteen round keys. -/
def roundKeys (k : BitVec 256) : List (List Nat) :=
  let b := keyBytes k
  let ws0 := (List.range 8).map fun i => (b.drop (4 * i)).take 4
  let ws := (expand 52 8 1 ws0.reverse).reverse
  (List.range 15).map fun r => (ws.drop (4 * r)).take 4 |>.flatten

/-- Encryption of a block. -/
def encrypt (k : BitVec 256) (b : List Nat) : List Nat :=
  match roundKeys k with
  | [] => b
  | rk0 :: rks =>
    let mid := (rks.take 13).foldl (fun x rk => xorL (mixColumns (shiftRows (x.map sub))) rk) (xorL b rk0)
    xorL (shiftRows (mid.map sub)) (rks.getD 13 [])

/-- Decryption of a block. -/
def decrypt (k : BitVec 256) (b : List Nat) : List Nat :=
  match (roundKeys k).reverse with
  | [] => b
  | rkN :: rks =>
    let mid := (rks.take 13).foldl (fun x rk => invMixColumns (xorL ((invShiftRows x).map invSub) rk)) (xorL b rkN)
    xorL ((invShiftRows mid).map invSub) (rks.getD 13 [])

/-! ### CMAC (R265) -/

/-- A number from bytes, the first the most significant. -/
def beNat (b : List Nat) : Nat := b.foldl (fun v x => 256 * v + x) 0

/-- The 16 bytes of a number below 2^128, the most significant first. -/
def beBlock (v : Nat) : List Nat := ((leBytes 16 v).map BitVec.toNat).reverse

/-- Doubling in GF(2^128) of SP 800-38B. -/
def dbl (v : Nat) : Nat := if v < 2 ^ 127 then 2 * v else (2 * v - 2 ^ 128) ^^^ 0x87

/-- The CMAC of 27 bytes: one whole block and one of 11 bytes, padded. -/
def cmac27 (k : BitVec 256) (m : List Nat) : List Nat :=
  let l := beNat (encrypt k (List.replicate 16 0))
  let k2 := dbl (dbl l)
  let last := m.drop 16 ++ [0x80] ++ List.replicate 4 0
  encrypt k (xorL (encrypt k (m.take 16)) (xorL last (beBlock k2)))

/-- TAG: the first five bytes of the CMAC of bits [215:0], byte k of it in byte 27 + k of the word (R265). -/
def routeTag (k : BitVec 256) (word : BitVec 256) : Nat :=
  let m := (leBytes 27 (word.toNat % 2 ^ 216)).map BitVec.toNat
  ((cmac27 k m).take 5).reverse.foldl (fun v x => 256 * v + x) 0

/-! ### XTS of a 64 B line (R360) -/

/-- Multiplication of a tweak by x, the tweak a little-endian number. -/
def xtsDouble (v : Nat) : Nat := if v < 2 ^ 127 then 2 * v else (2 * v - 2 ^ 128) ^^^ 0x87

/-- A block number from its little-endian bytes, and back. -/
def leNatL (b : List Nat) : Nat := b.reverse.foldl (fun v x => 256 * v + x) 0
def leBlock (v : Nat) : List Nat := (leBytes 16 v).map BitVec.toNat

/-- The four blocks of a line under their tweaks. -/
def xtsBlocks (f : List Nat → List Nat) : Nat → Nat → List Nat → List Nat
  | 0, _, _ => []
  | n + 1, t, b => xorL (f (xorL (b.take 16) (leBlock t))) (leBlock t) ++ xtsBlocks f n (xtsDouble t) (b.drop 16)

/-- A line's bytes encrypted under a key pair with the tweak of its physical address. -/
def xtsEncrypt (k k2 : BitVec 256) (addr : Nat) (b : List Nat) : List Nat :=
  xtsBlocks (encrypt k) 4 (leNatL (encrypt k2 (leBlock addr))) b

/-- A line's bytes decrypted under a key pair with the tweak of its physical address. -/
def xtsDecrypt (k k2 : BitVec 256) (addr : Nat) (b : List Nat) : List Nat :=
  xtsBlocks (decrypt k) 4 (leNatL (encrypt k2 (leBlock addr))) b

end Sys2Proof.Machine.Aes
end

