-- ==== Sys2Proof/Config.lean ====
section
/-!
DEFINITION. What an implementation fixes and what the spec leaves free.
Each free value is an opaque constant: nothing can be proved of it, so a statement holds whatever it is.
A first argument named n is the state's counter of draws (State.draws): each use of a free value takes a fresh number.
-/

namespace Sys2Proof.Config

/-- Which of the steps that are due happens next: any of them (log 2, DESIGN CHOICE). -/
opaque pick : Nat → Nat

/-- Fresh keys of the deterministic random bit generator (R361, R368) (log 7, DESIGN CHOICE). -/
opaque freshKey : Nat → BitVec 256

/-- Keys that the security core derives from the fused identity seed and the enrolment (R369, R391, R394), by use: 0 the
fabric key, 1 + d the link key of direction d, 9 the module link key, 10 the transport key, 11 the attestation key (log 7, DESIGN CHOICE). -/
opaque derivedKey : Nat → BitVec 256

/-- The OPCODE of a header, by the number of the remote operation (R269) (log 106, DESIGN CHOICE). -/
opaque opcode : Nat → Nat

/-- The signature of measurements under the attestation key (R394) (log 7, DESIGN CHOICE). -/
opaque signature : BitVec 256 → List Nat → Nat

/-- The second key that AES-256-XTS needs beside the key of a slot (R360) (log 22, DESIGN CHOICE). -/
opaque xtsSecond : BitVec 256 → BitVec 256

/-- Which translation a full TLB gives up (R354), and which line a full data cache or instruction cache gives up (R22) (log 11, DESIGN CHOICE). -/
opaque tlbVictim : Nat → Nat
opaque dcacheVictim : Nat → Nat
opaque icacheVictim : Nat → Nat

/-- Which destination line a copy engine writes next (R200: elements land in any order) (log 36, DESIGN CHOICE). -/
opaque copyOrder : Nat → Nat

/-- Whether infinity times zero plus NaN sets NV: IEEE 754-2019 leaves it to the implementation (R97) (log 17, DEDUCED). -/
opaque fmaNanInvalid : Bool

/-- Which value within its error bound a special function gives (R158), by function, format and input (log 9, DESIGN CHOICE). -/
opaque sfValue : Nat → Nat → Nat → Nat

/-- The rounding of a tie in E3M0 (log 16, DESIGN CHOICE), by the even candidate and the odd one: true takes the upper. -/
opaque e3m0Tie : Nat → Bool

/-- What a container beyond the byte image of a register reads as (R184) (log 26, DESIGN CHOICE). -/
opaque beyondImage : Nat → Nat

/-- The number of the device frame that Linane takes from a context's reservation to fill its system stage (R358) (log 29, DESIGN CHOICE). -/
opaque reservedFrame : Nat → Nat

/-- Whether a host page lies in the host's address space under a PASID (R352), by PASID and page (log 10, DESIGN CHOICE). -/
opaque hostMaps : Nat → Nat → Bool

/-- Whether a switch merges two arrivals that it may merge (R347) (log 37, DESIGN CHOICE). -/
opaque merges : Nat → Bool

/-- The clk that light takes over a fibre and reach index (R282), by their numbers (log 20, DESIGN CHOICE). -/
opaque flightClk : Nat → Nat → Nat

/-- The phase bit of the first pass of a completion ring (R397), by the interface (log 30, DESIGN CHOICE). -/
opaque firstPhase : Nat → Bool

/-- The limits of supply voltage (0 to 3) and clock (4 to 7): operating from and to, damage below and above (R378) (log 113, DESIGN CHOICE). -/
opaque sensorLimit : Nat → Nat

/-- Whether the cold start that follows a failed warm start passes (R392), by the number of starts (log 35, DESIGN CHOICE). -/
opaque startPasses : Nat → Bool

end Sys2Proof.Config
end

