-- ==== Sys2Proof/Machine/Strand.lean ====
section
/-!
DEFINITION. One strand: its registers, control registers, loop nest, waits and handler state (spec/02, spec/03, spec/06).
-/

namespace Sys2Proof.Machine

/-- The states of a strand (R56). -/
inductive Run where
  | unbound
  | ready
  | stalled
  | parked
  | waiting
  deriving DecidableEq, Repr

/-- What a STALLED strand lacks (R56): it becomes READY when the resource is there, and issues the instruction anew. -/
inductive Lack where
  /-- No resource is lacking. -/
  | none
  /-- A data-cache line with this physical line number (R118). -/
  | line (n : Nat)
  /-- A translation of this virtual address for the access kind 0 load, 1 store, 2 fetch, 3 atomic (R354). -/
  | translation (va kind : Nat)
  /-- A page service in progress (R127, R356). -/
  | service (va kind : Nat)
  /-- A free entry of the store buffer (R126). -/
  | bufferSpace
  /-- The store buffer without a store that holds one of these bytes (R125, R247). -/
  | bufferBytes (pa n : Nat)
  /-- The store buffer without a store of the strand (R137, R252). -/
  | bufferStrand
  /-- An unlocked bay (R77). -/
  | bay (b : Nat)
  /-- A local line without its engine-pending bit (R51). -/
  | pendingLine (l : Nat)
  /-- A bay that is not being scrubbed (R55). -/
  | scrub (b : Nat)
  /-- The matrix unit (R63). -/
  | matrixUnit
  /-- Pending loft moves (R35). -/
  | loft
  /-- The acknowledgements of the strand's remote operations (R252). -/
  | acks
  /-- The completion of the strand's copy commands (R240). -/
  | copies
  /-- A device-memory line that a copy engine owns (R257). -/
  | ownedLine (n : Nat)
  /-- An open path to the station and the home of a physical address (R286). -/
  | path (pa : Nat)
  /-- A free copy slot (R199). -/
  | copySlot
  /-- A free place of a unit that the instruction needs. -/
  | unitPlace
  deriving DecidableEq, Repr

/-- What a WAITING or PARKED strand waits for (R56). The instruction that waits is the one at the strand's PC. -/
inductive Wait where
  | none
  /-- SLEEP (R234). -/
  | sleep
  /-- WFEV at a scope (R241). -/
  | wfev (scope : Nat)
  /-- YIELD until a TIMER value (R234). -/
  | yield
  /-- LDFULL (0), LDFULLK (1) or STFULL (2, with its value) on the G word at this offset (R237, R238). -/
  | fe (off kind : Nat) (value : Word)
  /-- RWAITF (filled) or RWAITE for n slots of a ring (R192). -/
  | ring (r : Nat) (filled : Bool) (n : Nat)
  /-- CPYWAIT on a slot mask (R204). -/
  | copy (mask : Nat)
  /-- CPYCAN on a slot mask: STALLED until the slots are CANCELLED (R205). -/
  | cancel (mask : Nat)
  /-- TAKE (R234). -/
  | take
  /-- RECV into G at an offset (R227). -/
  | recv (g : Nat)
  /-- GBAR (0), GWAIT (1) or GRED (2) on a group index, with GWAIT's phase operand (R232). -/
  | barrier (g kind : Nat) (since : BitVec 32)
  /-- RINGCFG: STALLED until the commands with these serial numbers, which it ended, have ended; then the ring is set from
  these operands (R191). -/
  | ringcfg (serials : List Nat) (a b : Word)
  /-- The response to a waiting remote operation: STALLED until it arrives (R208, R219). -/
  | remote (op : Nat)
  /-- The answer to SIGNAL: STALLED until it arrives (R235). -/
  | answer
  /-- The core barrier of WFI (R62). -/
  | coreBarrier
  /-- The rendezvous of RECOAT (R234). -/
  | recoat
  /-- A matrix operation in progress (R63). -/
  | matrix
  /-- The page service of a vector memory fault (R56). -/
  | page (va kind : Nat)
  deriving DecidableEq, Repr

/-- One level of a LOOP nest (R130); LEN is kept with it because R131 needs the last body word (log 13, DEDUCED). -/
structure LoopRec where
  remaining : Nat
  initial : Nat
  body : Word
  len : Nat
  deriving DecidableEq, Repr

/-- The vector control registers (R37); rnd, vfmt, space, scope and sew are the fields of VCFG. -/
structure VecCsr where
  vl : Nat
  sew : Nat
  scope : Nat
  space : Nat
  vfmt : Nat
  rnd : Nat
  vstride : Word
  vmsel : MReg
  vstart0 : Nat
  vstart1 : Nat
  vstart2 : Nat
  vstart3 : Nat
  vlmaxs : Nat
  vflags : BitVec 8
  scancarry : BitVec 32
  deriving DecidableEq, Repr

/-- The task shadow registers (R39). -/
structure TaskCsr where
  fmta : BitVec 5
  fmtb : BitVec 5
  fmtc : BitVec 5
  scla : BitVec 18
  sclb : BitVec 18
  taskid : BitVec 32
  taskpri : BitVec 2
  deriving DecidableEq, Repr

/-- The interrupt and trap registers (R41). Addresses are held whole, with their low two bits 0. -/
structure TrapCsr where
  uieEn : BitVec 7
  uieOn : Bool
  uip : BitVec 7
  uivec : Word
  tcause : BitVec 8
  tval : Word
  tvec : Word
  tepc : Word
  ppriv : Bool
  puien : Bool
  member : BitVec 2
  inui : Bool
  priv : Bool
  /-- The UIP bits that the device has set, and the clk in which it last set one (R71). -/
  uipAt : Nat
  uipSet : BitVec 7
  deriving DecidableEq, Repr

/-- The timing and limit registers (R42). TIMER reads as timerOff + the module's clk count, so that it counts every clk. -/
structure TimeCsr where
  timerOff : Word
  /-- The clk from which a written TIMER value is in effect (R139). -/
  timerFrom : Nat
  timecmp : Word
  fewait : BitVec 32
  barwait : BitVec 32
  instret : Word
  deriving DecidableEq, Repr

/-- A task that a strand holds (R234): the SCOPE and SIGNAL bits of its packet. -/
structure HeldTask where
  scope : Nat
  signal : Bool
  deriving DecidableEq, Repr

/-- A strand. Registers that are not listed have their written bit clear and read as zero or null (R27).
Scalar keys 1 to 31 are s1 to s31, and 32 to 37 are the shadow copies of s26 to s31 (R29). -/
structure Strand where
  run : Run
  lack : Lack
  wait : Wait
  /-- The scalar register that the waiting instruction writes when it completes. -/
  waitReg : SReg
  /-- The clk at which the wait began (R386). -/
  waitFrom : Nat
  /-- The BARWAIT limit of the wait has been reached, and a withdrawal sent (R345). -/
  limited : Bool
  pc : Word
  scalars : SMap Word
  vectors : SMap VImage
  masks : SMap MImage
  routes : SMap RouteWord
  /-- Failure record of each route register: count and last reason (R210). -/
  routeFails : SMap (Nat × Nat)
  /-- The sheaf each route register is a member of (R220). -/
  sheaves : SMap Nat
  /-- Vector registers that lie in the loft: slot and register (R33). -/
  loft : SMap Nat
  /-- Vector registers kept in the strand's save record, in pass mode (R69). -/
  inRecord : SMap Unit
  /-- Last-named stamp of each vector register (R33). -/
  stamps : SMap Nat
  issueNo : Nat
  vec : VecCsr
  task : TaskCsr
  trap : TrapCsr
  time : TimeCsr
  /-- Saved lane count Ls while in pass mode (R69). -/
  pass : Option Nat
  /-- In the user-interrupt handler (R73). -/
  inUi : Bool
  /-- The names s26 to s31 reach the shadow copy (R29): from interrupt entry until UIRET. -/
  shadow : Bool
  /-- The nest is suspended by a user interrupt (R134). -/
  suspUi : Bool
  /-- The nest is suspended by a trap (R134). -/
  suspTrap : Bool
  /-- R131 stepped the nest at the last completed instruction (R72). -/
  stepped : Bool
  /-- Active loop levels, the innermost first. -/
  loops : List LoopRec
  /-- The replay buffer: word address (a multiple of 4) and word (R133). -/
  replay : SMap IWord
  held : Option HeldTask
  wakeToken : Bool
  /-- The group-table index of each GSLOT slot (R40). -/
  gslots : SMap Nat
  /-- The hidden group route of each GSLOT slot (R339). -/
  groupRoutes : SMap RouteWord
  /-- End of a YIELD as a clk (R234). -/
  yieldEnd : Nat
  /-- Pending asynchronous traps, cause and value, the first to be taken first (R76). -/
  pendTrap : List (Nat × Word)
  /-- The vector instruction or convoy at the PC has begun and not ended (R79, R149), and the mask that it read at issue (R65,
  R67), which stays in force until it ends or is to be executed anew (R68). -/
  mid : Bool
  midMask : Option MImage
  /-- The kernel has ended within that instruction: the strand is UNBOUND at its end (R328). -/
  ending : Bool
  /-- A translation walk for this address and access kind has ended without an entry (R354, R355). -/
  walked : Option (Nat × Nat)
  deriving DecidableEq, Repr

/-- The vector control registers at binding (R37). -/
def VecCsr.reset : VecCsr :=
  { vl := 0, sew := 0, scope := 0, space := 0, vfmt := 0, rnd := 0, vstride := 0, vmsel := 0, vstart0 := 0,
    vstart1 := 0, vstart2 := 0, vstart3 := 0, vlmaxs := 0, vflags := 0, scancarry := 0 }

/-- The task registers at binding (R39). -/
def TaskCsr.reset : TaskCsr :=
  { fmta := 0, fmtb := 0, fmtc := 0, scla := 0, sclb := 0, taskid := 0, taskpri := 0 }

/-- The interrupt and trap registers at binding (R41): user privilege (R57). -/
def TrapCsr.reset : TrapCsr :=
  { uieEn := 0, uieOn := false, uip := 0, uivec := 0, tcause := 0, tval := 0, tvec := 0, tepc := 0, ppriv := false,
    puien := false, member := 0, inui := false, priv := false, uipAt := 0, uipSet := 0 }

/-- The timing registers (R42). -/
def TimeCsr.reset : TimeCsr := { timerOff := 0, timerFrom := 0, timecmp := 0, fewait := 0, barwait := 0, instret := 0 }

/-- An UNBOUND strand: every register at the value it has at binding, and the PC 0 (log 5, DESIGN CHOICE). -/
def Strand.reset : Strand :=
  { run := .unbound, lack := .none, wait := .none, waitReg := 0, waitFrom := 0, limited := false, pc := 0, scalars := [], vectors := [], masks := [],
    routes := [], routeFails := [], sheaves := [], loft := [], inRecord := [], stamps := [], issueNo := 0, vec := .reset,
    task := .reset, trap := .reset, time := .reset, pass := none, inUi := false, shadow := false, suspUi := false, suspTrap := false,
    stepped := false, loops := [], replay := [], held := none, wakeToken := false, gslots := [],
    groupRoutes := [], yieldEnd := 0, pendTrap := [], mid := false, midMask := none, ending := false, walked := none }

end Sys2Proof.Machine
end

