-- ==== Sys2Proof/Machine/Parts.lean ====
section
/-!
DEFINITION. The parts of the module beside the strands: cores and their units, dies, contexts, kernels (spec/01 to 18).
-/

namespace Sys2Proof.Machine

/-- A set of numbers, held as the keys of a map. -/
abbrev NSet := SMap Unit

/-- A 256-bit AES key (R360, R369, R370). -/
abbrev Key := BitVec 256

/-- One entry of a core's store buffer (R126): the issuing strand, the physical address, the bytes, and the key and
generation of the page they were translated under (R360, R362). -/
structure SbEntry where
  strand : Nat
  pa : Nat
  bytes : List Byte
  key : Key
  gen : Nat
  deriving DecidableEq, Repr

/-- A combined translation of one page (R354): the page's virtual base and size, its physical base (log 10, DESIGN CHOICE: host
addresses stand from 2^48 up), the permissions of both stages, COW, whether D is set, the key and the generation. -/
structure TlbEntry where
  ctx : Nat
  vbase : Nat
  size : Nat
  pbase : Nat
  r : Bool
  w : Bool
  x : Bool
  cow : Bool
  dirty : Bool
  key : Key
  gen : Nat
  deriving DecidableEq, Repr

/-- A level of a table walk that a walker has completed (R354): of the context or the system stage, the part of the address that
selects its entry, and the entry, a pointer to the next table. -/
structure WalkLevel where
  ctx : Nat
  system : Bool
  level : Nat
  index : Nat
  pte : Nat
  deriving DecidableEq, Repr

/-- A core's OWNER register (R367). -/
structure Owner where
  id : Nat
  gen : Nat
  frozen : Bool
  poison : Bool
  deriving DecidableEq, Repr

/-! ### The matrix unit (R172) -/

/-- A plane: 256 bytes, its extension and metadata latches, and its tag. A plane that is not LOADED reads as zeros. -/
structure Plane where
  image : BitVec 2048
  ext : BitVec 384
  meta' : BitVec 2048
  loaded : Bool
  sparse : BitVec 2
  pfmt : BitVec 5
  deriving DecidableEq, Repr

/-- An exact value: NaN, an infinity, or ±m · 2^e (m = 0 is a signed zero). -/
inductive FVal where
  | nan
  | inf (neg : Bool)
  | fin (neg : Bool) (m : Nat) (e : Int)
  deriving DecidableEq, Repr

/-- One of the events that a matrix operation is made of (R176, R185, R244): a row of C read, modified and written, at a local
offset, with the accumulator kind and what each of its eight outputs adds (an exact sum and whether a NaN went into it; none for
the canonical NaN of R91); a row of C zeroed; a row of C or a line of W read. -/
inductive MtxRow where
  | add (off fmtc : Nat) (outs : List (Option (FVal × Bool)))
  | zero (off : Nat)
  | read (off n : Nat)
  deriving DecidableEq, Repr

/-- Where what a matrix operation reads goes when it completes: n vector registers of some bytes from r on (R186), or the shadow
plane (R176, R177). -/
inductive MtxInto where
  | none
  | regs (r n breg : Nat)
  | plane (fb sparse : Nat)
  deriving DecidableEq, Repr

/-- A matrix operation in progress (R63, R188): its strand, the clk at whose end it completes, the flags to set then, the events
still to come, the bytes read, where they go, and a poisoned line that it has read (R373). -/
structure MtxOp where
  strand : Nat
  endClk : Nat
  flags : BitVec 8
  rows : List MtxRow
  got : List Byte
  into : MtxInto
  spoilt : Option Nat
  deriving DecidableEq, Repr

/-- The matrix unit. A residue latch is listed under 8·row + column with its residues of channels 1 to 3; queue lists
the strands that stall for the unit in the order of their attempts (R63). -/
structure MatrixUnit where
  active : Plane
  shadow : Plane
  latches : SMap (Nat × Nat × Nat)
  busy : Option MtxOp
  queue : List Nat
  deriving DecidableEq, Repr

/-! ### Rings (R189) and the copy engine (R196, R198) -/

/-- A ring descriptor; SLOT 0 means UNCONFIGURED. -/
structure Ring where
  base : Nat
  space : Nat
  slot : Nat
  count : Nat
  prod : Nat
  cons : Nat
  filled : Nat
  thresh : Nat
  owner : Nat
  deriving DecidableEq, Repr

/-- The states of a copy slot (R198). -/
inductive CopyState where
  | free
  | waiting
  | running
  | done
  | failed
  | cancelled
  deriving DecidableEq, Repr

/-- One dimension of a copy descriptor: count and signed strides (R196). -/
structure CopyDim where
  count : Nat
  sstride : Int
  dstride : Int
  deriving DecidableEq, Repr

/-- A copy descriptor (R196); dims holds the dimensions used. -/
structure CopyDesc where
  src : Nat
  dst : Nat
  sspace : Nat
  dspace : Nat
  droute : Nat
  esize : Nat
  sring : Option Nat
  dring : Option Nat
  quiet : Bool
  notify : Bool
  scope : Nat
  dims : List CopyDim
  deriving DecidableEq, Repr

/-- A copy slot. todo lists the destination units not written yet, and sent those a remote packet carries that is not
answered yet: a unit is a 64 B line of the destination, or for a route the next bytes that lie in one such line (log 28, DESIGN CHOICE); lost lists
those that a cancellation or failure leaves unwritten. serial is the CPY issue order, srcBase and dstBase the addresses of element 0 once a ring has given its slot, members the route words
read at issue (R203), failing a reason that the slot fails with once its writes have landed (R191), and cancelBy the
strands whose CPYCAN cancels the slot, 8 for the device (R205). op is the number of the operation under which a command's packets
are sent (R221). -/
structure CopySlot where
  state : CopyState
  desc : CopyDesc
  strand : Nat
  reason : Nat
  serial : Nat
  srcBase : Int
  dstBase : Int
  todo : List Nat
  sent : List Nat
  lost : List Nat
  members : List (Nat × RouteWord)
  op : Nat
  failing : Nat
  cancelBy : List Nat
  deriving DecidableEq, Repr

/-! ### Contexts (R366 to R369) and kernels (R320, R321) -/

/-- An inclusive rectangle of cores in package coordinates (R24). -/
structure Rect where
  x0 : Nat
  y0 : Nat
  x1 : Nat
  y1 : Nat
  deriving DecidableEq, Repr

/-- The states of a context (R366). A context that is not listed is FREE. -/
inductive CtxState where
  | free
  | locking
  | locked
  | suspended
  | migratingOut
  | migratingIn
  | alarmed
  | scrubbing
  deriving DecidableEq, Repr

/-- A key slot of a context (R360): EMPTY or a key, and the epoch. -/
structure KeySlot where
  key : Option Key
  epoch : Nat
  deriving DecidableEq, Repr

/-- The context translation block as the device last read it (R351), with POOLHEAD as the page service has advanced it. -/
structure TransBlock where
  croot : Nat
  sroot : Nat
  poolbase : Nat
  poolcnt : Nat
  poolhead : Nat
  deriving DecidableEq, Repr

/-- The kernel states with their codes 0 to 6 (R320). -/
inductive KernState where
  | loaded
  | launching
  | running
  | retiring
  | recoating
  | retired
  | faulted
  deriving DecidableEq, Repr

/-- The code of a kernel state (R320). -/
def KernState.code : KernState → Nat
  | .loaded => 0
  | .launching => 1
  | .running => 2
  | .retiring => 3
  | .recoating => 4
  | .retired => 5
  | .faulted => 6

/-- One filled entry of a kernel's group table (R334): its members in rank order, and what may be revoked (R338). -/
structure Group where
  members : List Place
  revoked : Bool
  deriving DecidableEq, Repr

/-! ### Kernels and their descriptors -/

/-- A kernel descriptor, with the address it was read at. -/
structure Desc where
  addr : Nat
  entry : Nat
  tvec : Nat
  strands : Nat
  part : Nat
  rings : Nat
  pfmt : Nat
  slot0 : Nat
  slot1 : Nat
  inhbays : Nat
  accept : Nat
  gtab : Nat
  rtab : Nat
  ctab : Nat
  sect : Nat
  cmpl : Nat
  ngroup : Nat
  nroute : Nat
  nctr : Nat
  nsect : Nat
  done : Option (Nat × Nat)
  rects : List Rect
  deriving DecidableEq, Repr

/-- A section image (R321): source, local offset, length, and its bytes. -/
structure Section where
  src : Nat
  off : Nat
  len : Nat
  bytes : List Byte
  deriving DecidableEq, Repr

/-- A rectangle of a group entry, as offsets from the plot's corner, with its strand mask (R334). -/
structure GroupRect where
  dx0 : Int
  dy0 : Int
  dx1 : Int
  dy1 : Int
  smask : Nat
  deriving DecidableEq, Repr

/-- A group entry (R334): NRECT as it stands, and the rectangles used. -/
structure GroupEntry where
  nrect : Nat
  rects : List GroupRect
  deriving DecidableEq, Repr

/-- A route template (R322). -/
structure Template where
  reg : Nat
  endp : Nat
  dx : Int
  dy : Int
  rights : Nat
  flags : Nat
  base : Nat
  len : Nat
  deriving DecidableEq, Repr

/-- An entry of the counter table (R321). -/
structure CtabEntry where
  die : Nat
  counter : Nat
  value : Nat
  deriving DecidableEq, Repr

/-- A descriptor with its tables. -/
structure Program where
  desc : Desc
  groups : List GroupEntry
  templates : List Template
  counters : List CtabEntry
  sections' : List Section
  deriving DecidableEq, Repr

/-- What a copy command that has ended reports (R71, R202): the core and strand that it is for, its slot, the reason of a failure or 0,
whether QUIET keeps a failure from its strand, and whether NOTIFY asks for CPYDONE. -/
structure CopyReport where
  place : Place
  slot : Nat
  reason : Nat
  quiet : Bool
  notice : Bool
  deriving DecidableEq, Repr

/-- A kernel that holds a plot (R320): its context, launching die, descriptor address, rectangles, tag, completion
address and counter (R321), strands a core, the RECOAT operand pairs at the rendezvous (R236), what its completion
record will carry (R328), the successor that has passed every check of a recoat (R333), whether its completion record has been
written while it retires (R327), and what copy commands that have ended since a recoat's step 2 report (R330). -/
structure Kernel where
  state : KernState
  ctx : Nat
  die : Nat
  desc : Nat
  rects : List Rect
  tag : Nat
  cmpl : Nat
  done : Option (Nat × Nat)
  gtab : Nat
  strands : Nat
  rendezvous : List (Place × Word × Word)
  copyFail : Nat
  cause : Nat
  tval : Word
  faultAt : Place
  groups : SMap Group
  successor : Option Program
  recorded : Bool
  reports : List CopyReport := []
  deriving DecidableEq, Repr

/-! ### Groups and barriers (R334 to R348) -/

/-- The states of a barrier unit at the root (R342). -/
inductive BarrState where
  | opened
  | arriving
  | released
  deriving DecidableEq, Repr

/-- What a GRED arrival carries (R348): its operation code and its value of 32 bits. -/
structure RedVal where
  op : Nat
  value : BitVec 32
  deriving DecidableEq, Repr

/-- One arrival at a root (R342, R347): of one member, with the value it brings, or two merged into one, the earlier first. -/
inductive Arrival where
  | one (p : Place) (v : Option RedVal)
  | both (a b : Arrival)
  deriving DecidableEq, Repr

/-- A barrier unit at a group's root (R341): state, phase, expected count, the contributions counted in the order in
which they were combined, arrivals held for the change to OPEN (R342), members that leave as the phase ends, and those of a new
phase that leave at its end (R344). -/
structure Barrier where
  state : BarrState
  phase : Nat
  expected : Nat
  counted : List Arrival
  heldArrivals : List Arrival
  leaving : Nat
  leavingNext : Nat
  op : Option Nat
  deriving DecidableEq, Repr

/-- A member core's own copy of a barrier (R341): phase, the arrived bits of its strands with the phase of each arrival, whether a
release has landed, a release held for a suspended core (R346), and the phases that single strands have learnt from the answers to
their watches (R343). -/
structure BarrView where
  phase : Nat
  arrived : SMap Nat
  releasedSeen : Bool
  held : Option (Nat × Option RedVal)
  ahead : SMap Nat := []
  deriving DecidableEq, Repr

/-! ### Queues (R302 to R311) -/

/-- The states of a task-queue entry (R302); a FREE entry is not listed. -/
inductive TaskState where
  | waiting
  | eligible
  | moving
  deriving DecidableEq, Repr

/-- A task-queue entry: the packet of 64 bytes, its PRIO and STAMP, its state, the widest acquire its TAKE performs
(R254), the number of its arm while that is unanswered (R309), how many stores have left the core's store buffer once those
before its enqueue have (R314), and for a MOVING packet the destination core, whether it has been sent, how often a link has NACKed
it, and the clk before which it is not sent again (R287). -/
structure TaskEntry where
  packet : BitVec 512
  prio : Nat
  stamp : Nat
  state : TaskState
  acquire : Nat
  arming : Option Nat
  stores : Nat
  dest : Nat
  sent : Bool
  nacks : Nat := 0
  notBefore : Nat := 0
  deriving DecidableEq, Repr

/-- An inbox slot (R310, R311): the receiving strand, arrival order, payload and the fields that RECV returns. -/
structure InboxSlot where
  strand : Nat
  order : Nat
  payload : List Byte
  fromStrand : Nat
  fromCore : Nat
  tag : Nat
  scope : Nat
  deriving DecidableEq, Repr

/-- A dependence counter (R307). An unlisted counter has VALUE 0 and OWNER 0xFFFF. -/
structure Counter where
  value : Nat
  owner : Nat
  deriving DecidableEq, Repr

/-! ### Leases (R228 to R230, R297 to R300) -/

/-- The states of a lease entry (R230); a FREE entry is not listed. -/
inductive LeaseState where
  | requested
  | granted
  | active
  | reclaiming
  | released
  | expired
  deriving DecidableEq, Repr

/-- The code of a lease state (R230). -/
def LeaseState.code : LeaseState → Nat
  | .requested => 1
  | .granted => 2
  | .active => 3
  | .reclaiming => 4
  | .released => 5
  | .expired => 6

/-- A lease table entry (R228, R297): direction, reach index, wavelengths asked for and granted, term in µs, the clk at
which the present state ends, the channels it holds, its grant order, and the number of its request. -/
structure Lease where
  state : LeaseState
  strand : Nat
  dir : Nat
  reach : Nat
  asked : Nat
  granted : Nat
  term : Nat
  reclaimed : Bool
  reqClk : Nat
  endClk : Nat
  channels : List Nat
  grantNo : Nat
  reqNo : Nat
  deriving DecidableEq, Repr

/-! ### The fabric (R264 to R296) -/

/-- Where a packet is: at the switch of a core (by core number), at the gateway, in the recovery sink of a fibre port, or at the
NI of the core that it is for. -/
inductive Loc where
  | switch (core : Nat)
  | gateway
  | fibreSink (fibre : Nat)
  | ni (core : Nat)
  deriving DecidableEq, Repr

/-- What a packet does at its target (OPCODE of R269, and the packets of R283 without a route word). -/
inductive PKind where
  /-- RLD, at an offset from WBASE. -/
  | rld (off : Nat)
  /-- RST of 8 bytes, or a copy-engine write of its payload bytes at offsets (slot and unit in the issuing core). -/
  | rst (off : Nat)
  | cpy (offs : List Nat) (slot unit : Nat)
  | rstf (off : Nat)
  /-- RAMO: operation, operand, expected value. -/
  | ramo (off op : Nat) (o x : Word)
  /-- RLDV and RSTV: SEW in bytes and the offsets of the active elements it carries. -/
  | rldv (size : Nat) (offs : List Nat)
  | rstv (size : Nat) (offs : List Nat)
  /-- SEND and SENDV: strand and tag. -/
  | send (strand tag : Nat)
  /-- POSTW: priority. -/
  | postw (prio : Nat)
  /-- WLEASE: the issuing core's handle, and the number of the request. -/
  | wlease (handle req : Nat)
  /-- Barrier arrival, watch, leave notice and withdrawal at a group's root (R342 to R345). -/
  | arrive (group phase : Nat) (a : Arrival)
  | watch (group : Nat) (p : Place)
  | leave (group phase : Nat) (p : Place) (arrivedNow : Bool)
  | withdraw (group : Nat) (p : Place) (isWatch : Bool)
  /-- A balancer migration: destination core, the source's entry number and the moved entry (R314). -/
  | move (dest n : Nat) (e : TaskEntry)
  /-- WGEN: target core, port, and the waiting strand (R219). -/
  | wgen (target port : Nat)
  /-- Responses on VC1. -/
  | resp (ok : Nat)
  | ack
  | nack (narrowed : Bool)
  | refusal (reason : Nat)
  | keepWaiting
  | moveRefused (entry : Nat)
  | moveDone (entry : Nat)
  | moveNacked (entry : Nat)
  /-- A barrier release: kernel, group, new phase, result (R342), and the answers to a watch and a withdrawal. -/
  | release (group phase : Nat) (result : Option RedVal)
  | watchAns (group phase : Nat) (p : Place)
  | withdrawAns (group : Nat) (p : Place) (released : Bool)
  deriving DecidableEq, Repr

/-- A packet in flight (R269): the route word, the header fields, the payload in clear with the key and the nonce of its last
encryption, which give it as the links carry it (Packet.wire, Packet.tag), what has damaged it on its way (log 8, DESIGN CHOICE: 0
nothing, 1 its CRC fails, 2 its GCM check fails), and its place. ctx is the context id that a packet without a route word carries in
clear, 0 for the module's link key (R370). num is the sender's number of the packet and op that of the first
packet of its operation; ordered holds R261's choice, and target is the core a packet without a route word goes to
(R286). trail lists the places left behind, the latest first, which an answer retraces (R273); port is the place it came from and stamp
orders the packets of one input queue. behind names the earlier packets that it must follow at its target, each by the registers and
SEQs under which it has been sent (R260, R261, R293) (log 68, DESIGN CHOICE), and origins the registers and SEQs under which a chunk was
sent before its member was dropped (R222). -/
structure Packet where
  word : RouteWord
  seg : Nat
  taken : Nat
  leadx : Int
  leady : Int
  kind : PKind
  payload : List Byte
  strand : Nat
  core : Nat
  module' : Nat
  wreg : Nat
  seq : Nat
  chunk : Nat
  num : Nat
  op : Nat
  ordered : Bool
  ngw : Bool
  nport : Nat
  nmod : Nat
  nonce : Nat
  key : Key
  damage : Nat
  vc : Nat
  loc : Loc
  target : Nat
  trail : List Loc
  port : Option Loc
  stamp : Nat
  flagged : Bool
  blockedFrom : Nat
  ctx : Nat := 0
  behind : List (List (Nat × Nat)) := []
  origins : List (Nat × Nat) := []
  deriving DecidableEq, Repr

/-- The states of a link direction (R281). -/
inductive LinkState where
  | training
  | up
  | narrowed
  | down
  deriving DecidableEq, Repr

/-- A link direction (R281, R282): its state, the entries retired, failures in a row of the flit at its head, and whether the detour
of R288 is in place. An unlisted link is UP with no entry retired. -/
structure Link where
  state : LinkState
  retired : Nat
  failures : Nat
  detour : Bool
  deriving DecidableEq, Repr

/-- A packet put into the gateway's transmit queue of a channel (R296): the channel, and the clk at which its transmission begins and
ends and at which the far gateway has it. -/
structure Sent where
  channel : Nat
  begins : Nat
  ends : Nat
  lands : Nat
  deriving DecidableEq, Repr

/-- A packet of a strand that is not answered yet (R209, R211, R365): as it is sent, whether the strand waits for it,
the NACKs it has had and whether the last was LINK-NARROWED, the clk its response timer began, the clk it is to be sent
again, and whether it has been sent. got is the response it has had. A packet behind one that waits to be resent is not sent (R211). dest and elems are the
vector register and elements that an RLDV's response fills, and members the registers of the sheaf left to it (R222). -/
structure Outstanding where
  pkt : Packet
  waiting : Bool
  nacks : Nat
  narrowed : Bool
  timerFrom : Nat
  resendAt : Option Nat
  inFlight : Bool
  got : Option (List Byte)
  dest : Nat
  elems : List Nat
  members : List (Nat × RouteWord)
  deriving DecidableEq, Repr

/-- A core's network interface (R209, R211, R269, R275, R293, R370): the nonce counter, the next SEQ of each sending
register by 16·strand + register, unanswered packets by their number, the next operation number, the recovery sink, and
the port generations (an unlisted port has 0x0000; ports 0x85 and 0x86 are listed under those numbers), and for each sending
register the SEQs applied here, with the answers given (R293: each SEQ is applied once), and the cached keys of contexts by their id
(R369): its own and three others, the latest used first. -/
structure Ni where
  nonce : Nat
  seqs : SMap Nat
  out : SMap Outstanding
  serial : Nat
  sink : List Packet
  ports : SMap Nat
  seen : SMap (List (Nat × PKind × List Byte))
  keys : List (Nat × Key)
  deriving DecidableEq, Repr

/-! ### Cores -/

/-- A core and its units. stopping says that a suspension is stopping its strands (R79), and minting that they wait for route words
that the host composes (R278). -/
structure Core where
  owner : Owner
  stopping : Bool
  minting : Bool
  part : Nat
  slot0 : Word
  slot1 : Word
  kern : Option Nat
  tag : Nat
  strands : SMap Strand
  /-- Bytes of the local buffers by local offset (R45). -/
  buf : SMap Byte
  /-- Bytes of lines that an uncorrected error has hit, as long as nothing has overwritten them (R373). -/
  bad : NSet
  /-- Generation tag of each local line, and generation of each bay (R52). -/
  lineGen : SMap Nat
  bayGen : SMap Nat
  /-- Full words of G, by word number (R49). -/
  full : NSet
  /-- Engine-pending lines with their copy slots, as a mask (R51). -/
  pend : SMap Nat
  /-- Bays being scrubbed (R55). -/
  scrub : NSet
  /-- Locked bays with their holder, and since when each holder holds a bit (R77, R78). -/
  locks : SMap Nat
  lockFrom : SMap Nat
  /-- Strands at the core barrier, and QUIESCENT (R62). -/
  barWaiting : NSet
  quiescent : Bool
  sb : List SbEntry
  /-- Stores that have left the store buffer, and arms sent: what task-queue entries are compared with (R309, R314). -/
  drains : Nat
  arms : Nat
  /-- Lines of the data cache and of the instruction cache, by physical line number (R22, R118). -/
  dcache : NSet
  icache : NSet
  tlb : List TlbEntry
  mtx : MatrixUnit
  rings : SMap Ring
  copies : SMap CopySlot
  copySerial : Nat
  queue : SMap TaskEntry
  inbox : SMap InboxSlot
  inboxOrder : Nat
  leases : SMap Lease
  ni : Ni
  barriers : SMap Barrier
  views : SMap BarrView
  deriving DecidableEq, Repr

/-! ### Dies -/

/-- What a page service does (R357 to R359): a copy on write, a fault-in, a fill of the system stage; or a scrub of a page that is
being skimmed, for which the host alone is asked (R362). -/
inductive ServiceKind where
  | cow
  | faultIn
  | system
  | scrub
  deriving DecidableEq, Repr

/-- A service record (R356): the faulting context and page, the kind of the service, the waiters, whether the host has
been asked (R357, R358), and its answer. -/
structure Service where
  ctx : Nat
  va : Nat
  kind : ServiceKind
  write : Bool
  station : Nat
  waiters : List Place
  asked : Bool
  deriving DecidableEq, Repr

/-- A launch request at a die's launcher (R324): the context, descriptor, and the host request it answers; once the launcher has
begun it the kernel is LAUNCHING (R320), and an uncorrected error in its context faults it: the place and value of that fault. Once it
has failed, what is left is its record: where it goes, its bytes, and the reason (R325). -/
structure LaunchReq where
  ctx : Nat
  desc : Nat
  host : Option (Nat × Nat)
  began : Bool
  fault : Option (Place × Word)
  failed : Option (Nat × List Byte × Nat) := none
  deriving DecidableEq, Repr

/-- A balancer command (R313): source, destination, count. -/
structure BalCmd where
  src : Nat
  dst : Nat
  n : Nat
  deriving DecidableEq, Repr

/-- What a die's key store holds of a context (R369): its key and its key slots. -/
structure KeyEntry where
  key : Key
  slots : SMap KeySlot
  deriving DecidableEq, Repr

/-- A die: granary bytes not written back and the cores that wrote each such line, cached host lines, counters, the
translation caches of the stations with the walks' levels, service records, the fault queue, failure times for the alarms, the switch log, the flag-summary
bit, the launcher's queue, the units of the die whose page service has failed since they last looked, with the pages, the key store (R369)
by context, and the errors that its ECC has corrected (R400). -/
structure Die where
  dirty : SMap Byte
  writers : SMap (List Nat)
  hostLines : SMap (BitVec 512)
  counters : SMap Counter
  tcache : List TlbEntry
  levels : List WalkLevel
  services : List Service
  faultQueue : List Packet
  tagFails : List (Nat × Nat)
  gcmFails : List (Nat × Nat)
  crcFails : List Nat
  log : List (Nat × Nat × Nat × Nat × Nat)
  flagged : Bool
  launches : List LaunchReq
  lost : List (Place × Nat)
  keys : SMap KeyEntry
  corrected : Nat
  deriving DecidableEq, Repr

/-! ### The module -/

/-- A context (R366 to R369). save is the save area; saved cores hold what the core and strand records carry while it is SUSPENDED
(log 21, DESIGN CHOICE); origin is the module from which the route words that it holds are written (R267, R278), and freed lists the
cores that its unlock has freed, which nothing takes before the scrub ends (R372). -/
structure Context where
  state : CtxState
  rects : List Rect
  tbAddr : Nat
  tb : TransBlock
  save : Nat
  pasid : Nat
  counters : List (Nat × Nat)
  key : Key
  slots : SMap KeySlot
  saved : SMap Core
  origin : Nat
  freed : List Nat := []
  deriving DecidableEq, Repr

/-- What moves with a migrating context (R376): the bytes that the chunks hold, and what they stand for: the context with its save area,
the values of its counters in the order of their list, and its kernels by their number. -/
structure Parcel where
  context : Context
  values : List Nat
  kernels : SMap Kernel
  bytes : List Byte := []
  deriving DecidableEq, Repr

/-- A migration that this module receives or sends (R376): the other module, the chunks verified so far, each with its tag and its
bytes, chunks expected, how far it is, the clk of the source's last traffic (R377), and what has been received. -/
structure Migration where
  outgoing : Bool
  peer : Nat
  chunks : SMap (List Nat × List Nat)
  count : Option Nat
  verified : Bool
  confirmed : Bool
  lastClk : Nat
  parcel : Option Parcel
  deriving DecidableEq, Repr

/-- A host queue interface (R317, R396, R397): its registers, the pass of the completion ring that it is in, the function that it is
assigned to, 0 the physical one and 1 to 64 a virtual one, and the requests fetched and not completed, by their ring index. -/
structure HostQueue where
  tail : Nat
  rqbase : Nat
  k : Nat
  enable : Bool
  cqbase : Nat
  head : Nat
  cqtail : Nat
  pass : Bool
  fn : Nat
  todo : List (Nat × List Byte)
  deriving DecidableEq, Repr

/-- A duty request that waits for the host's reply: a lease of a core's handle with its direction, lessee index, g and context
(R298); a word to mint into a route register of a strand, or into the hidden group route of GSLOT entry reg - 16, as Linane would
compose it (R278): one of a launch, recoat or restore holds the kernel's strands until it is minted. -/
inductive DutyReq where
  | lease (core handle dir x g ctx : Nat)
  | mint (p : Place) (reg : Nat) (word : RouteWord) (holds : Bool)
  deriving DecidableEq, Repr

/-- A page request that waits for the host's response (R357, R358, R362): its address, virtual or intermediate by its kind; of a
scrub also the page that is being skimmed, and the counter of the skim. -/
structure PageReq where
  die : Nat
  ctx : Nat
  va : Nat
  kind : ServiceKind
  pasid : Nat
  write : Bool
  skim : Nat × Nat × Nat
  deriving DecidableEq, Repr

/-- A shootdown in progress (R363): the virtual address of its first page and the number of pages, and what follows it: the counter to
decrement, the page service that it ends, or the die through which the translation block is read anew. One that serves an invalidation
from the host (R358) names the PASID and the number of the invalidation, and its pages are the host's. -/
structure Shootdown where
  ctx : Nat
  first : Nat
  count : Nat
  counter : Option (Nat × Nat)
  service : Option (Nat × Nat × ServiceKind)
  reread : Option Nat
  ats : Option (Nat × Nat)
  deriving DecidableEq, Repr

/-- An entry of the alarm log (R378): level, trigger, CYCLE, contexts. -/
structure AlarmEntry where
  level : Nat
  trigger : Nat
  clk : Nat
  ctxs : List Nat
  deriving DecidableEq, Repr

/-- What the security core sends over the management port (R366, R376, R377, R394, R398). -/
inductive MgmtMsg where
  /-- The completion of a command for a context, and whether it was carried out. -/
  | done (command : Instr) (ctx : Nat) (ok : Bool)
  /-- The alarm log and the error log. -/
  | log (alarms : List AlarmEntry) (errors : List (Nat × Nat))
  /-- Measurements, with ACTIVATION-PENDING, whether the host relays them, and their signature under the attestation key. -/
  | measured (values : List Nat) (activation relayed : Bool) (signature : Nat)
  /-- A transfer key agreed with a module, and a key exchange that has failed. -/
  | keyAgreed (peer : Nat)
  | keyLost (peer : Nat)
  /-- A chunk of a context's state as it is sealed, with its tag; the last one is the manifest. -/
  | chunk (ctx no : Nat) (last : Bool) (cipher tag : List Nat) (body : Option Parcel)
  | confirm (ctx : Nat)
  | ack (ctx : Nat)
  | abort (ctx : Nat)
  | notice (ctx : Nat)
  | lost (ctx : Nat)
  | recoveryFailed
  /-- Links that a start's training has left DOWN, as Linane reports them (R281). -/
  | linksDown (links : List Nat)
  deriving DecidableEq, Repr

/-- A firmware image (R393): its version, its hash, and whether it verified. -/
structure FwImage where
  version : Nat
  digest : Nat
  valid : Bool
  deriving DecidableEq, Repr

end Sys2Proof.Machine
end

