-- ==== Sys2Proof/Machine/State.lean ====
section
/-!
DEFINITION. The state of the module as plain data, the reasons a step can stop, and the state after reset (log 4, DEDUCED).
-/

namespace Sys2Proof.Machine

/-- Why the machine stops with a fault. -/
inductive Fault where
  /-- Raised by an instruction that is executed for a strand that is UNBOUND (R56: such a strand issues nothing).
  Safe: the spec gives no such step. -/
  | unboundStrand
  /-- Raised by a step without an encoding whose operands (State.given) are not of the form that step takes.
  Safe: the spec gives no such step. -/
  | stepOperands
  deriving DecidableEq, Repr

/-- Why an instruction has no meaning. -/
inductive Refusal where
  /-- Raised by the dispatch for an instruction that is not modelled, by its mnemonic. Safe: the machine stops. -/
  | notModelled (mnemonic : String)
  deriving DecidableEq, Repr

/-- A reading of a die's sensors (R378, R399): its junction temperature in °C, its supply voltage, its clock. -/
inductive Reading where
  | temperature (c : Int)
  | voltage (v : Nat)
  | clock (f : Nat)
  deriving DecidableEq, Repr

/-- The operands of a step without an encoding: what it acts on and what it is given. -/
inductive Given where
  | none
  | place (p : Place)
  | core (c : Nat)
  | item (core i : Nat)
  | line (core slot line : Nat)
  | packet (id : Nat)
  | die (d : Nat)
  | kernel (k : Nat)
  | ctx (c : Nat)
  | walk (p : Place) (va kind : Nat)
  | service (die ctx va : Nat) (kind : ServiceKind) (ok : Bool) (frame : Nat)
  | maint (ctx die core taskid : Nat) (arg0 arg1 arg3 : Nat)
  | counter (die c : Nat) (amount : Nat) (core entry : Nat)
  | signal (die c ctx : Nat) (p : Place) (answered : Bool) (scope : Nat)
  | command (die : Nat) (c : BalCmd)
  | lock (id : Nat) (rects : List Rect) (tb save pasid : Nat) (counters : List (Nat × Nat))
  | host (pf iface off : Nat) (value : Nat)
  | request (q idx : Nat) (bytes : List Byte)
  | link (l : Nat)
  | channel (c : Nat)
  | lease (core handle : Nat)
  | starve (dir idx : Nat)
  | register (p : Place) (reg : Nat) (path : BitVec 120)
  | chunk (ctx no : Nat) (last : Bool) (cipher tag : List Nat) (body : Option Parcel)
  | peer (ctx : Nat) (module' : Nat)
  | alarm (trigger : Nat) (ctxs : List Nat)
  | sensor (die : Nat) (reading : Reading)
  | duty (mask : Nat)
  | firmware (slot version digest : Nat) (ok : Bool)
  | start (ok : Bool) (repair untrained absent : NSet) (temps : SMap Int) (hash : Nat) (linane : Option (Nat × List Byte))
  | resume
  | offer (ctx peer save tb pasid : Nat)
  | exchange (peer : Nat) (ok : Bool)
  | corrected (die what : Nat)
  | askRoute (p : Place) (reg target endp base len rights flags : Nat)
  | restore (ctx : Nat) (moves : List (Rect × Rect)) (part : Option Nat)
  | error (p : Place) (isLocal : Bool) (addr : Nat)
  | evict (ctx va host : Nat)
  deriving DecidableEq, Repr

/-- A step that is due: the step, its operands. -/
structure Due where
  step : Instr
  given : Given
  deriving DecidableEq, Repr

/-- For which strand the next instruction acts: its place, the convoy member, the address of the first member, and the
element at which a split vector member stops (R68), and the mask its convoy read at issue (R67). -/
structure Cur where
  place : Place
  member : Nat
  epc : Word
  stop : Option Nat
  mask : Option MImage
  deriving DecidableEq, Repr

/-- The state of one module (R1): clk count and memory, cores, dies, contexts, kernels, the fabric and its gateway, the
host interfaces, and the security core's records. now counts clk since power-on and startClk is the clk of the last
start; CYCLE is their difference (R42). poisoned lists the bytes of device memory in lines that an uncorrected error has hit,
as long as nothing has overwritten them (R373). absent lists the modules of the domain that link training has found missing (R21),
and starve since when the conditions of the starvation rule hold, by 3·direction + index (R300). needsStart says that the module has
no passed start (R391), moduleKey, transportKey and attestKey are the module's link key, its internal transport key and its attestation
key (R369, R370, R394), and starting that a warm start has begun with the operands startGiven and waits for its contexts (R392).
heldCmds lists the commands that wait for the end of a start (R398), trainedAt the temperature of each die at which its device memory was
trained last (R391), and manifests the firmware hash that the signed manifest of each slot gives (R391). The fields from agenda on are the model's own: see log 2, DESIGN CHOICE and log 6, DESIGN CHOICE. -/
structure State where
  now : Nat
  startClk : Nat
  starts : Nat
  mem : List Host.Cell
  lineTag : SMap Nat
  lineKey : SMap Key
  poisoned : NSet
  duty : Nat
  cores : SMap Core
  dies : SMap Die
  contexts : SMap Context
  kernels : SMap Kernel
  owned : SMap (List (Nat × Nat))
  packets : SMap Packet
  packetNo : Nat
  links : SMap Link
  dark : NSet
  leased : SMap (Nat × Nat × Nat)
  fifos : SMap (List (Nat × Nat))
  grants : Nat
  lastChannel : SMap (Nat × Nat)
  gnonces : SMap Nat
  tokenAt : Nat
  tokenPacket : Option Nat
  fibreOut : List (Sent × Packet)
  starve : SMap Nat
  fabricKey : Key
  linkKeys : SMap Key
  moduleKey : Key
  transportKey : Key
  attestKey : Key
  hostQueues : SMap HostQueue
  dutyReqs : SMap DutyReq
  pageReqs : List PageReq
  completions : List (Nat × Nat × Nat × Nat)
  shootdowns : List Shootdown
  atsDone : List (Nat × Nat × Nat)
  alarms : List AlarmEntry
  errors : List (Nat × Nat)
  level3 : Bool
  needsStart : Bool
  starting : Bool
  startGiven : Given
  heldCmds : List Due
  trainedAt : SMap Int
  manifests : SMap Nat
  failedStarts : Nat
  repairMap : NSet
  fwSlots : SMap FwImage
  fwActive : Nat
  staged : Option (Nat × FwImage)
  migrations : SMap Migration
  transfer : SMap Key
  mgmtOut : List MgmtMsg
  recoveryFailed : Bool
  moduleId : Nat
  absent : NSet
  torusC : Nat
  torusD : Nat
  agenda : List Due
  timers : List (Nat × Due)
  turn : Nat
  marks : SMap Nat
  draws : Nat
  cur : Cur
  given : Given
  deriving DecidableEq, Repr

/-- A plane at reset: not LOADED (R172). -/
def Plane.reset : Plane := { image := 0, ext := 0, meta' := 0, loaded := false, sparse := 0, pfmt := 0 }

/-- The matrix unit at binding (R172). -/
def MatrixUnit.reset : MatrixUnit := { active := .reset, shadow := .reset, latches := [], busy := none, queue := [] }

/-- An unconfigured ring (R189). -/
def Ring.reset : Ring :=
  { base := 0, space := 0, slot := 0, count := 0, prod := 0, cons := 0, filled := 0, thresh := 0, owner := 0 }

/-- A network interface after a cold start (R275, R370). -/
def Ni.reset : Ni := { nonce := 0, seqs := [], out := [], serial := 0, sink := [], ports := [], seen := [], keys := [] }

/-- A core after a cold start: FREE, with every bay scrubbed (R55, R367); its partition and slot table are log 5, DESIGN CHOICE. -/
def Core.reset : Core :=
  { owner := { id := 0, gen := 0, frozen := false, poison := false }, stopping := false, minting := false, part := 0, slot0 := 0, slot1 := 0, kern := none,
    tag := 0xFFF, strands := [], buf := [], bad := [], lineGen := [], bayGen := [], full := [], pend := [], scrub := [],
    locks := [], lockFrom := [], barWaiting := [], quiescent := false, sb := [], drains := 0, arms := 0, dcache := [], icache := [], tlb := [],
    mtx := .reset, rings := [], copies := [], copySerial := 0, queue := [], inbox := [], inboxOrder := 0,
    leases := [], ni := .reset, barriers := [], views := [] }

/-- A die after a cold start. -/
def Die.reset : Die :=
  { dirty := [], writers := [], hostLines := [], counters := [], tcache := [], levels := [], services := [], faultQueue := [],
    tagFails := [], gcmFails := [], crcFails := [], log := [], flagged := false, launches := [], lost := [], keys := [], corrected := 0 }

/-- The slots and images of R393 after a cold start: slot A active. -/
def FwImage.reset : FwImage := { version := 0, digest := 0, valid := true }

/-- The module right after a successful cold start (R391) (log 4, DEDUCED): no context, every core FREE, memory scrubbed, the
keys derived from the seed (log 7, DESIGN CHOICE), and nothing due. -/
def State.reset : State :=
  { now := 0, startClk := 0, starts := 0, mem := [], lineTag := [], lineKey := [], poisoned := [], duty := 0,
    cores := [], dies := [], contexts := [], kernels := [], owned := [], packets := [], packetNo := 0, links := [], dark := [],
    leased := [], fifos := [], grants := 0, lastChannel := [], gnonces := [], tokenAt := 0,
    tokenPacket := none, fibreOut := [], starve := [], fabricKey := Config.derivedKey 0,
    linkKeys := [0, 1, 2, 3, 4, 5, 6, 7].map fun d => (d, Config.derivedKey (d + 1)), moduleKey := Config.derivedKey 9,
    transportKey := Config.derivedKey 10, attestKey := Config.derivedKey 11, hostQueues := [],
    dutyReqs := [], pageReqs := [], completions := [], shootdowns := [], atsDone := [], alarms := [], errors := [], level3 := false,
    needsStart := false, starting := false, startGiven := .none, heldCmds := [], trainedAt := [],
    manifests := [(0, 0), (1, 0), (2, 0)], failedStarts := 0, repairMap := [],
    fwSlots := [(0, .reset), (1, .reset), (2, .reset)], fwActive := 0, staged := none,
    migrations := [], transfer := [], mgmtOut := [], recoveryFailed := false, moduleId := 0, absent := [], torusC := 32, torusD := 32, agenda := [], timers := [], turn := 0, marks := [], draws := 0,
    cur := { place := { core := 0, strand := 0 }, member := 0, epc := 0, stop := none, mask := none }, given := .none }

/-! ### Reading and writing the parts -/

/-- A core; one that is not listed is in its reset state. -/
def State.core (s : State) (c : Nat) : Core := mgetD s.cores c .reset
/-- The state with a core changed. -/
def State.setCore (s : State) (c : Nat) (x : Core) : State := { s with cores := mset s.cores c x }
/-- A strand of a core; one that is not listed is UNBOUND. -/
def Core.strand (x : Core) (k : Nat) : Strand := mgetD x.strands k .reset
/-- The core with a strand changed. -/
def Core.setStrand (x : Core) (k : Nat) (t : Strand) : Core := { x with strands := mset x.strands k t }
/-- The strand at a place. -/
def State.strand (s : State) (p : Place) : Strand := (s.core p.core).strand p.strand
/-- The state with the strand at a place changed. -/
def State.setStrand (s : State) (p : Place) (t : Strand) : State :=
  s.setCore p.core ((s.core p.core).setStrand p.strand t)
/-- A die; one that is not listed is in its reset state. -/
def State.die (s : State) (d : Nat) : Die := mgetD s.dies d .reset
/-- The state with a die changed. -/
def State.setDie (s : State) (d : Nat) (x : Die) : State := { s with dies := mset s.dies d x }
/-- The state with a core changed by a function. -/
def State.modCore (s : State) (c : Nat) (f : Core → Core) : State := s.setCore c (f (s.core c))
/-- The state with a strand changed by a function. -/
def State.modStrand (s : State) (p : Place) (f : Strand → Strand) : State := s.setStrand p (f (s.strand p))
/-- The state with a die changed by a function. -/
def State.modDie (s : State) (d : Nat) (f : Die → Die) : State := s.setDie d (f (s.die d))
/-- The state with a step added to what is due now. -/
def State.later (s : State) (i : Instr) (g : Given) : State := { s with agenda := s.agenda ++ [{ step := i, given := g }] }
/-- The state with a step due a number of clk from now. -/
def State.after (s : State) (n : Nat) (i : Instr) (g : Given) : State :=
  { s with timers := s.timers ++ [(s.now + n, { step := i, given := g })] }
/-- Whether commands are held until a start ends, and no request is fetched (R391, R398). -/
def State.holdsCommands (s : State) : Bool := s.needsStart || s.starting
/-- CYCLE (R42). -/
def State.cycle (s : State) : Nat := s.now - s.startClk

/-- What a step answers. -/
abbrev Res := Host.Outcome State Fault Refusal

end Sys2Proof.Machine
end

