-- ==== Sys2Proof/Machine/Geometry.lean ====
section
/-!
DEFINITION. Where cores, switches and stations stand (R2, R14, R17, R18) and the layout of the local buffers (R44, R45).
-/

namespace Sys2Proof.Machine

/-- Cores on a die (R11). -/
def coresPerDie : Nat := 20480
/-- Core numbers below this are the module's cores; from here on, the fabric manager core of die d is this + d. -/
def managerBase : Nat := 327680

/-- Whether a core number names a fabric manager core (R18). -/
def isManager (c : Nat) : Bool := managerBase ≤ c && c < managerBase + 16

/-- The die of a core. -/
def dieOf (c : Nat) : Nat := if isManager c then c - managerBase else c / coresPerDie

/-- The die-local column of a core; a manager core stands behind switch (64, 80) (R18). -/
def xOf (c : Nat) : Nat := if isManager c then 64 else c % 128
/-- The die-local row of a core. -/
def yOf (c : Nat) : Nat := if isManager c then 80 else c % coresPerDie / 128

/-- The core at a die-local place. -/
def coreAt (d x y : Nat) : Nat := d * coresPerDie + y * 128 + x

/-- Package column and row of a core (R2). -/
def pxOf (c : Nat) : Nat := 128 * (dieOf c % 4) + xOf c
def pyOf (c : Nat) : Nat := 160 * (dieOf c / 4) + yOf c

/-- The core at package coordinates (R2). -/
def coreAtPkg (x y : Nat) : Nat := coreAt (y / 160 * 4 + x / 128) (x % 128) (y % 160)

/-- The cores of a rectangle in ascending package order (R324). -/
def Rect.cores (r : Rect) : List Nat :=
  ((List.range (r.y1 + 1 - r.y0)).map fun j =>
    (List.range (r.x1 + 1 - r.x0)).map fun i => coreAtPkg (r.x0 + i) (r.y0 + j)).flatten

/-- Whether a core lies in a rectangle. -/
def Rect.has (r : Rect) (c : Nat) : Bool :=
  !isManager c && r.x0 ≤ pxOf c && pxOf c ≤ r.x1 && r.y0 ≤ pyOf c && pyOf c ≤ r.y1

/-- Whether a core lies in one of some rectangles. -/
def inRects (rs : List Rect) (c : Nat) : Bool := rs.any fun r => r.has c

/-- Ascending package order of cores (R324, R336): rows, then columns. -/
def pkgKey (c : Nat) : Nat := pyOf c * 512 + pxOf c

/-- An element put into a list in the order of a key. -/
def insertBy {α : Type} (k : α → Nat) (a : α) : List α → List α
  | [] => [a]
  | b :: r => if k a ≤ k b then a :: b :: r else b :: insertBy k a r

/-- A list in the order of a key. -/
def sortBy {α : Type} (k : α → Nat) (l : List α) : List α := l.foldr (insertBy k) []

/-- The station that serves a line (R14). -/
def stationOf (pa : Nat) : Nat := pa / 64 % 16

/-- The station that holds a dependence counter (R14, R307). -/
def counterStation (n : Nat) : Nat := n / 256

/-- The core whose switch a station attaches to (R14). -/
def stationSwitch (d j : Nat) : Nat := coreAt d (8 * j + 4) 80

/-- The home stack of a device address, and the die whose base it is attached to (R15). -/
def homeStack (pa : Nat) : Nat := pa / 1024 % 12
def stackDie (k : Nat) : Nat := [0, 1, 2, 3, 4, 7, 8, 11, 12, 13, 14, 15].getD k 0
def homeDie (pa : Nat) : Nat := stackDie (homeStack pa)

/-! ### Local buffers (R44, R45) -/

/-- Size of the buffer of a space 1 to 4. -/
def bufSize : Nat → Nat
  | 1 => 98304
  | 2 => 65536
  | 3 => 65536
  | 4 => 32768
  | _ => 0

/-- Local offset at which the buffer of a space begins. -/
def bufBase : Nat → Nat
  | 1 => 0
  | 2 => 0x18000
  | 3 => 0x28000
  | _ => 0x38000

/-- First G offset of the loft (R32). -/
def loftBase : Nat := 0x6000

/-- Bytes of a loft slot under a partition with n vector strands (R32). -/
def loftBytes (n : Nat) : Nat := 512 / n

/-- Whether bytes o to o + n − 1 of a space lie in its buffer, below the loft (R32, R47). -/
def inBuffer (space o n : Nat) : Bool :=
  o + n ≤ (if space = 4 then loftBase else bufSize space) && 1 ≤ space && space ≤ 4

/-- Bay of a local offset (R45). -/
def bayOf (off : Nat) : Nat := off / 4096
/-- Local line of a local offset. -/
def lineOf (off : Nat) : Nat := off / 64

/-- First address of the local window (R46). -/
def windowBase : Nat := 0xFF00000000000000

/-- Lanes of a vector strand under partition code p (R30). -/
def lanesOf (p : Nat) : Nat := 16 / 2 ^ p
/-- Vector strands under partition code p (R30). -/
def vectorStrands (p : Nat) : Nat := 2 ^ p

/-- The switch a core stands at: a manager core's is (64, 80) of its die (R18). -/
def switchOf (c : Nat) : Nat := if isManager c then coreAt (dieOf c) 64 80 else c

end Sys2Proof.Machine
end

