-- ==== Sys2Proof/Machine/Local.lean ====
section
/-!
DEFINITION. Local buffers: reads and writes under generations (R52), full/empty tags (R49), skims and scrubs (R53 to R55),
bay locks and engine-pending lines as conditions of an access (R51, R77).
-/

namespace Sys2Proof.Machine

/-- Current generation of a bay (R52). -/
def Core.bayGeneration (x : Core) (b : Nat) : Nat := mgetD x.bayGen b 0

/-- Whether a local line is at its bay's current generation (R52). -/
def Core.live (x : Core) (l : Nat) : Bool := mgetD x.lineGen l 0 == x.bayGeneration (l / 64)

/-- One byte of a local buffer (R52): a stale line reads as zeros. -/
def Core.readLocalByte (x : Core) (a : Nat) : Byte := if x.live (lineOf a) then mgetD x.buf a 0 else 0

/-- Bytes of a local buffer. -/
def Core.readLocal (x : Core) (a : Nat) : Nat → List Byte
  | 0 => []
  | n + 1 => x.readLocalByte a :: x.readLocal (a + 1) n

/-- Consecutive keys taken out of a map. -/
def mdelRange {β : Type} (m : SMap β) (a n : Nat) : SMap β := mfilter (fun k _ => !(a ≤ k && k < a + n)) m

/-- A line brought to the current generation (R52): zero bytes and empty tags if it was stale. -/
def Core.freshen (x : Core) (l : Nat) : Core :=
  if x.live l then x else
    { x with
      buf := mdelRange x.buf (64 * l) 64
      bad := mdelRange x.bad (64 * l) 64
      full := mdelRange x.full (8 * l - lineOf 0x38000 * 8) (if lineOf 0x38000 ≤ l then 8 else 0)
      lineGen := mput 0 x.lineGen l (x.bayGeneration (l / 64)) }

/-- One byte written to a local buffer (R52). -/
def Core.writeLocalByte (x : Core) (a : Nat) (b : Byte) : Core :=
  let y := x.freshen (lineOf a)
  { y with buf := mput 0 y.buf a b, bad := mdel y.bad a }

/-- Consecutive bytes written to a local buffer (R52). -/
def Core.writeLocal (x : Core) (a : Nat) : List Byte → Core
  | [] => x
  | b :: r => (x.writeLocalByte a b).writeLocal (a + 1) r

/-- Whether G word w is full (R49): a stale line's tags are empty. -/
def Core.isFull (x : Core) (w : Nat) : Bool := x.live (lineOf (0x38000 + 8 * w)) && mhas x.full w

/-- The tag of G word w set or cleared, its line brought to the current generation (R49, R52). -/
def Core.setFull (x : Core) (w : Nat) (v : Bool) : Core :=
  let y := x.freshen (lineOf (0x38000 + 8 * w))
  { y with full := if v then mset y.full w () else mdel y.full w }

/-- A doubleword of G by its offset. -/
def Core.readG (x : Core) (o : Nat) (n : Nat) : List Byte := x.readLocal (0x38000 + o) n

/-- A skim of one bay (R53, R54, R55): the generation advances, engine-pending bits are clear; from 0xFF the bay is
scrubbed, its lines and tags zero and its generation 0, and accesses wait until the scrub completes. -/
def Core.skimBay (x : Core) (b : Nat) : Core :=
  let y := { x with pend := mdelRange x.pend (64 * b) 64 }
  if x.bayGeneration b = 0xFF then
    { y with
      buf := mdelRange y.buf (4096 * b) 4096
      bad := mdelRange y.bad (4096 * b) 4096
      full := if 56 ≤ b then mdelRange y.full (512 * (b - 56)) 512 else y.full
      lineGen := mdelRange y.lineGen (64 * b) 64
      bayGen := mdel y.bayGen b
      scrub := mset y.scrub b () }
  else { y with bayGen := mset y.bayGen b (x.bayGeneration b + 1) }

/-- A skim of several bays (R53). -/
def Core.skimBays (x : Core) (bs : List Nat) : Core := bs.foldl Core.skimBay x

/-- Every bay of a core. -/
def allBays : List Nat := List.range 64

/-! ### What an access waits for -/

/-- Whether an access by a strand (none: by another unit) to a bay waits on its lock (R77). -/
def Core.lockedAgainst (x : Core) (who : Option Nat) (b : Nat) : Bool :=
  match mget x.locks b with
  | none => false
  | some h => who != some h

/-- The local lines that bytes a to a + n − 1 touch. -/
def linesOf (a n : Nat) : List Nat := (List.range (lineOf (a + (n - 1)) + 1 - lineOf a)).map (lineOf a + ·)

/-- What an access to one local line waits for: a locked bay (R77), an engine-pending line (R51), a scrub (R55). -/
def Core.lineWait (x : Core) (who : Option Nat) (l : Nat) : Option Lack :=
  if x.lockedAgainst who (l / 64) then some (.bay (l / 64))
  else if mhas x.scrub (l / 64) then some (.scrub (l / 64))
  else if mhas x.pend l then some (.pendingLine l)
  else none

/-- What an access to a range of local bytes waits for. -/
def Core.localWait (x : Core) (who : Option Nat) (a n : Nat) : Option Lack :=
  (linesOf a n).findSome? fun l => x.lineWait who l

/-- Whether a range of local bytes touches a poisoned line: one with a byte that nothing has overwritten (R373). -/
def Core.localPoisoned (x : Core) (a n : Nat) : Bool :=
  (linesOf a n).any fun l => x.live l && x.bad.any fun e => lineOf e.1 == l

end Sys2Proof.Machine
end

