-- ==== Sys2Proof/Machine/Memory.lean ====
section
/-!
DEFINITION. Device and host memory: the home stacks, the granary of each die, line tags and page keys (R14 to R16, R246 to
R251, R360, R362), and the store buffer's drain (R126).
A physical address below 2^48 is device-physical; host address h stands at 2^48 + h (log 10, DESIGN CHOICE).
-/

namespace Sys2Proof.Machine

/-- First physical address of host memory in this model (log 10, DESIGN CHOICE). -/
def hostBase : Nat := 2 ^ 48

/-- Bytes of device memory (R15). -/
def deviceSize : Nat := 0xC000000000

/-- Whether a physical address is host memory. -/
def isHost (pa : Nat) : Bool := hostBase ≤ pa

/-- A home byte; a byte that nothing has written reads as 0 (log 10, DESIGN CHOICE). -/
def State.homeByte (s : State) (pa : Nat) : Byte := mgetD s.mem pa 0

/-- Memory is in its canonical form: addresses strictly rising, no listed byte equal to what an unlisted one reads as. -/
def Memory.wf (m : List Host.Cell) : Bool := msorted m && m.all fun e => e.2 != 0

/-- A line's bytes as another key reads them: what its ciphertext decrypts to (R360). -/
def recrypt (k k' : Key) (addr : Nat) (b : List Byte) : List Byte :=
  (Aes.xtsDecrypt k' (Config.xtsSecond k') addr
    (Aes.xtsEncrypt k (Config.xtsSecond k) addr (b.map BitVec.toNat))).map (BitVec.ofNat 8)

/-- A home line as a key reads it: its plaintext, if that key wrote it or nothing has (R360) (log 23, DEDUCED). -/
def State.homeLine (s : State) (line : Nat) (key : Key) : List Byte :=
  let b := (readBytes s.mem (64 * line) 64)
  match mget s.lineKey line with
  | none => b
  | some k => if k = key then b else recrypt k key (64 * line) b

/-- One byte of device memory as the cores of a die see it under a page's key and generation (R246, R248, R362) (log 19, DEDUCED). -/
def State.devByte (s : State) (d : Nat) (key : Key) (gen pa : Nat) : Byte :=
  if mgetD s.lineTag (pa / 64) 0 ≠ gen then 0
  else
    match mget (s.die d).dirty pa with
    | some b => b
    | none =>
      match mget s.lineKey (pa / 64) with
      | none => s.homeByte pa
      | some k => if k = key then s.homeByte pa else (s.homeLine (pa / 64) key).getD (pa % 64) 0

/-- One byte of host memory as the cores of a die see it: a line its granary caches may be old (R251). -/
def State.hostByte (s : State) (d : Nat) (pa : Nat) : Byte :=
  match mget (s.die d).dirty pa with
  | some b => b
  | none =>
    match mget (s.die d).hostLines (pa / 64) with
    | some l => l.extractLsb' (8 * (pa % 64)) 8
    | none => s.homeByte pa

/-- One byte of physical memory as the cores of a die see it. -/
def State.physByte (s : State) (d : Nat) (key : Key) (gen pa : Nat) : Byte :=
  if isHost pa then s.hostByte d pa else s.devByte d key gen pa

/-- Bytes of physical memory as the cores of a die see them. -/
def State.physRead (s : State) (d : Nat) (key : Key) (gen pa : Nat) : Nat → List Byte
  | 0 => []
  | n + 1 => s.physByte d key gen pa :: s.physRead d key gen (pa + 1) n

/-- A line's home bytes as one vector. -/
def lineVec (b : List Byte) : BitVec 512 := BitVec.ofNat 512 (leNat b)

/-- A die's granary takes the host line that is read (R251). -/
def State.cacheHostLine (s : State) (d pa : Nat) : State :=
  if isHost pa && !mhas (s.die d).hostLines (pa / 64) then
    s.modDie d fun x => { x with
      hostLines := mset x.hostLines (pa / 64) (lineVec (readBytes s.mem (64 * (pa / 64)) 64)) }
  else s

/-- A device line whose tag is not a page's generation becomes zeros under that generation (R52, R362); the dies' copies of
a stale line are dropped. -/
def State.retagLine (s : State) (line gen : Nat) : State :=
  if mgetD s.lineTag line 0 = gen then s else
    { s with
      mem := mdelRange s.mem (64 * line) 64
      poisoned := mdelRange s.poisoned (64 * line) 64
      lineKey := mdel s.lineKey line
      lineTag := mput 0 s.lineTag line gen
      dies := mmap (fun _ x => { x with
        dirty := mdelRange x.dirty (64 * line) 64, writers := mdel x.writers line }) s.dies }

/-- A device line held under a page's key: the bytes that key reads (R360). -/
def State.rekeyLine (s : State) (line : Nat) (key : Key) : State :=
  { s with
    mem := match mget s.lineKey line with
      | none => s.mem
      | some k => if k = key then s.mem else writeBytes s.mem (64 * line) (s.homeLine line key)
    lineKey := mset s.lineKey line key }

/-- A device line made current for a page, under its generation and its key. -/
def State.freshenLine (s : State) (line : Nat) (key : Key) (gen : Nat) : State :=
  (s.retagLine line gen).rekeyLine line key

/-- One byte written into a die's granary by a core (R248): it is dirty until it is written back. -/
def State.granaryByte (s : State) (d core pa : Nat) (b : Byte) : State :=
  s.modDie d fun x => { x with
    dirty := mset x.dirty pa b
    writers := mset x.writers (pa / 64) (let w := mgetD x.writers (pa / 64) []; if w.contains core then w else core :: w) }

/-- Bytes written to physical memory by a core of a die, under a page's key and generation. -/
def State.physWrite (s : State) (d core : Nat) (key : Key) (gen pa : Nat) : List Byte → State
  | [] => s
  | b :: r =>
    let s1 := if isHost pa then s else s.freshenLine (pa / 64) key gen
    ((({ s1 with poisoned := mdel s1.poisoned pa }).granaryByte d core pa b)).physWrite d core key gen (pa + 1) r

/-- Whether bytes of physical memory lie in a poisoned line (R373). -/
def State.physPoisoned (s : State) (pa n : Nat) : Bool :=
  s.poisoned.any fun e => pa / 64 ≤ e.1 / 64 && e.1 / 64 ≤ (pa + (n - 1)) / 64

/-- A dirty line of a die written back (R248): its dirty bytes alone go home, and every other die's copy of a host line is invalid. -/
def State.writeBack (s : State) (d line : Nat) : State :=
  let x := s.die d
  let mine := mfilter (fun k _ => k / 64 == line) x.dirty
  let s1 := { s with
    mem := mine.foldl (fun (m : SMap Byte) (e : Nat × Byte) => mput 0 m e.1 e.2) s.mem
    dies := if mine.isEmpty then s.dies else mmap (fun _ y => { y with hostLines := mdel y.hostLines line }) s.dies }
  s1.setDie d { x with
    dirty := mfilter (fun k _ => !(k / 64 == line)) x.dirty
    writers := mdel x.writers line
    hostLines := match mget x.hostLines line with
      | none => x.hostLines
      | some _ => mset x.hostLines line (lineVec (readBytes s1.mem (64 * line) 64)) }

/-- A line evicted from a die's granary (R248): what is dirty goes home, and the die has no copy of it. -/
def State.evictDieLine (s : State) (d line : Nat) : State :=
  (s.writeBack d line).modDie d fun x => { x with hostLines := mdel x.hostLines line }

/-- The lines that a die's granary holds copies of that a core can tell from none: those written and not written back, and host lines. -/
def Die.granaryLines (x : Die) : List Nat := mkeys x.writers ++ (mkeys x.hostLines).filter fun l => !mhas x.writers l

/-- Lines of one station's slice of a granary: 4 MiB (R14). -/
def sliceLines : Nat := 65536

/-- Every dirty line of a line's bytes taken home from every die: the recall of R250. -/
def State.recall (s : State) (line : Nat) : State :=
  (mkeys s.dies).foldl (fun s d => s.writeBack d line) s

/-- A line taken exclusively (R250): its dirty bytes are home, and no die has a copy of it. -/
def State.recallAll (s : State) (line : Nat) : State :=
  let s1 := s.recall line
  { s1 with dies := mmap (fun _ x => { x with hostLines := mdel x.hostLines line }) s1.dies }

/-- Lines of a die that a core wrote since they were last written back (R252). -/
def Die.linesBy (x : Die) (core : Nat) : List Nat := (x.writers.filter fun e => e.2.contains core).map (·.1)

/-- Bytes as tables, descriptors and records in memory are read by a station or a launcher of a die, whatever the page
they lie in (log 24, DEDUCED). -/
def State.rawByte (s : State) (d pa : Nat) : Byte :=
  if isHost pa then s.hostByte d pa else
    match mget (s.die d).dirty pa with
    | some b => b
    | none => s.homeByte pa

/-- Bytes read by a station. -/
def State.rawRead (s : State) (d pa : Nat) : Nat → List Byte
  | 0 => []
  | n + 1 => s.rawByte d pa :: s.rawRead d (pa + 1) n

/-- A number of n bytes read by a station. -/
def State.rawNat (s : State) (d pa n : Nat) : Nat := leNat (s.rawRead d pa n)

/-- Bytes written home by a station or by the security core, with no dirty copy left in any die (R250, R352). -/
def State.rawWrite (s : State) (pa : Nat) (b : List Byte) : State :=
  let lines := (List.range (((pa + (b.length - 1)) / 64) + 1 - pa / 64)).map (pa / 64 + ·)
  let s1 := lines.foldl (fun s l => s.recall l) s
  { s1 with mem := writeBytes s1.mem pa b, poisoned := mdelRange s1.poisoned pa b.length }

/-! ### The store buffer (R126, R246) -/

/-- Whether a store-buffer entry holds one of the bytes pa to pa + n − 1. -/
def SbEntry.overlaps (e : SbEntry) (pa n : Nat) : Bool := pa < e.pa + e.bytes.length && e.pa < pa + n

/-- Whether a store-buffer entry holds all of the bytes pa to pa + n − 1. -/
def SbEntry.covers (e : SbEntry) (pa n : Nat) : Bool := e.pa ≤ pa && pa + n ≤ e.pa + e.bytes.length

/-- What a load finds in the store buffer (R125): the bytes forwarded from the youngest store that holds one of its
bytes, if that store covers them all. -/
inductive SbHit where
  | miss
  | forward (b : List Byte)
  | partly
  deriving DecidableEq, Repr

/-- The youngest overlapping store decides; the buffer lists its entries oldest first. -/
def sbLookup (sb : List SbEntry) (pa n : Nat) : SbHit :=
  match sb.reverse.find? fun e => e.overlaps pa n with
  | none => .miss
  | some e => if e.covers pa n then .forward ((e.bytes.drop (pa - e.pa)).take n) else .partly

/-- The oldest entry of a core's store buffer performed (R126, R246). -/
def State.drainOne (s : State) (c : Nat) : State :=
  match (s.core c).sb with
  | [] => s
  | e :: r =>
    (s.modCore c fun x => { x with sb := r, drains := x.drains + 1 }).physWrite (dieOf c) c e.key e.gen e.pa e.bytes

/-- Whether the store buffer holds an entry of a strand. -/
def Core.sbOf (x : Core) (k : Nat) : Bool := x.sb.any fun e => e.strand == k

/-! ### Fixed paths (R286) -/

/-- Whether a link lies on the path of packets without a route word between two switches: along X, and then along Y. -/
def onFixedPath (a b l : Nat) : Bool :=
  let c := l / 4
  l < 4 * managerBase &&
  (match l % 4 + 1 with
   | 1 => pyOf c == pyOf a && pxOf a ≤ pxOf c && pxOf c < pxOf b
   | 2 => pyOf c == pyOf a && pxOf b < pxOf c && pxOf c ≤ pxOf a
   | 3 => pxOf c == pxOf b && pyOf b < pyOf c && pyOf c ≤ pyOf a
   | _ => pxOf c == pxOf b && pyOf a ≤ pyOf c && pyOf c < pyOf b)

/-- Whether a request (VC0) or a response (VC1) between two switches finds every link of its fixed path open: UP, with a detour in place
(R288), or for a response NARROWED (R287). The accesses to device memory and to counters, which the model performs as events without
packets, wait until it does (log 20, DESIGN CHOICE). -/
def State.fixedOpen (s : State) (a b : Nat) (response : Bool) : Bool :=
  s.links.all fun e => !onFixedPath a b e.1 || e.2.detour || e.2.state == .up || (response && e.2.state == .narrowed)

/-- Whether a core's request to a station, and the answer, find their way. -/
def State.stationOpen (s : State) (core d station : Nat) : Bool :=
  s.fixedOpen (switchOf core) (stationSwitch d station) false && s.fixedOpen (stationSwitch d station) (switchOf core) true

/-- Whether a core's access to a line of physical memory finds its way: to the station of its die, and from there to the line's home
(R14, R15). -/
def State.memoryOpen (s : State) (core pa : Nat) : Bool :=
  let d := dieOf core
  let st := stationSwitch d (stationOf pa)
  s.links.isEmpty || (s.stationOpen core d (stationOf pa) &&
    (hostBase ≤ pa || (s.fixedOpen st (stationSwitch (homeDie pa) (stationOf pa)) false &&
      s.fixedOpen (stationSwitch (homeDie pa) (stationOf pa)) st true)))

end Sys2Proof.Machine
end

