-- ==== Sys2Proof/Machine/Translate.lean ====
section
/-!
DEFINITION. Translation in two stages (R350 to R355), the TLBs and translation caches (R354), and the page states (R353).
Access kinds are 0 load, 1 store, 2 fetch, 3 atomic, 4 AMOCAS, which needs what an atomic needs but sets D only when it writes
(R136).
-/

namespace Sys2Proof.Machine

/-- Address bits [47:15] of an entry (R352). -/
def pteFrame (e : Nat) : Nat := bits e 28 33 * 32768
def pteV (e : Nat) : Bool := bit e 0
def pteR (e : Nat) : Bool := bit e 1
def pteW (e : Nat) : Bool := bit e 2
def pteX (e : Nat) : Bool := bit e 3
def pteCow (e : Nat) : Bool := bit e 4
def pteHost (e : Nat) : Bool := bit e 5
def pteA (e : Nat) : Bool := bit e 6
def pteD (e : Nat) : Bool := bit e 7
def pteBusy (e : Nat) : Bool := bit e 8
def pteLeaf (e : Nat) : Bool := bit e 9
def pteEv (e : Nat) : Bool := bit e 10
def pteKey (e : Nat) : Nat := bits e 12 6
def pteGen (e : Nat) : Nat := bits e 18 10

/-- An entry the walker treats as absent (R352). -/
def pteAbsent (e : Nat) : Bool := !pteV e && !pteEv e

/-- The permissions an access needs of an entry (R352). -/
def ptePermits (e kind : Nat) : Bool :=
  match kind with
  | 0 => pteR e
  | 1 => pteW e
  | 2 => pteX e
  | _ => pteR e && pteW e

/-- Whether an access kind stores. -/
def storesKind (kind : Nat) : Bool := kind == 1 || kind == 3 || kind == 4

/-- Whether an access kind sets D in the leaves that it is translated by (R352). -/
def dirtiesKind (kind : Nat) : Bool := kind == 1 || kind == 3

/-- A leaf of a table walk: the entry, where it stands, and the size of its page. -/
structure Leaf where
  pte : Nat
  addr : Nat
  size : Nat
  deriving DecidableEq, Repr

/-- Offset of an address's entry in its table at a level (R350); level 3 uses 64 entries. -/
def pteOffset (a : Nat) : Nat → Nat
  | 3 => 8 * bits a 51 6
  | l => 8 * bits a (15 + 12 * l) 12

/-- The physical address of an intermediate address under a system leaf (log 10, DESIGN CHOICE for host frames). -/
def leafPa (f : Leaf) (a : Nat) : Nat :=
  (if pteHost f.pte then hostBase else 0) + pteFrame f.pte / f.size * f.size + a % f.size

/-- How a walk ends (R353, R355). -/
inductive Xlat where
  /-- An entry, with the addresses of the context and system leaves whose A and D bits the walker sets. -/
  | ok (e : TlbEntry) (ctxLeaf sysLeaf : Nat)
  /-- A system-stage miss at an intermediate address. -/
  | sysMiss (ia : Nat)
  /-- An EVICTED page, or one whose fault is in flight. -/
  | evicted
  /-- A store to a SHARED-COW or COPYING page with W = 1, of this size. -/
  | cow (size : Nat)
  /-- A table entry in a poisoned line, at this address (R373). -/
  | spoilt (pa : Nat)
  /-- A fault that the page service cannot satisfy. -/
  | bad
  deriving DecidableEq, Repr

/-- A context's block of the translation (R351). -/
def State.context (s : State) (id : Nat) : Option Context := mget s.contexts id

/-- A context's entry in the key stores: its die's, or another's, from which it is had under the transport key (R369). -/
def State.storeEntry (s : State) (d ctx : Nat) : Option KeyEntry :=
  match mget (s.die d).keys ctx with
  | some e => some e
  | none => s.dies.findSome? fun e => mget e.2.keys ctx

/-- A key slot of a context, as a station of a die has it (R369). -/
def State.keySlot (s : State) (d ctx n : Nat) : Option KeySlot := (s.storeEntry d ctx).bind fun e => mget e.slots n

/-- The part of an address that selects an entry at a level (R350). -/
def levelIndex (a level : Nat) : Nat := a / 2 ^ (15 + 12 * level)

/-- A pointer that a walk has completed, as the walkers have cached it (R354). -/
def State.cachedPte (s : State) (d ctx : Nat) (system : Bool) (level a : Nat) : Option Nat :=
  ((s.die d).levels.find? fun e =>
    e.ctx == ctx && e.system == system && e.level == level && e.index == levelIndex a level).map (·.pte)

/-- The entry of a level as a walker has it (R354): a pointer that a walk has completed, or from memory. -/
def State.levelPte (s : State) (d ctx : Nat) (system : Bool) (level a p : Nat) : Nat :=
  (s.cachedPte d ctx system level a).getD (s.rawNat d p 8)

/-- Whether a walker that reads an entry of a level meets a poisoned line (R373). -/
def State.pteSpoilt (s : State) (d ctx : Nat) (system : Bool) (level a p : Nat) : Bool :=
  (s.cachedPte d ctx system level a).isNone && s.physPoisoned p 8

/-- The system stage: from a table at a device-physical address down to the leaf of an intermediate address (R351). -/
def State.sysWalk (s : State) (d ctx a : Nat) : Nat → Nat → Except Xlat Leaf
  | 0, t =>
    let p := t + pteOffset a 0
    let e := s.rawNat d p 8
    if deviceSize ≤ p then .error .bad
    else if s.physPoisoned p 8 then .error (.spoilt p)
    else if pteV e then .ok { pte := e, addr := p, size := 32768 } else .error (.sysMiss a)
  | l + 1, t =>
    let p := t + pteOffset a (l + 1)
    let e := s.levelPte d ctx true (l + 1) a p
    if deviceSize ≤ p then .error .bad
    else if s.pteSpoilt d ctx true (l + 1) a p then .error (.spoilt p)
    else if !pteV e then .error (.sysMiss a)
    else if l = 0 && pteLeaf e then .ok { pte := e, addr := p, size := 2 ^ 27 }
    else s.sysWalk d ctx a l (pteFrame e)

/-- Whether a frame that a system leaf names may be reached: a device frame below the end of device memory (R16), a host page in the
host's address space under the context's PASID (R352). -/
def State.frameThere (s : State) (ctx : Nat) (f : Leaf) (a : Nat) : Bool :=
  if pteHost f.pte then Config.hostMaps (((s.context ctx).map (·.pasid)).getD 0) (leafPa f a / 32768) else leafPa f a < deviceSize

/-- The context stage: each table pointer is an intermediate address that the system stage translates (R351). The walker's own reads
and marks of the tables need no permission of the table's page and set no A or D in its leaf, and a pointer gets no A (log 103,
DEDUCED). -/
def State.ctxWalk (s : State) (d ctx sroot a : Nat) : Nat → Nat → Except Xlat Leaf
  | l, ia =>
    match s.sysWalk d ctx (ia + pteOffset a l) 3 sroot with
    | .error x => .error x
    | .ok f =>
      let p := leafPa f (ia + pteOffset a l)
      if !s.frameThere ctx f (ia + pteOffset a l) then .error .bad
      else
        match l with
        | 0 =>
          let e := s.rawNat d p 8
          if s.physPoisoned p 8 then .error (.spoilt p)
          else if pteAbsent e then .error .bad else .ok { pte := e, addr := p, size := 32768 }
        | l + 1 =>
          let e := s.levelPte d ctx false (l + 1) a p
          if s.pteSpoilt d ctx false (l + 1) a p then .error (.spoilt p)
          else if pteAbsent e then .error .bad
          else if l = 0 && pteLeaf e then .ok { pte := e, addr := p, size := 2 ^ 27 }
          else if !pteV e then .error .bad
          else s.ctxWalk d ctx sroot a l (pteFrame e)

/-- The walk of an access of a context on a die (R351 to R353, R355, R361). -/
def State.walk (s : State) (d ctx va kind : Nat) : Xlat :=
  match s.context ctx with
  | none => .bad
  | some c =>
    if 2 ^ 57 ≤ va then .bad else
    match s.ctxWalk d ctx c.tb.sroot va 3 c.tb.croot with
    | .error x => x
    | .ok f =>
      if !pteV f.pte then (if f.size = 32768 then .evicted else .bad)
      else if !ptePermits f.pte kind then .bad
      else if storesKind kind && pteCow f.pte then .cow f.size
      else
        match (s.keySlot d ctx (pteKey f.pte)).bind (·.key) with
        | none => .bad
        | some key =>
          let ia := pteFrame f.pte / f.size * f.size + va % f.size
          match s.sysWalk d ctx ia 3 c.tb.sroot with
          | .error x => x
          | .ok g =>
            if !ptePermits g.pte kind || !s.frameThere ctx g ia then .bad
            else
              let size := if pteHost g.pte then 32768 else min f.size g.size
              let both := fun n => bit f.pte n && bit g.pte n
              .ok { ctx := ctx, vbase := va / size * size, size := size, pbase := leafPa g ia / size * size,
                    r := both 1, w := both 2, x := both 3, cow := pteCow f.pte,
                    dirty := dirtiesKind kind || (pteD f.pte && pteD g.pte), key := key, gen := pteGen f.pte }
                f.addr g.addr

/-- A and, for a store, D set in a leaf by an atomic OR (R352). -/
def State.markLeaf (s : State) (d p : Nat) (store : Bool) : State :=
  let e := s.rawNat d p 8
  let e' := e ||| 2 ^ 6 ||| (if store then 2 ^ 7 else 0)
  if e = e' then s else s.rawWrite p (leBytes 8 e')

/-- The physical address of a virtual address under a TLB entry. -/
def TlbEntry.pa (e : TlbEntry) (va : Nat) : Nat := e.pbase + (va - e.vbase)

/-- Whether a TLB entry serves an access (R352, R354): a store needs a page that is not copy on write and whose D bit
is set already, or it is walked anew. -/
def TlbEntry.serves (e : TlbEntry) (ctx va kind : Nat) : Bool :=
  e.ctx == ctx && e.vbase ≤ va && va < e.vbase + e.size &&
  (match kind with
   | 0 => e.r
   | 1 => e.w && !e.cow && e.dirty
   | 2 => e.x
   | 4 => e.r && e.w && !e.cow
   | _ => e.r && e.w && !e.cow && e.dirty)

/-- The TLB entry of a core that serves an access. -/
def Core.tlbFind (x : Core) (va kind : Nat) : Option TlbEntry :=
  x.tlb.find? fun e => e.serves x.owner.id va kind

/-- A list with an entry put in first, bounded by giving up one entry that the implementation chooses (log 11, DESIGN CHOICE). -/
def putBounded {α : Type} (n choice : Nat) (l : List α) (e : α) : List α :=
  e :: (if l.length < n then l else l.eraseIdx (choice % l.length))

/-- The station at which a translation is cached: the page's number mod 16 (R354). -/
def TlbEntry.station (e : TlbEntry) : Nat := e.vbase / e.size % 16

/-- An entry put into a core's TLB and its station's translation cache of 4,096 entries (R354). -/
def State.fillTlb (s : State) (c : Nat) (e : TlbEntry) : State :=
  let v := Config.tlbVictim s.draws
  let same := fun (f : TlbEntry) => f.ctx == e.ctx && f.vbase == e.vbase && f.size == e.size
  let s1 := s.modCore c fun x => { x with tlb := putBounded 64 v (x.tlb.filter fun f => !same f) e }
  let s2 := s1.modDie (dieOf c) fun x => { x with
    tcache := putBounded 4096 v (x.tcache.filter fun f => !same f && f.station == e.station) e ++
      x.tcache.filter fun f => !same f && f.station != e.station }
  { s2 with draws := s2.draws + 1 }

/-- The pointers that a walk of the system stage has gone through. -/
def State.sysLevels (s : State) (d ctx a : Nat) : Nat → Nat → List WalkLevel
  | 0, _ => []
  | l + 1, t =>
    let e := s.levelPte d ctx true (l + 1) a (t + pteOffset a (l + 1))
    if !pteV e || (l = 0 && pteLeaf e) then []
    else { ctx := ctx, system := true, level := l + 1, index := levelIndex a (l + 1), pte := e } :: s.sysLevels d ctx a l (pteFrame e)

/-- The pointers that a walk of both stages has gone through. -/
def State.walkLevels (s : State) (d ctx sroot a : Nat) : Nat → Nat → List WalkLevel
  | 0, ia => s.sysLevels d ctx (ia + pteOffset a 0) 3 sroot
  | l + 1, ia =>
    s.sysLevels d ctx (ia + pteOffset a (l + 1)) 3 sroot ++
      (match s.sysWalk d ctx (ia + pteOffset a (l + 1)) 3 sroot with
       | .error _ => []
       | .ok f =>
         let e := s.levelPte d ctx false (l + 1) a (leafPa f (ia + pteOffset a (l + 1)))
         if !pteV e || (l = 0 && pteLeaf e) then []
         else { ctx := ctx, system := false, level := l + 1, index := levelIndex a (l + 1), pte := e } ::
           s.walkLevels d ctx sroot a l (pteFrame e))

/-- The levels that a walk has completed are cached (R354). The spec gives these caches no size: one that was cached before may be given
up (log 11, DESIGN CHOICE). -/
def State.keepLevels (s : State) (d ctx va : Nat) : State :=
  match s.context ctx with
  | none => s
  | some c =>
    let new := s.walkLevels d ctx c.tb.sroot va 3 c.tb.croot
    { s.modDie d fun x =>
        let old := x.levels.filter fun e => !new.contains e
        { x with levels := new ++ old.eraseIdx (Config.tlbVictim s.draws % (old.length + 1)) } with draws := s.draws + 1 }

/-- A translation taken at once, from the TLB, the translation cache or a walk; a walk that succeeds sets A and D and
fills the caches. -/
def State.translate (s : State) (c va kind : Nat) : State × Except Xlat TlbEntry :=
  match (s.core c).tlbFind va kind with
  | some e => (s, .ok e)
  | none =>
    let ctx := (s.core c).owner.id
    match (s.die (dieOf c)).tcache.find? fun e => e.serves ctx va kind with
    | some e => (s.fillTlb c e, .ok e)
    | none =>
      match s.walk (dieOf c) ctx va kind with
      | .ok e cl sl =>
        let s1 := (s.markLeaf (dieOf c) cl (dirtiesKind kind)).markLeaf (dieOf c) sl (dirtiesKind kind)
        ((s1.keepLevels (dieOf c) ctx va).fillTlb c e, .ok e)
      | x => (s.keepLevels (dieOf c) ctx va, .error x)

/-- What a translation would find, with nothing marked or filled. -/
def State.peek (s : State) (c va kind : Nat) : Except Xlat TlbEntry :=
  let ctx := (s.core c).owner.id
  match (s.core c).tlbFind va kind, (s.die (dieOf c)).tcache.find? fun e => e.serves ctx va kind with
  | some e, _ | none, some e => .ok e
  | none, none =>
    match s.walk (dieOf c) ctx va kind with
    | .ok e _ _ => .ok e
    | x => .error x

/-- D set in the leaves of a page that an AMOCAS writes, in the same event (R136, R352). -/
def State.markDirty (s : State) (c va : Nat) : State :=
  let d := dieOf c
  match s.walk d (s.core c).owner.id va 3 with
  | .ok e cl sl => ((s.markLeaf d cl true).markLeaf d sl true).fillTlb c e
  | _ => s

/-- Whether the page service can satisfy a fault (R355). -/
def Xlat.satisfiable : Xlat → Bool
  | .sysMiss _ | .evicted | .cow _ => true
  | .ok .. | .spoilt _ | .bad => false

/-! ### The page service (R356) -/

/-- The 32 KiB page of an address. -/
def pageOf (a : Nat) : Nat := a / 32768 * 32768

/-- The service kind and page of a satisfiable fault: a page of the virtual address, or of the intermediate address for the system
stage. -/
def Xlat.service (x : Xlat) (va : Nat) : Option (ServiceKind × Nat) :=
  match x with
  | .sysMiss ia => some (.system, pageOf ia)
  | .evicted => some (.faultIn, pageOf va)
  | .cow size => some (.cow, va / size * size)
  | .ok .. | .spoilt _ | .bad => none

/-- BUSY set or cleared in a context-stage leaf (R353, R356). -/
def State.setBusy (s : State) (d ctx va : Nat) (v : Bool) : State :=
  match s.context ctx with
  | none => s
  | some c =>
    match s.ctxWalk d ctx c.tb.sroot va 3 c.tb.croot with
    | .error _ => s
    | .ok f =>
      let e := f.pte
      s.rawWrite f.addr (leBytes 8 (if v then e ||| 2 ^ 8 else if bit e 8 then e - 2 ^ 8 else e))

/-- Whether a service of a kind asks the host (R357, R358). -/
def State.hostServes (s : State) : ServiceKind → Bool
  | .cow => bit s.duty 1
  | _ => bit s.duty 0

/-- The die whose station holds the service record of a page: there is one record for it in the module (R356). -/
def State.serviceDie (s : State) (ctx page : Nat) (k : ServiceKind) : Option Nat :=
  (mfind (fun _ x => x.services.any fun r => r.ctx == ctx && r.va == page && r.kind == k) s.dies).map (·.1)

/-- Whether a waiter is attached to a service record. -/
def State.attached (s : State) (w : Place) : Bool := s.dies.any fun e => e.2.services.any fun r => r.waiters.contains w

/-- A faulting access attached to its service record, or a record opened for it: BUSY set, and the service started in
hardware or by a page request to the host (R356 to R358). A station with 64 records stalls the fault until one closes. -/
def State.openService (s : State) (d ctx : Nat) (x : Xlat) (va : Nat) (write : Bool) (who : Option Place) : State :=
  match x.service va with
  | none => s
  | some (k, page) =>
    let y := s.die d
    let stn := page / 32768 % 16
    match s.serviceDie ctx page k with
    | some e =>
      s.modDie e fun y => { y with services := y.services.map fun r =>
        if r.ctx == ctx && r.va == page && r.kind == k then
          { r with waiters := r.waiters ++ who.toList } else r }
    | none =>
      if 64 ≤ (y.services.filter fun r => r.station == stn).length then s else
      let host := s.hostServes k
      let r : Service :=
        { ctx := ctx, va := page, kind := k, write := write, station := stn, waiters := who.toList, asked := host }
      let s1 := s.setDie d { y with services := y.services ++ [r] }
      let s2 := if k = .system then s1 else s1.setBusy d ctx va true
      if host then
        let q : PageReq :=
          { die := d, ctx := ctx, va := page, kind := k, pasid := ((s.context ctx).map (·.pasid)).getD 0, write := write,
            skim := (0, 0, 0) }
        { s2 with pageReqs := s2.pageReqs ++ [q] }
      else s2.later .pageServiceComplete (.service d ctx page k true (Config.reservedFrame s.draws))

end Sys2Proof.Machine
end

