-- ==== Sys2Proof/Machine/Ops.lean ====
section
/-!
DEFINITION. The named operations every meaning is written with: registers and their written bits (R26 to R29), completing an
instruction and stepping the LOOP nest (R131), waits (R56), unbinding, taking a trap and returning from one (R74, R75),
user-interrupt entry and return (R73).
-/

namespace Sys2Proof.Machine

/-! ### Scalar registers (R26, R27, R29) -/

/-- The key of a scalar register: while the names reach the shadow copy, s26 to s31 are keys 32 to 37 (R29). -/
def scalarKey (shadow : Bool) (r : SReg) : Nat := if shadow && 26 ≤ r.val then r.val + 6 else r.val

/-- A scalar register's value: s0 reads 0, and so does one whose written bit is clear. -/
def Strand.s (t : Strand) (r : SReg) : Word := if r = 0 then 0 else mgetD t.scalars (scalarKey t.shadow r) 0

/-- A write of a scalar register: a write to s0 is discarded; any other sets the written bit. -/
def Strand.setS (t : Strand) (r : SReg) (v : Word) : Strand :=
  if r = 0 then t else { t with scalars := mset t.scalars (scalarKey t.shadow r) v }

/-! ### Masks, vectors and routes -/

/-- A mask register: m0 reads all-true (R26). -/
def Strand.m (t : Strand) (r : MReg) : MImage := if r = 0 then BitVec.allOnes 512 else mgetD t.masks r.val 0

/-- A write of a mask register other than m0 (R28 keeps m0 from being a destination). -/
def Strand.setM (t : Strand) (r : MReg) (v : MImage) : Strand :=
  if r = 0 then t else { t with masks := mset t.masks r.val v }

/-- A vector register's element-order byte image; unwritten, it reads as zeros (R27). -/
def Strand.v (t : Strand) (r : VReg) : VImage := mgetD t.vectors r.val 0

/-- A write of a vector register. -/
def Strand.setV (t : Strand) (r : VReg) (v : VImage) : Strand := { t with vectors := mset t.vectors r.val v }

/-- A route register's word; w0 and an unwritten one are the null route (R27, R208). -/
def Strand.w (t : Strand) (r : RReg) : RouteWord := if r = 0 then 0 else mgetD t.routes r.val 0

/-- The registers of a sheaf. -/
def Strand.sheafMembers (t : Strand) (k : Nat) : List Nat := (t.sheaves.filter fun e => e.2 == k).map (·.1)

/-- A register leaves its sheaf; a sheaf left with one register is freed (R220). -/
def Strand.leaveSheaf (t : Strand) (r : Nat) : Strand :=
  match mget t.sheaves r with
  | none => t
  | some k =>
    let rest := mdel t.sheaves r
    let n := (rest.filter fun e => e.2 == k).length
    { t with sheaves := if n < 2 then rest.filter fun e => e.2 != k else rest }

/-- A route register written: it leaves its sheaf and its failure record is cleared (R210, R220). Naming w0 has no
effect (R28). -/
def Strand.setW (t : Strand) (r : RReg) (v : RouteWord) : Strand :=
  if r = 0 then t else
    let u := t.leaveSheaf r.val
    { u with routes := mset u.routes r.val v, routeFails := mdel u.routeFails r.val }

/-- A route register made null: written bit and failure record cleared (R217, R263). -/
def Strand.clearW (t : Strand) (r : RReg) : Strand :=
  if r = 0 then t else
    let u := t.leaveSheaf r.val
    { u with routes := mdel u.routes r.val, routeFails := mdel u.routeFails r.val }

/-! ### Lanes (R30, R31) -/

/-- Lanes a strand owns; 0 on a scalar strand (R30). -/
def Core.lanes (x : Core) (k : Nat) : Nat := if k < vectorStrands x.part then lanesOf x.part else 0

/-- Whether the strand at a place is a vector strand. -/
def State.isVector (s : State) (p : Place) : Bool := (s.core p.core).lanes p.strand != 0

/-- The lane count that governs element positions: the saved one in pass mode (R69). -/
def State.laneCount (s : State) (p : Place) : Nat :=
  match (s.strand p).pass with
  | some l => l
  | none => (s.core p.core).lanes p.strand

/-- Element width in bits of an SEW code. -/
def sewBits (sew : Nat) : Nat := 8 * 2 ^ sew

/-- VLMAX for a lane count and an SEW code (R31). -/
def vlmaxOf (lanes sew : Nat) : Nat := lanes * 8 * 32 / sewBits sew

/-- VSTARTk (R37). -/
def VecCsr.vstart (v : VecCsr) : Nat → Nat
  | 0 => v.vstart0
  | 1 => v.vstart1
  | 2 => v.vstart2
  | _ => v.vstart3

/-- VSTARTk written (R68). -/
def VecCsr.setVstart (v : VecCsr) (k n : Nat) : VecCsr :=
  match k with
  | 0 => { v with vstart0 := n }
  | 1 => { v with vstart1 := n }
  | 2 => { v with vstart2 := n }
  | _ => { v with vstart3 := n }

/-- Whether a vector instruction in progress has stopped within a beat of a member (R64, R79): a suspension lets it go on to the
end of that beat. One that is executed anew (R68) is in no beat. -/
def Strand.ragged (t : Strand) (lanes : Nat) : Bool :=
  t.mid && t.midMask.isSome && [0, 1, 2, 3].any fun k =>
    decide (t.vec.vstart k < t.vec.vl) && t.vec.vstart k % (vlmaxOf lanes t.vec.sew / 8) != 0

/-- The lane count of a strand of a core: the saved one in pass mode (R69). -/
def Core.laneCount (x : Core) (k : Nat) : Nat :=
  match (x.strand k).pass with
  | some l => l
  | none => x.lanes k

/-! ### Completing an instruction -/

/-- Address of the last word of a loop body (R130). -/
def LoopRec.last (r : LoopRec) : Word := r.body + BitVec.ofNat 64 (4 * r.len)

/-- Whether the nest is suspended (R134). -/
def Strand.suspended (t : Strand) : Bool := t.suspUi || t.suspTrap

/-- The nest after the instruction at pc completes, levels innermost first, and the next PC (R131). -/
def stepNest : List LoopRec → Word → List LoopRec × Word
  | [], pc => ([], pc + 4)
  | r :: rest, pc =>
    if pc = r.last then
      if 1 < r.remaining then ({ r with remaining := r.remaining - 1 } :: rest, r.body) else stepNest rest pc
    else (r :: rest, pc + 4)

/-- Whether the PC is the last body word of the innermost active level. -/
def Strand.atBodyEnd (t : Strand) : Bool :=
  !t.suspended && (match t.loops with | [] => false | r :: _ => t.pc == r.last)

/-- Whether the PC lies within the innermost body of a nest that is not suspended (R132). -/
def Strand.inBody (t : Strand) : Bool :=
  !t.suspended && (match t.loops with | [] => false | r :: _ => r.body ≤ t.pc && t.pc ≤ r.last)

/-- One more instruction retired (R42); none is in progress. -/
def Strand.retire1 (t : Strand) : Strand :=
  { t with
    time := { t.time with instret := t.time.instret + 1 }, mid := false, midMask := none, walked := none }

/-- The instruction at the PC completes: INSTRET counts it, the nest is stepped, and the PC moves on (R131). -/
def Strand.complete (t : Strand) : Strand :=
  let n := if t.suspended then (t.loops, t.pc + 4) else stepNest t.loops t.pc
  { t.retire1 with loops := n.1, pc := n.2, stepped := t.atBodyEnd }

/-- The instruction at the PC completes by going to an address. -/
def Strand.completeAt (t : Strand) (a : Word) : Strand := { t.retire1 with pc := a, stepped := false }

/-! ### Waits (R56) -/

/-- The strand is STALLED for want of a resource. -/
def Strand.stall (t : Strand) (l : Lack) : Strand := { t with run := .stalled, lack := l, wait := .none }

/-- The strand is READY again. -/
def Strand.wake (t : Strand) : Strand := { t with run := .ready, lack := .none, wait := .none }

/-- The strand is WAITING from clk now on, and its instruction will write register d. -/
def Strand.await (t : Strand) (now : Nat) (w : Wait) (d : SReg) : Strand :=
  { t with run := .waiting, wait := w, waitReg := d, waitFrom := now, limited := false }

/-- A WAITING strand whose wait is satisfied with a value: READY, and its instruction completes (R56). -/
def Strand.finish (t : Strand) (v : Word) : Strand := ((t.wake).setS t.waitReg v).complete

/-- The strand is STALLED, and what it waits for completes its instruction, which writes register d. -/
def Strand.hold (t : Strand) (now : Nat) (w : Wait) (d : SReg) : Strand :=
  { t with run := .stalled, lack := .none, wait := w, waitReg := d, waitFrom := now }

/-- The strand is STALLED: its instruction issues again when the resource is there. -/
def State.stall (s : State) (p : Place) (l : Lack) : State := s.modStrand p fun t => t.stall l

/-- The strand completes its instruction. -/
def State.complete (s : State) (p : Place) (t : Strand) : State := s.setStrand p t.complete

/-- An acquire at system scope drops the die's cached host lines (R251); at other scopes a load finds every line
current. -/
def State.acquireEffect (s : State) (p : Place) (scope : Nat) : State :=
  if scope = 6 then s.modDie (dieOf p.core) fun x => { x with hostLines := [] } else s

/-- An event that ends a WFEV of a strand (R241): the wait ends, the token is clear, the acquire is made and the
instruction completes. -/
def State.stir (s : State) (p : Place) : State :=
  let t := s.strand p
  match t.run, t.wait with
  | .waiting, .wfev scope => (s.setStrand p { t.finish 0 with wakeToken := false }).acquireEffect p scope
  | _, _ => s

/-- An event of the core that every WFEV of the core sees (R241). -/
def State.stirCore (s : State) (c : Nat) : State :=
  (mkeys (s.core c).strands).foldl (fun s k => s.stir { core := c, strand := k }) s

/-- The device sets a UIP bit of a strand (R71); an unbound strand has none. The bits set in this clk are remembered: a write
of UIP in the same clk comes before them. -/
def State.setUip (s : State) (p : Place) (b : BitVec 7) : State :=
  let t := s.strand p
  if t.run = .unbound then s else
    (s.setStrand p { t with trap := { t.trap with
      uip := t.trap.uip ||| b, uipAt := s.now, uipSet := b ||| (if t.trap.uipAt = s.now then t.trap.uipSet else 0) } }).stir p

/-- User-interrupt causes (R41). -/
def uipTimer : BitVec 7 := 1
def uipMsg : BitVec 7 := 2
def uipCpydone : BitVec 7 := 4
def uipRing : BitVec 7 := 8
def uipLease : BitVec 7 := 16
def uipRoutefail : BitVec 7 := 32

/-! ### Unbinding and kernel faults -/

/-- A strand becomes UNBOUND: its bay locks are cleared (R77) and it leaves the core barrier. R62 does not say what follows when
the leader halts while QUIESCENT is 1: it leads no longer, QUIESCENT is cleared, and the next quiescence has a new leader (log
83, DESIGN CHOICE). -/
def Core.unbind (x : Core) (k : Nat) : Core :=
  { x with
    strands := mdel x.strands k
    locks := mfilter (fun _ h => h != k) x.locks
    lockFrom := mdel x.lockFrom k
    quiescent := x.quiescent && !mhas x.barWaiting k
    barWaiting := mdel x.barWaiting k }

/-- Every strand of a core becomes UNBOUND. -/
def Core.unbindAll (x : Core) : Core :=
  { x with strands := [], locks := [], lockFrom := [], barWaiting := [], quiescent := false, minting := false }

/-- The strands of a core end with their kernel (R328): each becomes UNBOUND at its next boundary, which is now, but for one within a
vector instruction that it has begun: that one goes on to the end of it, with its bay locks. -/
def Core.endStrands (x : Core) : Core :=
  let stays := fun (k : Nat) => (x.strand k).mid
  { x with
    strands := mmap (fun _ t => { t with ending := true }) (mfilter (fun k _ => stays k) x.strands)
    locks := mfilter (fun _ h => stays h) x.locks
    lockFrom := mfilter (fun k _ => stays k) x.lockFrom
    barWaiting := []
    quiescent := false
    minting := false }

/-- A pending mask without the slots that a test names; a line left without one has no pending bit (R51). -/
def clearPend (pend : SMap Nat) (gone : Nat → Bool) : SMap Nat :=
  (mmap (fun _ m => ((List.range 4).map fun i => if bit m i && !gone i then 2 ^ i else 0).sum) pend).filter
    fun e => e.2 != 0

/-- Copy commands of a core are cancelled (R205): no element moves start, lines never sent lose their pending bits, and
a slot with no write in flight is CANCELLED at once; others become so when their writes have landed. -/
def Core.cancelCopies (x : Core) (by' : Nat) (which : Nat → CopySlot → Bool) : Core :=
  let hit := fun (i : Nat) (q : CopySlot) =>
    which i q && (q.state == .waiting || q.state == .running) && q.failing == 0
  { x with
    copies := mmap (fun i q =>
      if hit i q then
        { q with todo := [], lost := q.lost ++ q.todo, cancelBy := by' :: q.cancelBy,
                 state := if q.sent.isEmpty then .cancelled else q.state }
      else q) x.copies
    pend := clearPend x.pend fun i => match mget x.copies i with | some q => hit i q | none => false }

/-- A kernel becomes FAULTED (R75, R328): cause and TVAL are recorded, every strand of its plot ends at its next boundary, its copy
commands are cancelled, and what is left to do is due (the completion record, the leases, the plot's cores). -/
def State.faultKernel (s : State) (k : Nat) (at' : Place) (cause : Nat) (tval : Word) : State :=
  match mget s.kernels k with
  | none => s
  | some q =>
    if q.state = .faulted ∨ q.state = .retired then s else
    let s1 := { s with
      kernels := mset s.kernels k
        { q with state := .faulted, cause := cause, tval := tval, faultAt := at', rendezvous := [], groups := [] }
      cores := mmap (fun _ x =>
        if x.kern = some k then
          { (x.endStrands.cancelCopies 8 fun _ _ => true) with barriers := [], views := [] }
        else x) s.cores
      owned := mfilter (fun _ o => !o.isEmpty) (mmap (fun _ o => o.filter fun o => (s.core o.1).kern != some k) s.owned) }
    s1.later .kernelRetire (.kernel k)

/-! ### Taking a trap and returning from one (R74, R75) -/

/-- The address a trap reports: the first member's for a convoy member (R74). -/
def State.trapPc (s : State) (p : Place) (t : Strand) : Word :=
  if s.cur.member = 0 ∨ s.cur.place ≠ p then t.pc else s.cur.epc

/-- The convoy member a trap reports; a fifth member's number does not fit the two bits and keeps its low bits (R9). -/
def State.trapMember (s : State) (p : Place) : Nat := if s.cur.place = p then s.cur.member else 0

/-- An address as the registers of R41 hold it: bits [56:2]. -/
def addr57 (a : Word) : Word := a &&& 0x01FFFFFFFFFFFFFC

/-- The strand after trap entry (R74): the event saves cause, value, address and status, and goes to TVEC at supervisor
privilege; a nest that is active is suspended (R134) (log 44, DEDUCED). -/
def Strand.enterTrap (t : Strand) (cause : Nat) (tval epc : Word) (member : Nat) : Strand :=
  { t.wake with
    trap := { t.trap with
      tcause := BitVec.ofNat 8 cause, tval := tval, tepc := addr57 epc, ppriv := t.trap.priv, puien := t.trap.uieOn,
      inui := t.inUi, member := BitVec.ofNat 2 member, priv := true, uieOn := false }
    suspTrap := !t.loops.isEmpty
    stepped := false
    mid := false
    midMask := none
    walked := none
    pc := t.trap.tvec }

/-- A trap of the strand at a place (R74, R75). At supervisor privilege, or with TVEC 0, it is not delivered: the kernel
is FAULTED, and the strand's instruction has ended; a strand that runs for no kernel (a fabric manager core's) becomes UNBOUND, and so
does one whose kernel has ended before (R328). -/
def State.raise (s : State) (p : Place) (cause : Nat) (tval : Word) : State :=
  let t := s.strand p
  if t.ending then s.modCore p.core fun x => x.unbind p.strand
  else if t.trap.priv || t.trap.tvec == 0 then
    match (s.core p.core).kern with
    | some k => (s.setStrand p { t with mid := false }).faultKernel k p cause tval
    | none => s.modCore p.core fun x => x.unbind p.strand
  else s.setStrand p (t.enterTrap cause tval (s.trapPc p t) (s.trapMember p))

/-- ERET (R74): PC := TEPC, the privilege and UIE.ON come back, and the suspended nest resumes. The names s26 to s31
stay on the copy they reached, which is the interrupt handler's if INUI is 1. -/
def Strand.leaveTrap (t : Strand) : Strand :=
  { t.retire1 with
    pc := t.trap.tepc
    suspTrap := false
    stepped := false
    inUi := t.trap.inui
    trap := { t.trap with priv := t.trap.ppriv, uieOn := t.trap.puien } }

/-! ### User interrupts (R72, R73) -/

/-- The causes that are pending and enabled. -/
def Strand.causes (t : Strand) : BitVec 7 := t.trap.uip &&& t.trap.uieEn

/-- Whether a user interrupt is due at a boundary (R72): not within a vector instruction that has begun. -/
def Strand.interruptDue (t : Strand) : Bool :=
  t.trap.uieOn && t.causes != 0 && !t.inUi && !t.trap.priv && !t.mid &&
  t.vec.vstart0 == 0 && t.vec.vstart1 == 0 && t.vec.vstart2 == 0 && t.vec.vstart3 == 0 &&
  (t.loops.isEmpty || t.suspended || t.stepped)

/-- The strand after interrupt entry (R73), returning to the next instruction to execute. -/
def Strand.enterUi (t : Strand) : Strand :=
  let u := { t.wake with inUi := true, shadow := true, suspUi := !t.loops.isEmpty, stepped := false, walked := none }
  { (u.setS 31 t.pc).setS 30 (t.causes.setWidth 64) with
    trap := { t.trap with uieOn := false }
    pc := t.trap.uivec }

/-- UIRET (R73): PC := shadow s31, the names return to the ordinary copy, UIE.ON := 1 and the nest resumes. The PC is a multiple
of 4 (R101): the low two bits of s31 are dropped (log 82, DESIGN CHOICE). -/
def Strand.leaveUi (t : Strand) : Strand :=
  { t.retire1 with
    pc := t.s 31 &&& ~~~3
    inUi := false
    shadow := false
    suspUi := false
    stepped := false
    trap := { t.trap with uieOn := true } }

/-! ### The frame of a meaning -/

/-- The word of an instruction, as TVAL holds it. -/
def wordOf (i : Instr) : Word := ((encode i).getD 0).setWidth 64

/-- A meaning acts for the strand that cur names; an UNBOUND strand issues nothing (R56). -/
def onStrand (s : State) (f : Place → Strand → State) : Res :=
  if (s.strand s.cur.place).run = .unbound then .fault .unboundStrand
  else .next (f s.cur.place (s.strand s.cur.place))

/-- ILLEGAL (R76), TVAL the word. -/
def State.illegal (s : State) (p : Place) (i : Instr) : State := s.raise p 0x01 (wordOf i)

/-- Test 10 of R106: supervisor privilege, or PRIV. -/
def needSup (s : State) (i : Instr) (f : Place → Strand → State) : Res :=
  onStrand s fun p t => if t.trap.priv then f p t else s.raise p 0x02 (wordOf i)

/-- Test 10 of R106 for WMINT and WGEN: supervisor privilege on a fabric manager core (R104). -/
def needManager (s : State) (i : Instr) (f : Place → Strand → State) : Res :=
  onStrand s fun p t => if t.trap.priv && isManager p.core then f p t else s.raise p 0x02 (wordOf i)

/-- Test 11 of R106: a vector strand, or NO-LANES. -/
def needLanes (s : State) (i : Instr) (f : Place → Strand → State) : Res :=
  onStrand s fun p t => if s.isVector p then f p t else s.raise p 0x17 (wordOf i)

/-- R132: the instruction may not stand in a loop body (log 51, DEDUCED). -/
def outsideBody (s : State) (i : Instr) (p : Place) (t : Strand) (f : State) : State :=
  if t.inBody then s.raise p 0x18 (wordOf i) else f

end Sys2Proof.Machine
end

