-- ==== Sys2Proof/Machine/Flags.lean ====
section
/-!
DEFINITION. The sticky flags of VFLAGS (R37, R120, R151) and the results of scalar arithmetic (R119, R120).
-/

namespace Sys2Proof.Machine

/-- The bits of VFLAGS (R37). -/
def flagNV : BitVec 8 := 0x01
def flagDZ : BitVec 8 := 0x02
def flagOF : BitVec 8 := 0x04
def flagUF : BitVec 8 := 0x08
def flagNX : BitVec 8 := 0x10
def flagIDZ : BitVec 8 := 0x20
def flagIOV : BitVec 8 := 0x40
def flagSAT : BitVec 8 := 0x80

/-- Flags added to VFLAGS; a scalar strand keeps none (R37, R120). -/
def Strand.addFlags (t : Strand) (vector : Bool) (f : BitVec 8) : Strand :=
  if vector then { t with vec := { t.vec with vflags := t.vec.vflags ||| f } } else t

/-- What the divider answers (R120): quotient, remainder and flags, at any width. -/
structure Division (w : Nat) where
  q : BitVec w
  r : BitVec w
  flags : BitVec 8
  deriving DecidableEq, Repr

/-- Signed division, rounding toward zero (R120, R154). -/
def divSigned {w : Nat} (a b : BitVec w) : Division w :=
  if b = 0 then { q := BitVec.allOnes w, r := a, flags := flagIDZ }
  else if a = BitVec.intMin w ∧ b = BitVec.allOnes w then { q := BitVec.intMin w, r := 0, flags := flagIOV }
  else { q := BitVec.ofInt w (a.toInt.tdiv b.toInt), r := BitVec.ofInt w (a.toInt.tmod b.toInt), flags := 0 }

/-- Unsigned division (R120, R154). -/
def divUnsigned {w : Nat} (a b : BitVec w) : Division w :=
  if b = 0 then { q := BitVec.allOnes w, r := a, flags := flagIDZ }
  else { q := BitVec.ofNat w (a.toNat / b.toNat), r := BitVec.ofNat w (a.toNat % b.toNat), flags := 0 }

/-- Leading zeros over the n low bits of a number, from the top down (R119). -/
def clzFrom : Nat → Nat → Nat
  | 0, _ => 0
  | n + 1, v => if bit v n then 0 else 1 + clzFrom n v

/-- Trailing zeros among n bits (R119). -/
def ctzFrom : Nat → Nat → Nat
  | 0, _ => 0
  | n + 1, v => if v % 2 = 1 then 0 else 1 + ctzFrom n (v / 2)

/-- One bits among the n low bits (R119). -/
def popcFrom : Nat → Nat → Nat
  | 0, _ => 0
  | n + 1, v => v % 2 + popcFrom n (v / 2)

/-- 1 for true (R119). -/
def wordOfBool (b : Bool) : Word := if b then 1 else 0

end Sys2Proof.Machine
end

