-- ==== Sys2Proof/Machine/Alu.lean ====
section
/-!
DEFINITION. Integer arithmetic, immediates, LUI and ADDPC (R119 to R123).
-/

namespace Sys2Proof.Machine

/-- A scalar instruction that writes a value to register d and completes (R117). -/
def aluOp (s : State) (d : SReg) (f : Strand → Word) : Res :=
  onStrand s fun p t => s.complete p (t.setS d (f t))

/-- A division (R120): the value goes to register d, the flags to VFLAGS of a vector strand. -/
def divOp (s : State) (d : SReg) (f : Strand → Division 64) (pick : Division 64 → Word) : Res :=
  onStrand s fun p t => s.complete p ((t.addFlags (s.isVector p) (f t).flags).setS d (pick (f t)))

/-- ADD (R119). -/
def execAdd (d a b : SReg) (s : State) : Res := aluOp s d fun t => t.s a + t.s b
/-- SUB (R119). -/
def execSub (d a b : SReg) (s : State) : Res := aluOp s d fun t => t.s a - t.s b
/-- AND (R119). -/
def execAnd (d a b : SReg) (s : State) : Res := aluOp s d fun t => t.s a &&& t.s b
/-- OR (R119). -/
def execOr (d a b : SReg) (s : State) : Res := aluOp s d fun t => t.s a ||| t.s b
/-- XOR (R119). -/
def execXor (d a b : SReg) (s : State) : Res := aluOp s d fun t => t.s a ^^^ t.s b
/-- The shift amount of a register, b[5:0] (R119). -/
def shamt (b : Word) : Nat := b.toNat % 64
/-- SLL (R119). -/
def execSll (d a b : SReg) (s : State) : Res := aluOp s d fun t => t.s a <<< shamt (t.s b)
/-- SRL (R119). -/
def execSrl (d a b : SReg) (s : State) : Res := aluOp s d fun t => t.s a >>> shamt (t.s b)
/-- SRA (R119). -/
def execSra (d a b : SReg) (s : State) : Res := aluOp s d fun t => (t.s a).sshiftRight (shamt (t.s b))
/-- SLT (R119). -/
def execSlt (d a b : SReg) (s : State) : Res := aluOp s d fun t => wordOfBool ((t.s a).slt (t.s b))
/-- SLTU (R119). -/
def execSltu (d a b : SReg) (s : State) : Res := aluOp s d fun t => wordOfBool ((t.s a).ult (t.s b))
/-- MUL (R119). -/
def execMul (d a b : SReg) (s : State) : Res := aluOp s d fun t => t.s a * t.s b
/-- MULH (R119): bits 127 to 64 of the exact signed product. -/
def execMulh (d a b : SReg) (s : State) : Res :=
  aluOp s d fun t => BitVec.ofInt 64 ((t.s a).toInt * (t.s b).toInt / 2 ^ 64)
/-- MULHU (R119). -/
def execMulhu (d a b : SReg) (s : State) : Res :=
  aluOp s d fun t => BitVec.ofNat 64 ((t.s a).toNat * (t.s b).toNat / 2 ^ 64)
/-- DIV (R120). -/
def execDiv (d a b : SReg) (s : State) : Res := divOp s d (fun t => divSigned (t.s a) (t.s b)) (·.q)
/-- DIVU (R120). -/
def execDivu (d a b : SReg) (s : State) : Res := divOp s d (fun t => divUnsigned (t.s a) (t.s b)) (·.q)
/-- REM (R120). -/
def execRem (d a b : SReg) (s : State) : Res := divOp s d (fun t => divSigned (t.s a) (t.s b)) (·.r)
/-- REMU (R120). -/
def execRemu (d a b : SReg) (s : State) : Res := divOp s d (fun t => divUnsigned (t.s a) (t.s b)) (·.r)
/-- MIN (R119). -/
def execMin (d a b : SReg) (s : State) : Res := aluOp s d fun t => if (t.s a).slt (t.s b) then t.s a else t.s b
/-- MAX (R119). -/
def execMax (d a b : SReg) (s : State) : Res := aluOp s d fun t => if (t.s b).slt (t.s a) then t.s a else t.s b
/-- MINU (R119). -/
def execMinu (d a b : SReg) (s : State) : Res := aluOp s d fun t => if (t.s a).ult (t.s b) then t.s a else t.s b
/-- MAXU (R119). -/
def execMaxu (d a b : SReg) (s : State) : Res := aluOp s d fun t => if (t.s b).ult (t.s a) then t.s a else t.s b
/-- CLZ (R119). -/
def execClz (d a : SReg) (s : State) : Res := aluOp s d fun t => BitVec.ofNat 64 (clzFrom 64 (t.s a).toNat)
/-- CTZ (R119). -/
def execCtz (d a : SReg) (s : State) : Res := aluOp s d fun t => BitVec.ofNat 64 (ctzFrom 64 (t.s a).toNat)
/-- POPC (R119). -/
def execPopc (d a : SReg) (s : State) : Res := aluOp s d fun t => BitVec.ofNat 64 (popcFrom 64 (t.s a).toNat)

/-- ADDI (R121). -/
def execAddi (d a : SReg) (imm : BitVec 13) (s : State) : Res := aluOp s d fun t => t.s a + sext64 imm
/-- ANDI (R121). -/
def execAndi (d a : SReg) (imm : BitVec 13) (s : State) : Res := aluOp s d fun t => t.s a &&& sext64 imm
/-- ORI (R121). -/
def execOri (d a : SReg) (imm : BitVec 13) (s : State) : Res := aluOp s d fun t => t.s a ||| sext64 imm
/-- XORI (R121). -/
def execXori (d a : SReg) (imm : BitVec 13) (s : State) : Res := aluOp s d fun t => t.s a ^^^ sext64 imm
/-- SLTI (R121). -/
def execSlti (d a : SReg) (imm : BitVec 13) (s : State) : Res :=
  aluOp s d fun t => wordOfBool ((t.s a).slt (sext64 imm))
/-- SLTIU (R121). -/
def execSltiu (d a : SReg) (imm : BitVec 13) (s : State) : Res :=
  aluOp s d fun t => wordOfBool ((t.s a).ult (sext64 imm))
/-- SLLI (R122). -/
def execSlli (d a : SReg) (sh : BitVec 6) (s : State) : Res := aluOp s d fun t => t.s a <<< sh.toNat
/-- SRLI (R122). -/
def execSrli (d a : SReg) (sh : BitVec 6) (s : State) : Res := aluOp s d fun t => t.s a >>> sh.toNat
/-- SRAI (R122). -/
def execSrai (d a : SReg) (sh : BitVec 6) (s : State) : Res := aluOp s d fun t => (t.s a).sshiftRight sh.toNat
/-- LUI (R123). -/
def execLui (d : SReg) (imm : BitVec 19) (s : State) : Res := aluOp s d fun _ => sext64 imm <<< 13
/-- ADDPC (R123): PC is the instruction's own address. -/
def execAddpc (d : SReg) (imm : BitVec 19) (s : State) : Res := aluOp s d fun t => t.pc + (sext64 imm <<< 13)

end Sys2Proof.Machine
end

