-- ==== Sys2Proof/Machine/Operands.lean ====
section
/-!
DEFINITION. The operand forms of scalar memory accesses: effective addresses and the checks of R124 and R136, and of G
offsets (R213); what a load finds and what a store does (R125 to R127).
-/

namespace Sys2Proof.Machine

/-- Trap causes (R76). -/
def causeIllegal : Nat := 0x01
def causePriv : Nat := 0x02
def causeMisalign : Nat := 0x03
def causeFetchPage : Nat := 0x04
def causeLoadPage : Nat := 0x05
def causeStorePage : Nat := 0x06
def causeSpace : Nat := 0x07
def causeRouteNull : Nat := 0x08
def causeRouteRights : Nat := 0x09
def causeRouteWindow : Nat := 0x0A
def causeRouteRevoked : Nat := 0x0B
def causeRouteOwner : Nat := 0x0C
def causeConvoy : Nat := 0x0D
def causeFeWait : Nat := 0x0E
def causeBarWait : Nat := 0x0F
def causeEcall : Nat := 0x10
def causeBreak : Nat := 0x11
def causeTrap : Nat := 0x12
def causeRecoatMismatch : Nat := 0x13
def causeEngine : Nat := 0x14
def causeLockWatchdog : Nat := 0x15
def causeUncorrected : Nat := 0x16
def causeNoLanes : Nat := 0x17
def causeLoop : Nat := 0x18

/-- The page-fault cause of an access kind (R76). -/
def pageCause (kind : Nat) : Nat := if kind = 0 then causeLoadPage else if kind = 2 then causeFetchPage else causeStorePage

/-- The effective address of a load or store (R124). -/
def effAddr (t : Strand) (a : SReg) (imm : BitVec 13) : Word := t.s a + sext64 imm

/-- Where a scalar access goes, or why it does not (R124, R136). -/
inductive Target where
  | trap (cause : Nat)
  /-- A local buffer, by local offset. -/
  | buffer (off : Nat)
  /-- Physical memory under a translation. -/
  | phys (pa : Nat) (e : TlbEntry)
  /-- No translation yet: a walk is needed. -/
  | walk
  deriving DecidableEq, Repr

/-- Whether the unit table of R48 lets a scalar access of a kind reach a space. -/
def scalarReaches (kind space : Nat) : Bool :=
  match kind with
  | 0 => space == 1 || space == 4
  | _ => space == 4

/-- Whether an address lies in the local window (R46). -/
def inWindow (x : Word) : Bool := x.toNat / 2 ^ 32 == 0xFF000000

/-- The checks of R124 on an access of n bytes; an atomic passes the same with R136's difference. -/
def State.target (s : State) (p : Place) (t : Strand) (x : Word) (n kind : Nat) : Target :=
  let a := x.toNat
  if a % n ≠ 0 then .trap causeMisalign
  else if inWindow x then
    let space := bits a 24 8
    let off := bits a 0 24
    if inBuffer space off n && scalarReaches kind space then .buffer (bufBase space + off) else .trap causeSpace
  else if 2 ^ 57 ≤ a then .trap (pageCause kind)
  else
    match (s.core p.core).tlbFind a kind with
    | some e => .phys (e.pa a) e
    | none => if t.walked = some (a, kind) then .trap (pageCause kind) else .walk

/-- A strand asks its station for a translation and is STALLED (R354). -/
def State.askWalk (s : State) (p : Place) (va kind : Nat) : State :=
  (s.stall p (.translation va kind)).later .translationWalk (.walk p va kind)

/-- An uncorrected error poisons the context (R373): OWNER.POISON on every core, every active kernel FAULTED, one that is being
launched too (R320). -/
def State.poisonContext (s : State) (ctx : Nat) (p : Place) (tval : Word) : State :=
  if ctx = 0 then s else
  let hit := fun (r : LaunchReq) => if r.ctx = ctx ∧ r.began ∧ r.fault.isNone then { r with fault := some (p, tval) } else r
  let s1 := { s with
    cores := mmap (fun _ x => if x.owner.id = ctx then { x with owner := { x.owner with poison := true } } else x) s.cores
    dies := mmap (fun _ x => { x with launches := x.launches.map hit }) s.dies }
  (mfilter (fun _ k => k.ctx == ctx) s1.kernels).foldl (fun s e => s.faultKernel e.1 p causeUncorrected tval) s1

/-- An UNCORRECTED trap of a strand, which poisons its context whether it is delivered or not (R76). -/
def State.uncorrected (s : State) (p : Place) (tval : Word) : State :=
  (s.raise p causeUncorrected tval).poisonContext (s.core p.core).owner.id p tval

/-- What a scalar read of n bytes answers. -/
inductive Fetched where
  | bytes (b : List Byte)
  | wait (l : Lack)
  | poisoned (at' : Nat)
  deriving DecidableEq, Repr

/-- A read of local bytes by a strand (R124, R51, R55, R77). -/
def State.fetchLocal (s : State) (p : Place) (off n : Nat) : Fetched :=
  let x := s.core p.core
  match x.localWait (some p.strand) off n with
  | some l => .wait l
  | none => if x.localPoisoned off n then .poisoned off else .bytes (x.readLocal off n)

/-- What a device-memory access waits for because a copy engine owns the line (R257). -/
def State.ownedWait (s : State) (pa : Nat) : Option Lack :=
  if mhas s.owned (pa / 64) then some (.ownedLine (pa / 64)) else none

/-- What an access to the granary waits for (R257, R286): a line that a copy engine owns, or its path. -/
def State.lineWait (s : State) (c pa : Nat) : Option Lack :=
  match s.ownedWait pa with
  | some l => some l
  | none => if s.memoryOpen c pa then none else some (.path pa)

/-- A scalar read of device or host memory (R125): forwarded from the store buffer, or from memory once its line is in
the data cache. -/
def State.fetchPhys (s : State) (p : Place) (e : TlbEntry) (pa n : Nat) : Fetched :=
  let x := s.core p.core
  match sbLookup x.sb pa n with
  | .forward b => .bytes b
  | .partly => .wait (.bufferBytes pa n)
  | .miss =>
    match s.ownedWait pa with
    | some l => .wait l
    | none =>
      if !mhas x.dcache (pa / 64) then .wait (.line (pa / 64))
      else if s.physPoisoned pa n then .poisoned pa
      else .bytes (s.physRead (dieOf p.core) e.key e.gen pa n)

/-- A strand waits for a resource; a line that is not in the data cache is asked for (R118). -/
def State.stallFor (s : State) (p : Place) (l : Lack) : State :=
  match l with
  | .line n => (s.stall p l).later .loadMissFill (.line p.core p.strand n)
  | _ => s.stall p l

/-- A store or atomic that reaches a local buffer, applied by a function on the core (R126). -/
def State.localAccess (s : State) (p : Place) (off n : Nat) (f : State → State) : State :=
  match (s.core p.core).localWait (some p.strand) off n with
  | some l => s.stall p l
  | none => f s

/-- A G offset as R213 checks it: alignment, then the range below the loft. -/
def gCheck (g : Word) (align n : Nat) : Option Nat :=
  if g.toNat % align ≠ 0 then some causeMisalign
  else if g.toNat + n > loftBase then some causeSpace
  else none

/-- A ring of a core. -/
def Core.ring (x : Core) (r : Nat) : Ring := mgetD x.rings r .reset

end Sys2Proof.Machine
end

