-- ==== Sys2Proof/Machine/Order.lean ====
section
/-!
DEFINITION. Releases and acquires (R243, R251 to R255): what a release waits for, and what it and an acquire do to the granary.
-/

namespace Sys2Proof.Machine

/-- Whether a kernel's plot has cores on two or more dies (R243). -/
def Kernel.spansDies (k : Kernel) : Bool :=
  match k.rects with
  | [] => false
  | r :: _ => k.rects.any fun q => q.x0 / 128 != r.x0 / 128 || q.x1 / 128 != r.x0 / 128 ||
      q.y0 / 160 != r.y0 / 160 || q.y1 / 160 != r.y0 / 160

/-- A scope as it is performed: plot scope is die scope, or module scope for a plot on several dies (R243). -/
def State.effScope (s : State) (p : Place) (scope : Nat) : Nat :=
  if scope = 2 then
    (match (s.core p.core).kern.bind fun k => mget s.kernels k with
     | some k => if k.spansDies then 4 else 3
     | none => 3)
  else scope

/-- Whether an unanswered packet is one of a strand's own operations, and not a copy engine's. -/
def Outstanding.ofStrand (o : Outstanding) (k : Nat) : Bool :=
  o.pkt.strand == k && (match o.pkt.kind with | .cpy .. => false | _ => true)

/-- What a release waits for (R252): the strand's entries of the store buffer, and its posted remote operations. -/
def State.releaseWait (s : State) (p : Place) (scope : Nat) : Option Lack :=
  if scope = 0 then none
  else if (s.core p.core).sbOf p.strand then some .bufferStrand
  else if (s.core p.core).ni.out.any fun e => e.2.ofStrand p.strand then some .acks
  else none

/-- Every dirty line of a die written back (R248). -/
def State.writeBackDie (s : State) (d : Nat) : State :=
  (mkeys (s.die d).writers).foldl (fun s l => s.writeBack d l) s

/-- What a release at module scope or wider does at the granary (R252): every dirty line of the die goes home, so that
what other strands wrote and the releasing strand acquired goes with it (log 25, DESIGN CHOICE). -/
def State.releaseEffect (s : State) (p : Place) (scope : Nat) : State :=
  if 4 ≤ s.effScope p scope then s.writeBackDie (dieOf p.core) else s

/-- A release, then a function: the strand is STALLED while the release waits (R252). -/
def State.release (s : State) (p : Place) (scope : Nat) (f : State → State) : State :=
  match s.releaseWait p scope with
  | some l => s.stall p l
  | none => f (s.releaseEffect p scope)

end Sys2Proof.Machine
end

