-- ==== Sys2Proof/Machine/Atom.lean ====
section
/-!
DEFINITION. Atomics (R135 to R137).
-/

namespace Sys2Proof.Machine

/-- The operations of R136, in the order of F[4:0]. -/
inductive AmoOp where
  | add
  | swap
  | cas
  | min
  | max
  | minu
  | maxu
  | and
  | or
  | xor
  deriving DecidableEq, Repr

/-- The new value of a word of w bits; a failed cas keeps the old one (R136). -/
def amoNew {w : Nat} (op : AmoOp) (old o expected : BitVec w) : BitVec w :=
  match op with
  | .add => old + o
  | .swap => o
  | .cas => if old = expected then o else old
  | .min => if old.slt o then old else o
  | .max => if o.slt old then old else o
  | .minu => if old.ult o then old else o
  | .maxu => if o.ult old then old else o
  | .and => old &&& o
  | .or => old ||| o
  | .xor => old ^^^ o

/-- The bytes an atomic leaves for the bytes it found, or none when it writes nothing (R136). -/
def amoBytes (op : AmoOp) (n : Nat) (old : List Byte) (o expected : Word) : Option (List Byte) :=
  let v := amoNew (w := 8 * n) op (BitVec.ofNat _ (leNat old)) (o.setWidth _) (expected.setWidth _)
  if op = .cas && v == BitVec.ofNat (8 * n) (leNat old) then none else some (leBytes n v.toNat)

/-- The register value of an old word: sign-extended (R136). -/
def amoOld (n : Nat) (old : List Byte) : Word := BitVec.ofInt 64 (toInt (8 * n) (leNat old))

/-- An atomic (R136, R137). It is a release, at scope core in G and die in device memory (R247, R254): it waits until the strand's
stores have left the store buffer and its posted remote operations are acknowledged. The station takes a device line exclusively
and performs the atomic as one event (R250); a failed AMOCAS leaves the page's D bit (R136). -/
def amoOp (s : State) (op : AmoOp) (d a b : SReg) (wide : Bool) : Res :=
  onStrand s fun p t =>
    let n := if wide then 8 else 4
    let x := t.s a
    let kind := if op = .cas then 4 else 3
    match s.target p t x n kind with
    | .trap c => s.raise p c x
    | .walk => s.askWalk p x.toNat kind
    | .buffer off => s.release p 1 fun s => s.localAccess p off n fun s =>
      let y := s.core p.core
      if y.localPoisoned off n then s.uncorrected p (BitVec.ofNat 64 off)
      else
        let old := y.readLocal off n
        let z := match amoBytes op n old (t.s b) (t.s d) with
          | none => y
          | some v => y.writeLocal off v
        (s.setCore p.core z).complete p (t.setS d (amoOld n old))
    | .phys pa e => s.release p 3 fun s =>
      match s.lineWait p.core pa with
        | some l => s.stall p l
        | none =>
          if s.physPoisoned pa n then s.uncorrected p (BitVec.ofNat 64 pa)
          else
            let s1 := (s.recallAll (pa / 64)).cacheHostLine (dieOf p.core) pa
            let old := s1.physRead (dieOf p.core) e.key e.gen pa n
            let s2 := match amoBytes op n old (t.s b) (t.s d) with
              | none => s1
              | some v => (if e.dirty then s1 else s1.markDirty p.core x.toNat).physWrite (dieOf p.core) p.core e.key e.gen pa v
            s2.complete p (t.setS d (amoOld n old))

/-- AMOADD (R136). -/
def execAmoadd (d a b : SReg) (wide : Bool) (s : State) : Res := amoOp s .add d a b wide
/-- AMOSWAP (R136). -/
def execAmoswap (d a b : SReg) (wide : Bool) (s : State) : Res := amoOp s .swap d a b wide
/-- AMOCAS (R136). -/
def execAmocas (d a b : SReg) (wide : Bool) (s : State) : Res := amoOp s .cas d a b wide
/-- AMOMIN (R136). -/
def execAmomin (d a b : SReg) (wide : Bool) (s : State) : Res := amoOp s .min d a b wide
/-- AMOMAX (R136). -/
def execAmomax (d a b : SReg) (wide : Bool) (s : State) : Res := amoOp s .max d a b wide
/-- AMOMINU (R136). -/
def execAmominu (d a b : SReg) (wide : Bool) (s : State) : Res := amoOp s .minu d a b wide
/-- AMOMAXU (R136). -/
def execAmomaxu (d a b : SReg) (wide : Bool) (s : State) : Res := amoOp s .maxu d a b wide
/-- AMOAND (R136). -/
def execAmoand (d a b : SReg) (wide : Bool) (s : State) : Res := amoOp s .and d a b wide
/-- AMOOR (R136). -/
def execAmoor (d a b : SReg) (wide : Bool) (s : State) : Res := amoOp s .or d a b wide
/-- AMOXOR (R136). -/
def execAmoxor (d a b : SReg) (wide : Bool) (s : State) : Res := amoOp s .xor d a b wide

end Sys2Proof.Machine
end

