-- ==== Sys2Proof/Machine/Fe.lean ====
section
/-!
DEFINITION. Full/empty words (R237, R238).
-/

namespace Sys2Proof.Machine

/-- The strands that wait at a G word in one of some ways, in the order in which they began to wait; those that wait on a lock of
its bay (R77) have no turn. -/
def Core.feWaiters (x : Core) (off : Nat) (kinds : List Nat) : List (Nat × Strand) :=
  sortBy (fun (e : Nat × Strand) => e.2.waitFrom) (x.strands.filter fun e => e.2.run == .waiting &&
    !x.lockedAgainst (some e.1) (bayOf (0x38000 + off)) &&
    (match e.2.wait with
     | .fe o k _ => o == off && kinds.contains k
     | _ => false))

/-- The G word at an offset, as a register value. -/
def Core.feWord (x : Core) (off : Nat) : Word := BitVec.ofNat 64 (leNat (x.readG off 8))

/-- A G word written and its tag set full. -/
def Core.feFill (x : Core) (off : Nat) (v : Word) : Core :=
  (x.writeLocal (0x38000 + off) (leBytes 8 v.toNat)).setFull (off / 8) true

/-- The queued waiters of a word served (R238): while it is full its readers complete in order, and the first LDFULL empties
it; while it is empty the first writer fills it. Each round serves one waiter (log 55, DEDUCED). -/
def State.feServe (s : State) (c off : Nat) : Nat → State
  | 0 => s
  | n + 1 =>
    let x := s.core c
    if x.isFull (off / 8) then
      match (x.feWaiters off [0, 1]).head? with
      | none => s
      | some (k, t) =>
        let p : Place := { core := c, strand := k }
        let s1 := (s.setStrand p (t.finish (x.feWord off))).acquireEffect p 6
        match t.wait with
        | .fe _ 0 _ => (s1.modCore c fun y => y.setFull (off / 8) false).feServe c off n
        | _ => s1.feServe c off n
    else
      match (x.feWaiters off [2]).head? with
      | none => s
      | some (k, t) =>
        let v := match t.wait with
          | .fe _ _ v => v
          | _ => 0
        ((s.setStrand { core := c, strand := k } (t.finish 0)).modCore c fun y => y.feFill off v).feServe c off n

/-- Whether a strand that waits at a word is the next to be served there. -/
def Core.feDue (x : Core) (k off : Nat) : Bool :=
  ((x.feWaiters off (if x.isFull (off / 8) then [0, 1] else [2])).head?.map (·.1)) == some k

/-- An FE event at a word (R238, R241): its waiters are served, and every WFEV of the core sees it. -/
def State.feEvent (s : State) (c off : Nat) : State := (s.feServe c off 9).stirCore c

/-- An FE access to the word at G offset sA, once its checks and waits are over (R213). -/
def feOp (s : State) (a : SReg) (scope : Nat) (f : State → Place → Strand → Nat → State) : Res :=
  onStrand s fun p t =>
    let g := t.s a
    match gCheck g 8 8 with
    | some c => s.raise p c g
    | none => s.release p scope fun s => s.localAccess p (0x38000 + g.toNat) 8 fun s => f s p t g.toNat

/-- LDFULL and LDFULLK (R237): an acquire at scope system (R254). -/
def feLoad (s : State) (d a : SReg) (keep : Bool) : Res :=
  feOp s a 0 fun s p t g =>
    let x := s.core p.core
    if !x.isFull (g / 8) then s.setStrand p (t.await s.now (.fe g keep.toNat 0) d)
    else if x.localPoisoned (0x38000 + g) 8 then s.uncorrected p (BitVec.ofNat 64 (0x38000 + g))
    else
      let s1 := (s.complete p (t.setS d (x.feWord g))).acquireEffect p 6
      (if keep then s1 else s1.modCore p.core fun y => y.setFull (g / 8) false).feEvent p.core g

/-- LDFULL. -/
def execLdfull (d a : SReg) (s : State) : Res := feLoad s d a false
/-- LDFULLK. -/
def execLdfullk (d a : SReg) (s : State) : Res := feLoad s d a true

/-- STFULL (R237): a release at scope core (R238). -/
def execStfull (d a : SReg) (s : State) : Res :=
  feOp s a 1 fun s p t g =>
    if (s.core p.core).isFull (g / 8) then s.setStrand p (t.await s.now (.fe g 2 (t.s d)) 0)
    else ((s.complete p t).modCore p.core fun y => y.feFill g (t.s d)).feEvent p.core g

/-- STFILL (R237): a release at scope core (R238); it does not wait for an empty word. -/
def execStfill (d a : SReg) (s : State) : Res :=
  feOp s a 1 fun s p t g => ((s.complete p t).modCore p.core fun y => y.feFill g (t.s d)).feEvent p.core g

/-- FECLR (R237). -/
def execFeclr (a : SReg) (s : State) : Res :=
  feOp s a 0 fun s p t g =>
    ((s.complete p t).modCore p.core fun y => y.setFull (g / 8) false).feEvent p.core g

end Sys2Proof.Machine
end

