-- ==== Sys2Proof/Machine/Alarm.lean ====
section
/-!
DEFINITION. Alarms (R378): what is logged, when failures add up to a level, and the steps that answer levels 2 and 3.
-/

namespace Sys2Proof.Machine

/-- Clk in one millisecond at 1.5 GHz (R22, R371, R378). -/
def clkPerMs : Nat := 1500000

/-- The number under which the gateway is kept as a die of its own (R280, R371). -/
def gatewayDie : Nat := 16

/-- The triggers of R378, as the alarm log numbers them: a route-tag failure, a GCM failure, an exhausted nonce, a link
DOWN, a sensor, the tamper mesh. -/
def trigTag : Nat := 1
def trigGcm : Nat := 2
def trigNonce : Nat := 3
def trigLink : Nat := 4
def trigSensor : Nat := 5
def trigTamper : Nat := 6

/-- An alarm logged (R378). -/
def State.logAlarm (s : State) (level trigger : Nat) (ctxs : List Nat) : State :=
  { s with alarms := s.alarms ++ [{ level := level, trigger := trigger, clk := s.cycle, ctxs := ctxs }] }

/-- An alarm raised: logged, and at level 2 or 3 answered by a step of the security core (R379, R380). Level 3 is of every context
(R378). -/
def State.raiseAlarm (s : State) (level trigger : Nat) (named : List Nat) : State :=
  let ctxs := if level = 3 then mkeys s.contexts else named
  let s1 := s.logAlarm level trigger ctxs
  if level = 2 then s1.later .alarmLevel2 (.alarm trigger ctxs)
  else if level = 3 then s1.later .alarmLevel3 (.alarm trigger ctxs)
  else s1

/-- One route-tag failure on a die, of a sending context (R214, R280, R378). -/
def State.countTagFail (s : State) (d ctx : Nat) : State :=
  let x := s.die d
  let recent := (x.tagFails.filter fun e => s.now < e.2 + clkPerMs) ++ [(ctx, s.now)]
  let s1 := (s.setDie d { x with tagFails := recent }).logAlarm 1 trigTag []
  if 64 ≤ recent.length then s1.raiseAlarm 2 trigTag ((recent.map (·.1)).eraseDups.filter (· != 0)) else s1

/-- One GCM failure on a die, under a context's key, or under another key as context 0 (R371). -/
def State.countGcmFail (s : State) (d ctx : Nat) : State :=
  let x := s.die d
  let recent := (x.gcmFails.filter fun e => s.now < e.2 + clkPerMs) ++ [(ctx, s.now)]
  let s1 := (s.setDie d { x with gcmFails := recent }).logAlarm 1 trigGcm []
  if 64 ≤ recent.length then s1.raiseAlarm 3 trigGcm []
  else if ctx ≠ 0 ∧ 16 ≤ (recent.filter fun e => e.1 == ctx).length then s1.raiseAlarm 2 trigGcm [ctx]
  else s1

end Sys2Proof.Machine
end

