-- ==== Sys2Proof/Machine/Gcm.lean ====
section
/-!
DEFINITION. AES-256-GCM (NIST SP 800-38D) with a 64-bit tag, which seals packets and chunks (R370, R376), and SHA-256 (FIPS 180-4), the
digest of a migration's manifest (R376). Bytes are numbers below 256.
-/

namespace Sys2Proof.Machine.Gcm

open Sys2Proof.Machine.Aes

/-- Multiplication in GF(2^128) of SP 800-38D, over the bits of the first factor from the most significant one. -/
def mulBits : Nat → Nat → Nat → Nat → Nat
  | 0, _, _, z => z
  | n + 1, x, v, z =>
    mulBits n x (if v % 2 = 1 then v / 2 ^^^ 0xE1 * 2 ^ 120 else v / 2) (if x / 2 ^ n % 2 = 1 then z ^^^ v else z)
def mul (x y : Nat) : Nat := mulBits 128 x y 0

/-- Bytes cut into blocks of 16, the last padded with zeros; n bounds the number of blocks. -/
def blocks : Nat → List Nat → List (List Nat)
  | 0, _ => []
  | n + 1, b => if b.isEmpty then [] else (b ++ List.replicate 16 0).take 16 :: blocks n (b.drop 16)

/-- GHASH of the additional data and the ciphertext, with their lengths in bits. -/
def ghash (h : Nat) (aad c : List Nat) : Nat :=
  let all := blocks (aad.length + 1) aad ++ blocks (c.length + 1) c ++ [beBlock (aad.length * 8 * 2 ^ 64 + c.length * 8)]
  all.foldl (fun y b => mul (y ^^^ beNat b) h) 0

/-- The counter block of a 96-bit nonce. -/
def counterBlock (nonce : List Nat) (n : Nat) : List Nat := nonce ++ (beBlock n).drop 12

/-- The counter mode: the same for encryption and decryption. -/
def crypt (k : BitVec 256) (nonce : List Nat) (b : List Nat) : List Nat :=
  let pads := (List.range (b.length / 16 + 1)).map fun i => encrypt k (counterBlock nonce (i + 2))
  xorL b pads.flatten

/-- The tag over additional data and ciphertext: the first eight bytes of the 128-bit tag. -/
def tag (k : BitVec 256) (nonce aad c : List Nat) : List Nat :=
  let h := beNat (encrypt k (List.replicate 16 0))
  (xorL (encrypt k (counterBlock nonce 1)) (beBlock (ghash h aad c))).take 8

end Sys2Proof.Machine.Gcm

namespace Sys2Proof.Machine.Sha

/-- Rotation of a 32-bit word to the right. -/
def rotr (x n : Nat) : Nat := x / 2 ^ n + x % 2 ^ n * 2 ^ (32 - n)

/-- Roots by bisection: the greatest number of so many bits whose power is not above a bound. -/
def rootBits (k : Nat) : Nat → Nat → Nat → Nat
  | 0, r, _ => r
  | n + 1, r, x => rootBits k n (if (r + 2 ^ n) ^ k ≤ x then r + 2 ^ n else r) x

/-- The first 64 primes. -/
def primes : List Nat :=
  [2, 3, 5, 7, 11, 13, 17, 19, 23, 29, 31, 37, 41, 43, 47, 53, 59, 61, 67, 71, 73, 79, 83, 89, 97, 101, 103, 107, 109, 113, 127, 131] ++
  [137, 139, 149, 151, 157, 163, 167, 173, 179, 181, 191, 193, 197, 199, 211, 223, 227, 229, 233, 239, 241, 251, 257, 263, 269, 271,
   277, 281, 283, 293, 307, 311]

/-- The constants of FIPS 180-4: the first 32 bits of the fractions of the square roots of the first eight primes, and of the cube
roots of the first 64. -/
def start : List Nat := (primes.take 8).map fun p => rootBits 2 38 0 (p * 2 ^ 64) % 2 ^ 32
def consts : List Nat := primes.map fun p => rootBits 3 38 0 (p * 2 ^ 96) % 2 ^ 32

/-- The message schedule: the last 16 words, the newest first, for a number of further words. -/
def schedule : Nat → List Nat → List Nat
  | 0, w => w
  | n + 1, w =>
    let a := w.getD 14 0
    let b := w.getD 1 0
    let s0 := rotr a 7 ^^^ rotr a 18 ^^^ a / 2 ^ 3
    let s1 := rotr b 17 ^^^ rotr b 19 ^^^ b / 2 ^ 10
    schedule n ((w.getD 15 0 + s0 + w.getD 6 0 + s1) % 2 ^ 32 :: w)

/-- One round on the eight working words. -/
def round (v : List Nat) (kw : Nat × Nat) : List Nat :=
  match v with
  | [a, b, c, d, e, f, g, h] =>
    let t1 := h + (rotr e 6 ^^^ rotr e 11 ^^^ rotr e 25) + ((e &&& f) ^^^ ((2 ^ 32 - 1 - e) &&& g)) + kw.1 + kw.2
    let t2 := (rotr a 2 ^^^ rotr a 13 ^^^ rotr a 22) + ((a &&& b) ^^^ (a &&& c) ^^^ (b &&& c))
    [(t1 + t2) % 2 ^ 32, a, b, c, (d + t1) % 2 ^ 32, e, f, g]
  | _ => v

/-- The words of a block, each from four bytes with the most significant first. -/
def words (b : List Nat) : List Nat := (List.range 16).map fun i => Aes.beNat ((b.drop (4 * i)).take 4)

/-- One block of 64 bytes worked in. -/
def block (h : List Nat) (b : List Nat) : List Nat :=
  let w := (schedule 48 (words b).reverse).reverse
  (List.zipWith (fun x y => (x + y) % 2 ^ 32) h ((consts.zip w).foldl round h))

/-- Bytes cut into blocks of 64; n bounds their number. -/
def blocks : Nat → List Nat → List (List Nat)
  | 0, _ => []
  | n + 1, b => if b.isEmpty then [] else b.take 64 :: blocks n (b.drop 64)

/-- The digest of bytes, as a number with its first byte the most significant. -/
def digest (b : List Nat) : Nat :=
  let padded := b ++ [0x80] ++ List.replicate ((119 - b.length % 64) % 64) 0 ++ (Aes.beBlock (8 * b.length)).drop 8
  ((blocks (padded.length + 1) padded).foldl block start).foldl (fun n w => n * 2 ^ 32 + w) 0

end Sys2Proof.Machine.Sha
end

