-- ==== Sys2Proof/Machine/Route.lean ====
section
/-!
DEFINITION. Routes as objects: the fields of a route word (R264), its seal (R265), the walk of its PATH (R267, R268, R272,
R401), and the checks of the sending NI (R208).
-/

namespace Sys2Proof.Machine

/-! ### Fields (R264) -/

def wPath (w : RouteWord) : Nat := bits w.toNat 0 120
def wEndp (w : RouteWord) : Nat := bits w.toNat 120 8
def wBase (w : RouteWord) : Nat := bits w.toNat 128 20
def wLen (w : RouteWord) : Nat := bits w.toNat 148 20
def wRights (w : RouteWord) : Nat := bits w.toNat 168 8
def wGen (w : RouteWord) : Nat := bits w.toNat 176 16
def wOwner (w : RouteWord) : Nat := bits w.toNat 192 16
def wFlags (w : RouteWord) : Nat := bits w.toNat 208 8
def wTag (w : RouteWord) : Nat := bits w.toNat 216 40

/-- A word with n bits from lo on replaced. -/
def putBits (w : RouteWord) (lo n v : Nat) : RouteWord :=
  BitVec.ofNat 256 (w.toNat - bits w.toNat lo n * 2 ^ lo + v % 2 ^ n * 2 ^ lo)

/-- The rights of R264, from bit 0 up. -/
def rightR : Nat := 0x01
def rightW : Nat := 0x02
def rightA : Nat := 0x04
def rightS : Nat := 0x08
def rightD : Nat := 0x10
def rightN : Nat := 0x20
def rightL : Nat := 0x40
def rightF : Nat := 0x80

/-- STRIPE-OK and ORDERED (R264). -/
def wStripe (w : RouteWord) : Bool := bit (wFlags w) 0
def wOrdered (w : RouteWord) : Bool := bit (wFlags w) 1

/-- A word sealed under a key (R265). -/
def sealWord (k : Key) (w : RouteWord) : RouteWord := putBits w 216 40 (Aes.routeTag k w)
/-- Whether a word's TAG is its MAC. -/
def sealOk (k : Key) (w : RouteWord) : Bool := wTag w == Aes.routeTag k w

/-- Rights that minting keeps for an endpoint (R218, R266). -/
def rightsKept (endp : Nat) : Nat :=
  rightD + rightN + (match endp with
    | 0x01 | 0x02 => rightR + rightW
    | 0x03 => rightR
    | 0x04 => rightR + rightW + rightA + rightF
    | 0x05 | 0x06 | 0x07 | 0x85 | 0x86 => rightS
    | 0x08 => rightL
    | _ => 0)

/-- The limit within which an endpoint's window must lie (R266). -/
def windowLimit (endp : Nat) : Nat :=
  match endp with
  | 0x01 => 98304
  | 0x02 | 0x03 => 65536
  | 0x04 => 0x6000
  | 0x05 | 0x85 => 8
  | 0x06 | 0x86 => 4
  | 0x07 => 256
  | _ => 2 ^ 20

/-- Whether a number is an ENDP code (R266). -/
def endpListed (e : Nat) : Bool := (1 ≤ e && e ≤ 8) || e == 0x85 || e == 0x86

/-! ### Paths -/

/-- DIR and COUNT of segment j (R264). -/
def segDir (path j : Nat) : Nat := bits path (12 * j + 8) 4
def segCount (path j : Nat) : Nat := bits path (12 * j) 8

/-- The segments up to the END that ends the path, or all ten (R267). -/
def segsFrom (path : Nat) : Nat → Nat → List (Nat × Nat)
  | 0, _ => []
  | n + 1, j => if segDir path j = 0 then [] else (segDir path j, segCount path j) :: segsFrom path n (j + 1)
def segments (path : Nat) : List (Nat × Nat) := segsFrom path 10 0

/-- The number of the segment that ends the path: 10 when it has no END (R269). -/
def endIndex (path : Nat) : Nat := (segments path).length

/-- The segments that R267 does not skip. -/
def liveSegs (path : Nat) : List (Nat × Nat) := (segments path).filter fun e => !(1 ≤ e.1 && e.1 ≤ 4 && e.2 == 0)

/-- A mesh segment walked from package coordinates; the hops lie on a line, so its end tells whether it stays inside. -/
def meshStep (d n : Nat) (p : Int × Int) : Int × Int :=
  match d with
  | 1 => (p.1 + n, p.2)
  | 2 => (p.1 - n, p.2)
  | 3 => (p.1, p.2 - n)
  | _ => (p.1, p.2 + n)

/-- Whether package coordinates lie in the grid (R2). -/
def inGrid (p : Int × Int) : Bool := 0 ≤ p.1 && p.1 < 512 && 0 ≤ p.2 && p.2 < 640

/-- Mesh segments walked from a point; any other segment is a path fault. -/
def meshWalk : List (Nat × Nat) → Int × Int → Option (Int × Int)
  | [], p => some p
  | (d, n) :: r, p =>
    let q := meshStep d n p
    if 1 ≤ d && d ≤ 4 && inGrid q then meshWalk r q else none

/-- Where a path leads: the core, the module steps of its FIB segments, and whether it has the gateway shape. -/
structure PathEnd where
  core : Nat
  fibs : List (Nat × Nat)
  gate : Option Nat
  deriving DecidableEq, Repr

/-- What follows GATE: at most four FIB segments with their steps, LAND, then mesh segments (R267, R268) (log 48, DEDUCED). -/
def gateWalk (gate : Nat) : Nat → List (Nat × Nat) → List (Nat × Nat) → Option PathEnd
  | _, _, [] => none
  | left, fibs, (d, n) :: r =>
    if d = 6 then
      (match left with
       | 0 => none
       | k + 1 => if n % 32 = 0 then none else gateWalk gate k (fibs ++ [(n / 32, n % 32)]) r)
    else if d = 7 then
      (if n / 64 ≠ 0 ∨ bits n 4 2 = 3 then none else
        let die := n % 16
        let start : Int × Int := (128 * (die % 4 : Nat) + 32 * (bits n 4 2 + 1 : Nat), 160 * (die / 4 : Nat))
        (meshWalk r start).map fun (p : Int × Int) => { core := coreAtPkg p.1.toNat p.2.toNat, fibs := fibs, gate := some gate })
    else none

/-- The walk of a PATH (R401): its end, or none for a path fault. A path for a manager core's endpoint must end at the
switch of such a core (R18). -/
def walkPath (path endp : Nat) : Option PathEnd :=
  let r := match liveSegs path with
    | (5, n) :: rest => if n ≤ 2 then gateWalk n 4 [] rest else none
    | segs => (meshWalk segs (0, 0)).map fun (p : Int × Int) => { core := coreAtPkg p.1.toNat p.2.toNat, fibs := [], gate := none }
  match r with
  | none => none
  | some e =>
    if 0x80 ≤ endp then (if xOf e.core = 64 ∧ yOf e.core = 80 then some { e with core := managerBase + dieOf e.core } else none)
    else some e

/-! ### Modules of the domain (R20, R269) -/

/-- A coordinate of a module: a, b, c and d as dimensions 0 to 3. -/
def modCoord (m dim : Nat) : Nat :=
  match dim with
  | 0 => m % 4
  | 1 => m / 4 % 4
  | 2 => m / 16 % 32
  | _ => m / 512 % 32

/-- What one step in a dimension adds to a module's number. -/
def modUnit (dim : Nat) : Nat :=
  match dim with
  | 0 => 1
  | 1 => 4
  | 2 => 16
  | _ => 512

/-- The size of the torus of a dimension (R20). -/
def State.torus (s : State) (dim : Nat) : Nat :=
  match dim with
  | 2 => s.torusC
  | 3 => s.torusD
  | _ => 4

/-- The module that lies n steps in a direction (R19) from a module (R20). -/
def State.moduleAt (s : State) (m dir n : Nat) : Nat :=
  let dim := dir / 2
  let q := modCoord m dim
  let size := s.torus dim
  let r := if dir % 2 = 0 then (q + n) % size else (q + 32 * size - n) % size
  m - q * modUnit dim + r * modUnit dim

/-- Whether the module at a reach index of a direction is missing: its wavelengths are dark (R20, R21). -/
def State.indexAbsent (s : State) (dir j : Nat) : Bool := mhas s.absent (s.moduleAt s.moduleId dir (j + 1))

/-- The module that a path leads to from this one (R267). -/
def State.farModule (s : State) (e : PathEnd) : Nat := e.fibs.foldl (fun m f => s.moduleAt m f.1 f.2) s.moduleId

/-! ### Paths that Linane writes (R277) -/

/-- A run of hops in one direction as segments of at most 255. -/
def hopSegs : Nat → Nat → Nat → List (Nat × Nat)
  | 0, _, _ => []
  | f + 1, dir, n => if n = 0 then [] else (dir, min n 255) :: hopSegs f dir (n - min n 255)

/-- Hops along a row, and along a column. -/
def horizontal (n : Int) : List (Nat × Nat) := if 0 ≤ n then hopSegs 3 1 n.toNat else hopSegs 3 2 (-n).toNat
def vertical (n : Int) : List (Nat × Nat) := if 0 ≤ n then hopSegs 3 4 n.toNat else hopSegs 3 3 (-n).toNat

/-- Segments packed into a PATH (R264). -/
def packPath : List (Nat × Nat) → Nat
  | [] => 0
  | (d, n) :: r => n + 2 ^ 8 * d + 2 ^ 12 * packPath r

/-- The PATH of the local shape to a core (R277): east, then south, from the package's corner. -/
def localPath (c : Nat) : Nat := packPath (horizontal (pxOf c) ++ vertical (pyOf c))

/-- The package port whose column is nearest a core's, the lower one on a tie (R277). -/
def gateFor (c : Nat) : Nat := if xOf c ≤ 48 then 0 else if xOf c ≤ 80 then 1 else 2

/-- The column of a package port's switch (R17). -/
def portCol (p : Nat) : Nat := 32 * (p + 1)

/-- The FIB segment along a dimension, the shorter way round its torus; where both ways are as long, the + direction (log 96, DESIGN
CHOICE). -/
def fibSeg (dim size from' to' : Nat) : List (Nat × Nat) :=
  let up := (to' + size - from') % size
  if up = 0 then []
  else if up ≤ size - up then [(6, 64 * dim + up)]
  else [(6, 64 * dim + 32 + (size - up))]

/-- The FIB segments from one module to another, in the order a, b, c, d (R277). -/
def State.fibsTo (s : State) (m m' : Nat) : List (Nat × Nat) :=
  ((List.range 4).map fun d => fibSeg d (s.torus d) (modCoord m d) (modCoord m' d)).flatten

/-- The PATH of the gateway shape from a core to a core of a module (R277). -/
def State.gatewayPath (s : State) (c m target : Nat) : Nat :=
  packPath ((5, gateFor c) :: s.fibsTo s.moduleId m ++ (7, dieOf target + 16 * gateFor target) ::
    (horizontal ((xOf target : Int) - portCol (gateFor target)) ++ vertical (yOf target)))

/-- The fields of a word to be minted. -/
def rawRoute (path endp base len rights gen owner flags : Nat) : RouteWord :=
  BitVec.ofNat 256 (path + 2 ^ 120 * endp + 2 ^ 128 * base + 2 ^ 148 * len + 2 ^ 168 * rights + 2 ^ 176 * gen +
    2 ^ 192 * owner + 2 ^ 208 * flags)

/-! ### What a path says -/

/-- Selector 7 of WINFO (R217). -/
def pathInfo (path endp : Nat) : Nat :=
  match walkPath path endp with
  | none => 2 ^ 64 - 1
  | some e =>
    dieOf e.core + 2 ^ 8 * xOf e.core + 2 ^ 16 * yOf e.core +
      ((e.fibs.zipIdx).map fun f => f.1.2 * 2 ^ (32 + 8 * f.2)).sum

/-- The path scope (R254): die without GATE and FIB, module with GATE or LAND but no FIB, domain with FIB. -/
def pathScope (w : RouteWord) : Nat :=
  let s := segments (wPath w)
  if s.any fun e => e.1 == 6 then 5 else if s.any fun e => e.1 == 5 || e.1 == 7 then 4 else 3

/-! ### Checks at the sending NI (R208) -/

/-- The first four checks: null, OWNER, RIGHTS, ENDP. -/
def checkHead (w : RouteWord) (ctx reg need : Nat) (endps : List Nat) : Option (Nat × Word) :=
  if w = 0 then some (causeRouteNull, BitVec.ofNat 64 reg)
  else if wOwner w ≠ ctx then some (causeRouteOwner, BitVec.ofNat 64 (wOwner w))
  else
    let miss := need - (need &&& wRights w)
    if miss ≠ 0 then some (causeRouteRights, BitVec.ofNat 64 (miss * 256 + reg))
    else if !endps.contains (wEndp w) then some (causeSpace, BitVec.ofNat 64 (wEndp w))
    else none

/-- The alignment and window checks. -/
def checkWindow (w : RouteWord) (off size align : Nat) : Option (Nat × Word) :=
  if (wBase w + off) % align ≠ 0 then some (causeMisalign, BitVec.ofNat 64 off)
  else if wLen w < off + size then some (causeRouteWindow, BitVec.ofNat 64 (max off (wLen w)))
  else none

/-- All the checks of R208. -/
def checkRoute (w : RouteWord) (ctx reg need : Nat) (endps : List Nat) (off size align : Nat) : Option (Nat × Word) :=
  (checkHead w ctx reg need endps).or (checkWindow w off size align)

/-- The offset of an absolute unit (R208). -/
def unitOff (w : RouteWord) (u : Nat) : Nat := (u + 2 ^ 64 - wBase w) % 2 ^ 64

/-- The context that a core's strands act for. -/
def State.ctxOf (s : State) (p : Place) : Nat := (s.core p.core).owner.id

/-- The sheaf that a route register sends over: the register first, then the others in ascending number (R221). -/
def Strand.sheafOf (t : Strand) (r : RReg) : List Nat :=
  match mget t.sheaves r.val with
  | none => [r.val]
  | some k => r.val :: (t.sheafMembers k).filter (· != r.val)

/-- The word of a register by its number. -/
def Strand.wn (t : Strand) (r : Nat) : RouteWord := if r = 0 then 0 else mgetD t.routes r 0

/-- The checks on every register of a list, the first failure deciding (R203, R225). -/
def checkMembers (t : Strand) (ctx need : Nat) (endps : List Nat) (off size align : Nat) (rs : List Nat) :
    Option (Nat × Word) :=
  rs.findSome? fun r => checkRoute (t.wn r) ctx r need endps off size align

end Sys2Proof.Machine
end

