-- ==== Sys2Proof/Machine/Fabric.lean ====
section
/-!
DEFINITION. The network interface of a core: packets built, encrypted, sent, held and answered (R209, R211, R269, R272, R273, R283, R370).
Every packet travels switch by switch: requests on their path, answers back the way that the request came, packets without a route
word along X and then Y (log 20, DESIGN CHOICE).
-/

namespace Sys2Proof.Machine

/-- The virtual channel of a packet (R283). -/
def PKind.vc : PKind → Nat
  | .send .. | .postw .. | .move .. => 2
  | .resp .. | .ack | .nack .. | .refusal .. | .keepWaiting | .moveRefused .. | .moveDone .. | .moveNacked .. | .release ..
  | .watchAns .. | .withdrawAns .. => 1
  | _ => 0

/-- The step that takes a packet when it has reached its target. -/
def PKind.arrival : PKind → Instr
  | .rld .. | .rst .. | .cpy .. | .rstf .. | .ramo .. | .rldv .. | .rstv .. => .remoteAccessArrival
  | .send .. => .messageArrival
  | .postw .. => .taskPacketArrival
  | .wlease .. => .leaseRequestArrival
  | .arrive .. => .barrierArrival
  | .watch .. => .watchArrival
  | .leave .. => .leaveNotice
  | .withdraw .. => .withdrawalArrival
  | .move .. => .migrationArrival
  | .wgen .. => .portGenAdvance
  | .resp .. => .responseArrival
  | .ack | .moveDone .. => .acknowledgementArrival
  | .nack .. | .moveNacked .. => .nackArrival
  | .refusal .. => .refusalArrival
  | .keepWaiting => .keepWaitingNotice
  | .moveRefused .. => .migrationRefused
  | .release .. => .barrierRelease
  | .watchAns .. => .watchAnswer
  | .withdrawAns .. => .withdrawalAnswer

/-- The lead of a header (R269): to the target's package coordinates, or to the switch of the GATE port. -/
def leadOf (core : Nat) (w : RouteWord) : Int × Int :=
  match liveSegs (wPath w) with
  | (5, n) :: _ => ((32 * (n + 1) : Nat) - (xOf core : Int), 0 - (yOf core : Int))
  | _ =>
    match walkPath (wPath w) 0 with
    | some e => ((pxOf e.core : Int) - pxOf core, (pyOf e.core : Int) - pyOf core)
    | none => (0, 0)

/-- SEG of a header (R269). -/
def segOf (w : RouteWord) : Nat :=
  match liveSegs (wPath w) with
  | (5, _) :: _ => 0
  | _ => endIndex (wPath w)

/-- What a strand or unit asks its NI to send. -/
structure SendReq where
  word : RouteWord
  wreg : Nat
  kind : PKind
  payload : List Byte
  chunk : Nat
  ordered : Bool
  waiting : Bool
  dest : Nat
  elems : List Nat
  members : List (Nat × RouteWord)
  origins : List (Nat × Nat) := []
  deriving DecidableEq, Repr

/-- A request of one packet on one register. -/
def oneReq (w : RouteWord) (wreg : Nat) (kind : PKind) (payload : List Byte) (waiting : Bool) : SendReq :=
  { word := w, wreg := wreg, kind := kind, payload := payload, chunk := 0, ordered := false, waiting := waiting,
    dest := 0, elems := [], members := [(wreg, w)] }

/-! ### A core's own copy of a barrier (R341) -/

/-- A core's own copy of a barrier. -/
def Core.view (x : Core) (g : Nat) : BarrView := mgetD x.views g { phase := 0, arrived := [], releasedSeen := false, held := none }

/-- Whether a phase is past another (R232). -/
def phasePast (phase : Nat) (since : BitVec 32) : Bool :=
  let d := (BitVec.ofNat 32 phase - since).toNat
  0 < d && d < 2 ^ 31

/-- The phase of a group as a strand of the core knows it (R341): the core's copy, or the later one that the answer to its own watch has
told it (R343). -/
def Core.phaseOf (x : Core) (g k : Nat) : Nat :=
  match mget (x.view g).ahead k with
  | some n => if phasePast n (BitVec.ofNat 32 (x.view g).phase) then n else (x.view g).phase
  | none => (x.view g).phase

/-- A strand's arrived bit set, with the phase of the arrival (R343). -/
def Core.arrive (x : Core) (g k : Nat) : Core :=
  { x with views := mset x.views g { x.view g with arrived := mset (x.view g).arrived k (x.phaseOf g k) } }

/-- A strand's arrived bit cleared (R343, R345). -/
def Core.unarrive (x : Core) (g k : Nat) : Core :=
  if mhas (x.view g).arrived k then
    { x with views := mset x.views g { x.view g with arrived := mdel (x.view g).arrived k } }
  else x

/-! ### Links (R281, R282) -/

/-- A link direction: out of a switch toward E, W, N or S; between a package port of a die and the gateway, outward and
inward; a fibre port. -/
def meshLink (c dir : Nat) : Nat := 4 * c + (dir - 1)
def portOutLink (d p : Nat) : Nat := 4 * managerBase + 2 * (3 * d + p)
def portInLink (d p : Nat) : Nat := 4 * managerBase + 2 * (3 * d + p) + 1
def fibreLink (f : Nat) : Nat := 4 * managerBase + 96 + f

/-- A link; one that is not listed is UP. -/
def State.link (s : State) (l : Nat) : Link :=
  mgetD s.links l { state := .up, retired := 0, failures := 0, detour := false }

/-- The switch next to one in a direction. -/
def nextSwitch (c dir : Nat) : Nat :=
  match dir with
  | 1 => coreAtPkg (pxOf c + 1) (pyOf c)
  | 2 => coreAtPkg (pxOf c - 1) (pyOf c)
  | 3 => coreAtPkg (pxOf c) (pyOf c - 1)
  | _ => coreAtPkg (pxOf c) (pyOf c + 1)

/-- The link from one place to a neighbouring one. -/
def linkBetween (a b : Loc) : Option Nat :=
  match a, b with
  | .switch c, .switch d => ((List.range 4).find? fun i => nextSwitch c (i + 1) == d).map fun i => meshLink c (i + 1)
  | .switch c, .gateway => some (portOutLink (dieOf c) (xOf c / 32 - 1))
  | .gateway, .switch c => some (portInLink (dieOf c) (xOf c / 32 - 1))
  | _, _ => none

/-! ### Queues (R284, R285, R290)

The packets at a switch or at the gateway that came from one place on one virtual channel stand in one queue; only its head moves. -/

/-- Whether a packet stands in an input queue. -/
def Packet.queued (k : Packet) : Bool :=
  match k.loc with
  | .switch _ | .gateway => true
  | _ => false

/-- A sending register, over every module, by its number among the strand's. -/
def Packet.senderAt (k : Packet) (wreg : Nat) : Nat := ((k.module' * 2 ^ 20 + k.core) * 8 + k.strand) * 32 + wreg
def Packet.sender (k : Packet) : Nat := k.senderAt k.wreg

/-- Whether a packet waits at the gateway for a channel of its register, set aside from the port that it came by (R296). -/
def Packet.aside (k : Packet) : Bool := k.loc == .gateway && k.port == some .gateway

/-- Whether two packets stand in the same queue; of those set aside at the gateway, only packets of one sending register do. -/
def Packet.sameQueue (a b : Packet) : Bool :=
  a.queued && a.loc == b.loc && a.port == b.port && a.vc == b.vc && (!a.aside || a.sender == b.sender)

/-- Whether one packet stands before another in their queue. -/
def inFront (a b : Nat × Packet) : Bool :=
  decide (a.2.stamp < b.2.stamp) || (a.2.stamp == b.2.stamp && decide (a.1 < b.1))

/-- Whether a packet is the head of its queue. -/
def State.isHead (s : State) (id : Nat) (k : Packet) : Bool :=
  !s.packets.any fun e => e.1 != id && e.2.sameQueue k && inFront e (id, k)

/-- A packet has left its queue: the timer of the new head begins (R290). -/
def State.nextHead (s : State) (k : Packet) : State :=
  match s.packets.find? fun e => e.2.sameQueue k && s.isHead e.1 e.2 with
  | none => s
  | some (id, q) => { s with packets := mset s.packets id { q with blockedFrom := s.now } }

/-- A packet taken out of the fabric. -/
def State.dropPacket (s : State) (id : Nat) : State :=
  match mget s.packets id with
  | none => s
  | some k =>
    let s1 := { s with packets := mdel s.packets id }
    if k.queued then s1.nextHead k else s1

/-- A packet put into the fabric, with the step that moves it due. -/
def State.inject (s : State) (pkt : Packet) (step : Instr) : State :=
  { s with
    packets := mset s.packets s.packetNo { pkt with stamp := s.draws }
    packetNo := s.packetNo + 1
    agenda := s.agenda ++ [{ step := step, given := .packet s.packetNo }] }

/-- A packet put back with its next step due now: it has moved on to another place, or to the NI that it is for. -/
def State.advancePacket (s : State) (id : Nat) (k : Packet) (i : Instr) : State :=
  let s1 := match mget s.packets id with
    | none => s
    | some q =>
      let s2 := { s with packets := mset s.packets id { k with blockedFrom := s.now, flagged := false, stamp := s.draws } }
      if q.sameQueue k then s2 else s2.nextHead q
  s1.later i (.packet id)

/-- A packet that cannot advance now: the same step is due a clk later. -/
def State.holdPacket (s : State) (id : Nat) (i : Instr) : State := s.after 1 i (.packet id)

/-! ### Answers (R273, R283) -/

/-- Whether a packet answers one on a route, whose way it retraces (R273); one that answers a packet without a route word goes along X
and then Y (R286). -/
def Packet.retraces (k : Packet) : Bool :=
  k.word != 0 &&
  (match k.kind with
   | .resp .. | .ack | .nack .. | .refusal .. | .keepWaiting | .watchAns .. | .withdrawAns .. => true
   | _ => false)

/-- The places from a switch on along a lead, in X and then in Y, the latest first (R269). -/
def leadTrail : Nat → Nat → Int → Int → List Loc → List Loc
  | 0, c, _, _, l => .switch c :: l
  | n + 1, c, x, y, l =>
    if 0 < x then leadTrail n (nextSwitch c 1) (x - 1) y (.switch c :: l)
    else if x < 0 then leadTrail n (nextSwitch c 2) (x + 1) y (.switch c :: l)
    else if 0 < y then leadTrail n (nextSwitch c 4) x (y - 1) (.switch c :: l)
    else if y < 0 then leadTrail n (nextSwitch c 3) x (y + 1) (.switch c :: l)
    else .switch c :: l

/-- The places that a packet passes from a core's switch to another switch of the mesh, in X and then in Y, the latest first. -/
def meshTrail (c d : Nat) : List Loc :=
  leadTrail 1152 (switchOf c) ((pxOf d : Int) - pxOf (switchOf c)) ((pyOf d : Int) - pyOf (switchOf c)) []

/-- The last FIB segment of a path before a segment, with its steps: where an answer to another module begins its way back. -/
def lastFib (path : Nat) : Nat → Nat × Nat
  | 0 => (0, 0)
  | j + 1 => if segDir path j = 6 then (j, segCount path j % 32) else lastFib path j

/-- The place from which an answer to a packet sets out. -/
def Loc.out : Loc → Loc
  | .ni c => .switch (switchOf c)
  | .fibreSink _ => .gateway
  | l => l

/-- The step of a packet in a queue at a place. -/
def Loc.header : Loc → Instr
  | .switch _ => .switchHeader
  | _ => .gatewayHeader

/-! ### Keys and nonces (R369, R370) -/

/-- The key of a context at a die; packets that carry no context id travel under the module's link key (R370). -/
def State.storeKey (s : State) (d ctx : Nat) : Key := ((s.storeEntry d ctx).map (·.key)).getD s.moduleKey

/-- The key of a context as an NI has it: from its cache, or from the key stores (R369). -/
def State.niKey (s : State) (c ctx : Nat) : Key :=
  match (s.core c).ni.keys.find? fun e => e.1 == ctx with
  | some e => e.2
  | none => s.storeKey (dieOf c) ctx

/-- An NI that uses a context's key caches it: its own context's, and the three others used last (R369) (log 107, DESIGN CHOICE). -/
def State.cacheKey (s : State) (c ctx : Nat) : State :=
  match s.storeEntry (dieOf c) ctx with
  | none => s
  | some e =>
    s.modCore c fun x =>
      let other := fun (f : Nat × Key) => f.1 != ctx && f.1 != x.owner.id
      let own := x.ni.keys.filter fun f => f.1 == x.owner.id && f.1 != ctx
      { x with ni := { x.ni with
        keys := (ctx, e.key) :: own ++ (x.ni.keys.filter other).take (if ctx = x.owner.id then 3 else 2) } }

/-- The key stores of the dies as the contexts stand: each holds the key and the slots of every context that has a core on the die. An
NI keeps no key that the stores no longer hold (R369). -/
def State.syncKeys (s : State) : State :=
  let dies := ((s.cores.filter fun e => e.2.owner.id != 0).map fun e => dieOf e.1) ++ mkeys s.dies
  let s1 := dies.eraseDups.foldl (fun (s : State) d => s.modDie d fun x => { x with
    keys := s.contexts.filterMap fun e =>
      if s.cores.any fun c => dieOf c.1 == d && c.2.owner.id == e.1 then some (e.1, { key := e.2.key, slots := e.2.slots }) else none }) s
  { s1 with cores := mmap (fun _ x => { x with ni := { x.ni with
      keys := x.ni.keys.filter fun k => ((mget s1.contexts k.1).map (·.key)) == some k.2 } }) s1.cores }

/-- The nonce counter of an NI taken for one encryption (R370): none at an NI of a frozen core, which sends nothing (R379), or at one
whose counter is spent, which raises a level-2 alarm. -/
def State.takeNonce (s : State) (c : Nat) : State × Option Nat :=
  let x := s.core c
  if x.owner.frozen then (s, none)
  else if 2 ^ 64 - 1 ≤ x.ni.nonce then (s.raiseAlarm 2 trigNonce [x.owner.id], none)
  else (s.modCore c fun x => { x with ni := { x.ni with nonce := x.ni.nonce + 1 } }, some x.ni.nonce)

/-- The number of a kind among the remote operations, and the operands that go with a packet of it beside its payload. The spec gives
neither the codes nor the layout (log 106, DESIGN CHOICE). -/
def PKind.body : PKind → Nat × List Nat
  | .rld off => (0, [off])
  | .rst off => (1, [off])
  | .cpy offs _ _ => (2, offs)
  | .rstf off => (3, [off])
  | .ramo off op o x => (4, [off, op, o.toNat, x.toNat])
  | .rldv n offs => (5, n :: offs)
  | .rstv n offs => (6, n :: offs)
  | .send k tag => (7, [k, tag])
  | .postw n => (8, [n])
  | .wlease h r => (9, [h, r])
  | .arrive g p _ => (10, [g, p])
  | .watch g _ => (11, [g])
  | .leave g p _ a => (12, [g, p, a.toNat])
  | .withdraw g _ w => (13, [g, w.toNat])
  | .move d n e => (14, [d, n, e.packet.toNat, e.prio, e.stamp])
  | .wgen t p => (15, [t, p])
  | .resp ok => (16, [ok])
  | .ack => (17, [])
  | .nack n => (18, [n.toNat])
  | .refusal r => (19, [r])
  | .keepWaiting => (20, [])
  | .moveRefused n => (21, [n])
  | .moveDone n => (22, [n])
  | .moveNacked n => (23, [n])
  | .release g p _ => (24, [g, p])
  | .watchAns g p _ => (25, [g, p])
  | .withdrawAns g _ r => (26, [g, r.toNat])

/-- What a packet's encryption covers: the operands, and the payload. -/
def Packet.plain (k : Packet) : List Nat :=
  (k.kind.body.2.map fun n => (leBytes 8 n).map BitVec.toNat).flatten ++ k.payload.map BitVec.toNat

/-- The 32 further header bytes (R269) as additional authenticated data: the fields that switches rewrite on the way count as 0 (log 106,
DESIGN CHOICE). -/
def Packet.header (k : Packet) : Nat :=
  Config.opcode k.kind.body.1 % 2 ^ 8 * 2 ^ 33 + k.payload.length % 2 ^ 9 * 2 ^ 41 +
  2 ^ 64 * (k.strand % 2 ^ 3 + k.core % 2 ^ 20 * 2 ^ 3 + k.module' % 2 ^ 14 * 2 ^ 23 + k.wreg % 2 ^ 4 * 2 ^ 37 + k.ngw.toNat * 2 ^ 41 +
    k.nport % 2 ^ 8 * 2 ^ 42 + k.nmod % 2 ^ 14 * 2 ^ 50) +
  2 ^ 128 * (k.seq % 2 ^ 32 + k.chunk % 2 ^ 16 * 2 ^ 32) + 2 ^ 192 * (k.nonce % 2 ^ 64)

/-- The additional authenticated data (R370): the route word and the header bytes. -/
def Packet.aad (k : Packet) : List Nat :=
  (leBytes 32 k.word.toNat ++ leBytes 32 k.header).map BitVec.toNat

/-- The 96-bit nonce of a packet's last encryption (R370): an NI's, or a gateway's where NGW is set. -/
def Packet.nonce96 (k : Packet) : List Nat :=
  (leBytes 12 (k.nonce % 2 ^ 64 * 2 ^ 32 +
    (if k.ngw then k.nmod % 2 ^ 14 * 2 ^ 18 + 2 ^ 8 + k.nport % 2 ^ 8 else k.core % 2 ^ 20 * 2 ^ 12 + k.strand % 2 ^ 3 * 2 ^ 9))).map BitVec.toNat

/-- A packet's payload as the links carry it, and its GCM tag (R370). -/
def Packet.wire (k : Packet) : List Nat := Gcm.crypt k.key k.nonce96 k.plain
def Packet.tagUnder (k : Packet) (key : Key) : List Nat := Gcm.tag key k.nonce96 k.aad k.wire
def Packet.tag (k : Packet) : List Nat := k.tagUnder k.key

/-- Whether a packet passes the GCM check under a key (R370, R371). -/
def Packet.opens (k : Packet) (key : Key) : Bool := k.key == key || k.tagUnder key == k.tag

/-- The NI that takes a packet, and the context whose key it opens it with, 0 for the module's link key (R370). -/
def Packet.receiver (k : Packet) : Nat := if k.retraces then k.core else k.target
def State.keyCtx (s : State) (k : Packet) : Nat :=
  if k.word = 0 then k.ctx
  else if k.retraces || k.module' != s.moduleId then (s.core k.receiver).owner.id
  else wOwner k.word

/-- Whether a payload decrypts at its receiver (R370). One that was parked had been decrypted when it arrived (R364). -/
def State.keyFits (s : State) (k : Packet) : Bool :=
  k.port == some k.loc || k.opens (s.niKey k.receiver (s.keyCtx k))

/-! ### Packets without a route word (R286) -/

/-- A packet without a route word from a switch to a core, along X and then Y, in the name of a core and strand, under the key of a
context (R286, R370). -/
def State.sendFrom (s : State) (start ctx core strand nonce target : Nat) (k : PKind) (payload : List Byte) : State :=
  let b := switchOf target
  s.inject
    { word := 0, seg := 0, taken := 0, leadx := (pxOf b : Int) - pxOf start, leady := (pyOf b : Int) - pyOf start, kind := k,
      payload := payload, strand := strand, core := core, module' := s.moduleId, wreg := 0, seq := 0, chunk := 0, num := 0, op := 0,
      ordered := false, ngw := false, nport := 0, nmod := 0, nonce := nonce, key := s.storeKey (dieOf start) ctx, damage := 0, vc := k.vc,
      loc := .switch start, target := target, trail := [], port := none, stamp := 0, flagged := false, blockedFrom := s.now, ctx := ctx }
    .switchHeader

/-- A packet without a route word that a core sends. -/
def State.sendFixed (s : State) (fromCore strand target : Nat) (k : PKind) (payload : List Byte := []) : State :=
  match s.takeNonce fromCore with
  | (s1, none) => s1
  | (s1, some n) => s1.sendFrom (switchOf fromCore) (s.core fromCore).owner.id fromCore strand n target k payload

/-- An answer on VC1 to a packet on a route (R273, R283): it retraces the way that the packet has taken, and goes back to another module
over the legs that the packet came by. Its key is the one under which the packet arrived, and its nonce that of the NI that answers
(R370); an NI of a frozen core answers with refusals only (R379). What a switch or the gateway answers keeps the packet's nonce (log
107, DESIGN CHOICE). -/
def State.answerOne (s : State) (q : Packet) (k : PKind) (payload : List Byte) (damage : Nat) : State :=
  let back :=
    if q.module' = s.moduleId then (q.seg, q.taken)
    else if segDir (wPath q.word) q.seg = 6 ∧ 0 < q.taken then (q.seg, q.taken)
    else lastFib (wPath q.word) q.seg
  let a : Packet :=
    { q with kind := k, payload := payload, damage := damage, vc := 1, target := q.core, flagged := false, port := none,
             seg := back.1, taken := back.2, loc := q.loc.out, blockedFrom := s.now, behind := [], origins := [] }
  let refuses := match k with | .refusal _ => true | _ => false
  match q.loc with
  | .ni c =>
    if (s.core c).owner.frozen then (if refuses then s.inject a q.loc.out.header else s)
    else
      match s.takeNonce c with
      | (s1, none) => s1
      | (s1, some n) => s1.inject { a with nonce := n, ngw := false } q.loc.out.header
  | _ => s.inject a q.loc.out.header

/-- An answer to a packet without a route word (R286): back along X and then Y, under the key that it came under. -/
def State.answerFixed (s : State) (q : Packet) (k : PKind) (payload : List Byte) : State :=
  match q.loc with
  | .ni c =>
    (match s.takeNonce c with
     | (s1, none) => s1
     | (s1, some n) => s1.sendFrom (switchOf c) q.ctx q.core q.strand n q.core k payload)
  | .switch c => s.sendFrom c q.ctx q.core q.strand q.nonce q.core k payload
  | _ => s

/-- The unanswered arrival of a strand at a group's barrier, as it was sent. -/
def State.arrivalSent (s : State) (p : Place) (g : Nat) : Option Packet :=
  (mfind (fun _ (o : Outstanding) => o.pkt.strand == p.strand && (match o.pkt.kind with | .arrive h _ _ => h == g | _ => false))
    (s.core p.core).ni.out).map (·.2.pkt)

/-- The members that an arrival counts, in the order in which they were merged, with the value each brings (R347). -/
def Arrival.members : Arrival → List (Place × Option RedVal)
  | .one p v => [(p, v)]
  | .both a b => a.members ++ b.members

/-- The core whose switch a place is at; the gateway is reached through no one of them. -/
def Loc.core : Loc → Option Nat
  | .switch c => some c
  | .ni c => some (switchOf c)
  | _ => none

/-- An answer to a packet. Every member that a merged arrival counts is answered, on the way back that its own packet came (R286,
R347). -/
def State.answer (s : State) (q : Packet) (k : PKind) (payload : List Byte) (damage : Nat := 0) : State :=
  match q.kind with
  | .arrive g _ (.both a b) => (a.members ++ b.members).foldl (fun s e =>
      match s.arrivalSent e.1 g with
      | some m =>
        let trail := match q.loc.core with
          | some c => (meshTrail e.1.core c).drop 1
          | none => q.trail
        s.answerOne { m with loc := q.loc, trail := trail } k payload damage
      | none => s) s
  | _ => if q.word = 0 then s.answerFixed q k payload else s.answerOne q k payload damage

/-- An entry of a core's unanswered packets changed. -/
def State.modOut (s : State) (c num : Nat) (f : Outstanding → Outstanding) : State :=
  s.modCore c fun x => { x with ni := { x.ni with out := match mget x.ni.out num with
    | some o => mset x.ni.out num (f o)
    | none => x.ni.out } }

/-! ### Order at a target (R260, R261, R293) -/

/-- The core that a packet's path leads to. -/
def Packet.aim (k : Packet) : Option Nat := (walkPath (wPath k.word) (wEndp k.word)).map (·.core)

/-- Whether a packet of the same sender is earlier in the order of R260 and R261: the order of sending on one register, and over the
whole operation of a sheaf whose members are all ORDERED. -/
def Packet.earlier (q k : Packet) : Bool :=
  q.strand == k.strand && decide (q.num < k.num) &&
    ((k.ordered && q.op == k.op) || (q.wreg == k.wreg && q.aim == k.aim))

/-- The registers and SEQs under which a packet has been sent (R222). -/
def Packet.ids (k : Packet) : List (Nat × Nat) := (k.wreg, k.seq) :: k.origins

/-- The earlier packets of a sender that are not answered yet. -/
def Ni.before (n : Ni) (k : Packet) : List Packet :=
  (n.out.filter fun e => e.2.pkt.earlier k && e.2.got.isNone).map (·.2.pkt)

/-- The answer that an NI has given to a packet, under any register and SEQ that it has been sent under (R293). -/
def Ni.answered (n : Ni) (k : Packet) (ids : List (Nat × Nat)) : Option (Nat × PKind × List Byte) :=
  ids.findSome? fun e => (mgetD n.seen (k.senderAt e.1) []).find? fun r => r.1 == e.2

/-! ### Sending -/

/-- The response timer (R365). -/
def responseClk : Nat := 24000

/-- An unanswered packet leaves its NI (R211, R269, R272, R365), encrypted under the context's key (R370): a path fault refuses it with
reason TAG and nothing leaves. -/
def State.transmit (s : State) (c num : Nat) : State :=
  match mget (s.core c).ni.out num with
  | none => s
  | some o =>
    let ctx := (s.core c).owner.id
    let left := fun (s : State) => (s.modOut c num fun o => { o with inFlight := true, resendAt := none, timerFrom := s.now }).after
      responseClk .responseTimerExpiry (.item c num)
    let toLease := match o.pkt.kind with | .wlease .. => true | _ => false
    let pkt := { o.pkt with key := s.niKey c ctx, blockedFrom := s.now, behind := ((s.core c).ni.before o.pkt).map Packet.ids }
    if (s.core c).owner.frozen then s
    else if !toLease && pkt.aim.isNone then
      (left s).inject { pkt with kind := .refusal 3, payload := [], vc := 1, loc := .ni c, target := c, behind := [] } .refusalArrival
    else
      match s.takeNonce c with
      | (s1, none) => s1
      | (s1, some n) => (left (s1.cacheKey c ctx)).inject { pkt with nonce := n } .switchHeader

/-- Whether a packet of a strand waits to be resent, or behind one, on a route register (R211). -/
def Ni.blocked (n : Ni) (strand wreg : Nat) : Bool :=
  n.out.any fun e => e.2.pkt.strand == strand && e.2.pkt.wreg == wreg && !e.2.inFlight

/-- A packet sent for a strand as part of operation op under a number of its NI (R209, R269). The header of a fabric manager core names
the core by the number that the model gives it (log 45, DESIGN CHOICE). -/
def State.sendNumbered (s : State) (p : Place) (op num : Nat) (q : SendReq) : State :=
  let ni := (s.core p.core).ni
  let key := 32 * p.strand + q.wreg
  let l := leadOf p.core q.word
  let seq := mgetD ni.seqs key 0
  let pkt : Packet :=
    { word := q.word, seg := segOf q.word, taken := 0, leadx := l.1, leady := l.2, kind := q.kind,
      payload := q.payload, strand := p.strand, core := p.core, module' := s.moduleId, wreg := q.wreg, seq := seq,
      chunk := q.chunk, num := num, op := op, ordered := q.ordered, ngw := false, nport := 0, nmod := 0,
      nonce := 0, key := s.niKey p.core (s.core p.core).owner.id, damage := 0, vc := q.kind.vc, loc := .switch (switchOf p.core), target := 0,
      trail := [], port := none, stamp := 0, flagged := false, blockedFrom := s.now, origins := q.origins }
  let o : Outstanding :=
    { pkt := pkt, waiting := q.waiting, nacks := 0, narrowed := false, timerFrom := s.now, resendAt := none,
      inFlight := false, got := none, dest := q.dest, elems := q.elems, members := q.members }
  let s1 := s.modCore p.core fun x => { x with ni := { x.ni with
    out := mset x.ni.out num o
    serial := max ni.serial (num + 1)
    seqs := mset x.ni.seqs key ((seq + 1) % 2 ^ 32) } }
  if ni.blocked p.strand q.wreg then s1 else s1.transmit p.core num

/-- A packet sent for a strand as part of operation op, under the next number. -/
def State.sendReq (s : State) (p : Place) (op : Nat) (q : SendReq) : State := s.sendNumbered p op (s.core p.core).ni.serial q

/-- The packets of one operation sent in order. -/
def State.sendAll (s : State) (p : Place) (qs : List SendReq) : State :=
  let op := (s.core p.core).ni.serial
  qs.foldl (fun s q => s.sendReq p op q) s

/-- Packets sent in their order until one has still to wait before it is resent. -/
def State.sendUntil (s : State) (c : Nat) : List (Nat × Outstanding) → State
  | [] => s
  | (n, o) :: r =>
    match o.resendAt with
    | some t => if s.now < t then s else (s.transmit c n).sendUntil c r
    | none => (s.transmit c n).sendUntil c r

/-- The packets of a strand and register that wait go out in the order of their numbers, up to the first that has still to wait before
it is resent (R211). -/
def State.releaseHeld (s : State) (c strand wreg : Nat) : State :=
  s.sendUntil c ((s.core c).ni.out.filter fun e => e.2.pkt.strand == strand && e.2.pkt.wreg == wreg && !e.2.inFlight)

/-- A packet is answered for good: its entry goes, and packets held behind it go out. -/
def State.settle (s : State) (c num : Nat) : State :=
  match mget (s.core c).ni.out num with
  | none => s
  | some o =>
    (s.modCore c fun x => { x with ni := { x.ni with out := mdel x.ni.out num } }).releaseHeld c o.pkt.strand o.pkt.wreg

end Sys2Proof.Machine
end

