-- ==== Sys2Proof/Machine/RouteI.lean ====
section
/-!
DEFINITION. The route register instructions (R212 to R220).
-/

namespace Sys2Proof.Machine

/-- The ENDP check left out of R208's head (R215, R229). -/
def anyEndp : List Nat := List.range 256

/-- WLD (R214): the seal, then OWNER, then the register is written. -/
def execWld (d : RReg) (a : SReg) (s : State) : Res :=
  onStrand s fun p t =>
    let g := t.s a
    match gCheck g 32 32 with
    | some c => s.raise p c g
    | none =>
      match s.fetchLocal p (0x38000 + g.toNat) 32 with
      | .wait l => s.stallFor p l
      | .poisoned o => s.uncorrected p (BitVec.ofNat 64 o)
      | .bytes b =>
        let w : RouteWord := BitVec.ofNat 256 (leNat b)
        if w = 0 then s.complete p (t.clearW d)
        else if !sealOk s.fabricKey w then
          (s.raise p causeRouteRights (BitVec.ofNat 64 (0xFF00 + d.val))).countTagFail (dieOf p.core) (s.ctxOf p)
        else if wOwner w ≠ s.ctxOf p then s.raise p causeRouteOwner (BitVec.ofNat 64 (wOwner w))
        else s.complete p (t.setW d w)

/-- WST (R214): a null route is written as zeros. -/
def execWst (d : RReg) (a : SReg) (s : State) : Res :=
  onStrand s fun p t =>
    let g := t.s a
    match gCheck g 32 32 with
    | some c => s.raise p c g
    | none => s.localAccess p (0x38000 + g.toNat) 32 fun s =>
        (s.modCore p.core fun x => x.writeLocal (0x38000 + g.toNat) (leBytes 32 (t.w d).toNat)).complete p t

/-- WNARROW (R215). -/
def execWnarrow (d a : RReg) (b : SReg) (s : State) : Res :=
  onStrand s fun p t =>
    let w := t.w a
    let v := (t.s b).toNat
    let off := bits v 0 20
    let len := bits v 20 20
    match checkHead w (s.ctxOf p) a.val rightN anyEndp with
    | some c => s.raise p c.1 c.2
    | none =>
      if len = 0 then s.illegal p (.wnarrow d a b)
      else if wLen w < off + len then s.raise p causeRouteWindow (BitVec.ofNat 64 (max off (wLen w)))
      else
        let n := putBits (putBits (putBits (putBits w 128 20 (wBase w + off)) 148 20 len)
          168 8 (wRights w &&& bits v 40 8)) 208 8 (wFlags w &&& bits v 48 8)
        s.complete p (t.setW d (sealWord s.fabricKey n))

/-- WDLG (R216). -/
def execWdlg (d a : RReg) (b : SReg) (s : State) : Res :=
  onStrand s fun p t =>
    let w := t.w a
    let v := (t.s b).toNat
    match checkHead w (s.ctxOf p) a.val rightD anyEndp with
    | some c => s.raise p c.1 c.2
    | none =>
      let rights := if bit v 16 then wRights w else wRights w - (wRights w &&& rightD)
      s.complete p (t.setW d (sealWord s.fabricKey (putBits (putBits w 192 16 (bits v 0 16)) 168 8 rights)))

/-- The registers of a WSTRIPE's mask. -/
def maskRegs (mask : Nat) : List Nat := (List.range 16).filter fun k => bit mask k

/-- The strand after WSTRIPE on register d with the mask of registers, d among them; none where it raises ILLEGAL
(R220). -/
def Strand.stripe (t : Strand) (ctx d mask : Nat) : Option Strand :=
  let rs := maskRegs mask
  if bit mask 0 || 4 < rs.length then none
  else if rs.length = 1 then some (t.leaveSheaf d)
  else
    let u := rs.foldl Strand.leaveSheaf t
    let w0 := t.wn d
    let fits := fun (r : Nat) =>
      let w := t.wn r
      w != 0 && wOwner w == ctx && wStripe w && pathInfo (wPath w) (wEndp w) == pathInfo (wPath w0) (wEndp w0) &&
        wEndp w == wEndp w0 && wBase w == wBase w0 && wLen w == wLen w0
    match (List.range 4).find? fun k => (u.sheafMembers k).isEmpty with
    | none => none
    | some k =>
      if rs.all fits then some { u with sheaves := rs.foldl (fun (m : SMap Nat) r => mset m r k) u.sheaves } else none

/-- WSTRIPE (R220). -/
def execWstripe (d : RReg) (a : SReg) (s : State) : Res :=
  onStrand s fun p t =>
    match t.stripe (s.ctxOf p) d.val (bits (t.s a).toNat 0 16 ||| 2 ^ d.val) with
    | none => s.illegal p (.wstripe d a)
    | some u => s.complete p u

/-- WCLR (R217). -/
def execWclr (d : RReg) (s : State) : Res := onStrand s fun p t => s.complete p (t.clearW d)

/-- Selector 8 of WINFO: the sheaf of a register (R217). -/
def Strand.sheafInfo (t : Strand) (r : Nat) : Nat :=
  match mget t.sheaves r with
  | none => 0
  | some k => 1 + 2 * k + 2 ^ 16 * ((t.sheafMembers k).map fun j => 2 ^ j).sum

/-- A field of a route register (R217). -/
def Strand.routeInfo (t : Strand) (r : RReg) (sel : Nat) : Nat :=
  let w := t.w r
  let f := mgetD t.routeFails r.val (0, 0)
  if w = 0 then 0
  else match sel with
    | 0 => wEndp w
    | 1 => wBase w
    | 2 => wLen w
    | 3 => wRights w
    | 4 => wGen w
    | 5 => wOwner w
    | 6 => wFlags w
    | 7 => pathInfo (wPath w) (wEndp w)
    | 8 => t.sheafInfo r.val
    | 9 => f.1 + 2 ^ 16 * f.2
    | 10 => bits (wPath w) 0 64
    | 11 => bits (wPath w) 64 56
    | _ => 0

/-- WINFO (R217). -/
def execWinfo (d : SReg) (a : RReg) (b : SReg) (s : State) : Res :=
  onStrand s fun p t => s.complete p (t.setS d (BitVec.ofNat 64 (t.routeInfo a (bits (t.s b).toNat 0 4))))

/-- Whether a template may be minted: a window, a listed endpoint, and no reserved segment before the END (R218). -/
def mintable (w : RouteWord) : Bool :=
  wLen w != 0 && endpListed (wEndp w) && (segments (wPath w)).all fun e => e.1 < 8

/-- A template minted: the rights its endpoint accepts kept, reserved flags 0, sealed (R218, R264). -/
def mint (k : Key) (w : RouteWord) : RouteWord :=
  sealWord k (putBits (putBits w 168 8 (wRights w &&& rightsKept (wEndp w))) 210 6 0)

/-- WMINT (R218). -/
def execWmint (d : RReg) (a : SReg) (s : State) : Res :=
  needManager s (.wmint d a) fun p t =>
    let g := t.s a
    match gCheck g 32 32 with
    | some c => s.raise p c g
    | none =>
      match s.fetchLocal p (0x38000 + g.toNat) 32 with
      | .wait l => s.stallFor p l
      | .poisoned o => s.uncorrected p (BitVec.ofNat 64 o)
      | .bytes b =>
        let w : RouteWord := BitVec.ofNat 256 (leNat b)
        if mintable w then s.complete p (t.setW d (mint s.fabricKey w)) else s.illegal p (.wmint d a)

/-- WGEN (R219): a request to the target's NI, whose answer completes the instruction. -/
def execWgen (d a : SReg) (s : State) : Res :=
  needManager s (.wgen d a) fun p t =>
    let v := (t.s a).toNat
    let die := bits v 4 4
    let x := bits v 8 7
    let y := bits v 16 8
    let endp := bits v 32 4
    let mgr := bit v 36
    if 160 ≤ y || endp == 0 || 9 ≤ endp || (mgr && !(x == 64 && y == 80 && (endp == 5 || endp == 6))) then
      s.illegal p (.wgen d a)
    else
      let target := if mgr then managerBase + die else coreAt die x y
      let port := if mgr then 0x80 + endp else endp
      (s.setStrand p (t.hold s.now .answer d)).sendFixed p.core p.strand target (.wgen target port)

end Sys2Proof.Machine
end

