-- ==== Sys2Proof/Machine/Lease.lean ====
section
/-!
DEFINITION. Wavelength leases (R19, R20, R228 to R230, R295 to R301): the lease table, the agent's rules, and the instructions.
-/

namespace Sys2Proof.Machine

/-! ### Channels: 32 · fibre + wavelength (R295) -/

/-- Clk in a microsecond (R22). -/
def clkPerUs : Nat := 1500
/-- The time a retune takes: 1.5 µs (R297). -/
def retuneClk : Nat := 2250

/-- The default reach index of a wavelength (R20). -/
def defaultIndex (w : Nat) : Nat := if w < 11 then 0 else if w < 22 then 1 else 2
/-- The fibres of a direction (R19). -/
def fibresOf (dir : Nat) : List Nat := (List.range 12).map (12 * dir + ·)
/-- The direction of a channel. -/
def dirOf (ch : Nat) : Nat := ch / 32 / 12

/-- Unleased channels of an index's default set on a fibre that are not dark, ascending (R21, R298). -/
def State.freeChannels (s : State) (f j : Nat) : List Nat :=
  ((List.range 32).filter fun w => defaultIndex w == j && !mhas s.leased (32 * f + w) && !mhas s.dark (32 * f + w) &&
    !s.indexAbsent (f / 12) j).map (32 * f + ·)

/-- The m of R298 for a fibre and index. -/
def State.marginOf (s : State) (f j : Nat) : Nat := (s.freeChannels f j).length - 2

/-- The other two indices. -/
def otherIndices (x : Nat) : List Nat := (List.range 3).filter (· != x)

/-- The number of channels that the grant rule gives a request of n toward index x (R298). -/
def State.grantable (s : State) (dir x n : Nat) : Nat :=
  (fibresOf dir).foldl (fun g f => Nat.min g (((otherIndices x).map fun j => s.marginOf f j).sum)) n

/-- The channels that R299 takes on one fibre, from the free channels of the two other indices. -/
def takeChannels : Nat → List (Nat × List Nat) → List Nat
  | 0, _ => []
  | n + 1, js =>
    match (sortBy (fun (e : Nat × List Nat) => 1024 - (e.2.length * 4 + e.1)) js).head? with
    | none => []
    | some (j, l) =>
      match l.getLast? with
      | none => []
      | some ch => ch :: takeChannels n (js.map fun e => if e.1 = j then (j, l.dropLast) else e)

/-- The channels of a grant of g (R299). -/
def State.grantChannels (s : State) (dir x g : Nat) : List Nat :=
  ((fibresOf dir).map fun f => takeChannels g ((otherIndices x).map fun j => (j, s.freeChannels f j))).flatten

/-- The index that a leased channel is assigned to, or its default one (R295). -/
def State.channelIndex (s : State) (ch : Nat) : Nat :=
  match mget s.leased ch with
  | some (who, g, _) =>
    match mget (s.core (who / 16)).leases (who % 16) with
    | some l => if l.grantNo = g then l.reach else defaultIndex (ch % 32)
    | none => defaultIndex (ch % 32)
  | none => defaultIndex (ch % 32)

/-- Whether a channel is dark (R21, R295): it has lost lock, or the position that it is assigned to holds no module. -/
def State.isDark (s : State) (ch : Nat) : Bool := mhas s.dark ch || s.indexAbsent (dirOf ch) (s.channelIndex ch)

/-! ### The lease table -/

/-- A lease entry of a core changed. -/
def State.modLease (s : State) (c h : Nat) (f : Lease → Lease) : State :=
  s.modCore c fun x => match mget x.leases h with
    | some l => { x with leases := mset x.leases h (f l) }
    | none => x

/-- The head of a direction's FIFO is looked at when it may be granted (R298). -/
def State.stirFifo (s : State) (dir : Nat) : State :=
  match mgetD s.fifos dir [] with
  | [] => s
  | (c, h) :: _ => s.later .leaseGrant (.lease c h)

/-- Whether a duty request is for a lease entry. -/
def DutyReq.isLeaseOf (r : DutyReq) (c h : Nat) : Bool :=
  match r with
  | .lease core handle .. => core == c && handle == h
  | .mint .. => false

/-- A word passed to the host to be minted into a route register of the strand at a place (R278); one that it waits for already is
asked for no more. -/
def State.askMint (s : State) (p : Place) (holds : Bool) (e : Nat × RouteWord) : State :=
  let open' := mfilter (fun _ r => match r with | .mint q reg .. => !(q == p && reg == e.1) | .lease .. => true) s.dutyReqs
  { s with dutyReqs := mset open' (mnext s.dutyReqs) (.mint p e.1 e.2 holds) }

/-- A request leaves its direction's FIFO; the host's answer is no longer awaited. -/
def State.leaveFifo (s0 : State) (c h : Nat) : State :=
  let s := { s0 with dutyReqs := mfilter (fun _ r => !r.isLeaseOf c h) s0.dutyReqs }
  let dirs := (s.fifos.filter fun e => e.2.contains (c, h)).map (·.1)
  dirs.foldl (fun s d =>
    { s with fifos := mset s.fifos d ((mgetD s.fifos d []).filter (· != (c, h))) }.stirFifo d) s

/-- Channels that begin to retune carry nothing (R297): packets in their transmit queues that have not gone out whole go back to the
gateway, in their order, to take another channel (R296). -/
def State.emptyChannels (s : State) (chs : List Nat) : State :=
  let stays := fun (e : Sent × Packet) => !chs.contains e.1.channel || decide (e.1.ends ≤ s.now)
  let s1 := { s with fibreOut := s.fibreOut.filter stays }
  (s.fibreOut.filter fun e => !stays e).foldl (fun (s : State) (e : Sent × Packet) =>
    let got := (s1.fibreOut.filter fun f => f.2.sender == e.2.sender && f.1.channel == e.1.channel).foldl (fun n f => max n f.1.lands) 0
    let s2 : State := { s with
      tokenPacket := if e.2.vc = 3 then some s.packetNo else s.tokenPacket
      lastChannel := if mhas s.lastChannel e.2.sender then mset s.lastChannel e.2.sender (e.1.channel, got) else s.lastChannel }
    s2.inject { e.2 with loc := .gateway, port := some .gateway, blockedFrom := s.now } .gatewayHeader) s1

/-- The channels of a grant begin to retune back to their default index (R297, R301). -/
def State.retuneBack (s : State) (c g : Nat) : State :=
  ({ s with leased := mmap (fun _ v => if v.2.1 == g then (v.1, g, 2) else v) s.leased }.emptyChannels
    (mkeys (mfilter (fun _ (v : Nat × Nat × Nat) => v.2.1 == g) s.leased))).after retuneClk .retuneComplete (.lease c g)

/-- A lease entry ends in a state: a request is withdrawn, channels in use retune back; a forward retune in progress
completes first (R297, R301). -/
def State.endLease (s : State) (c h : Nat) (st : LeaseState) (granted : Option Nat) : State :=
  match mget (s.core c).leases h with
  | none => s
  | some l =>
    let s1 := s.modLease c h fun l => { l with state := st, granted := granted.getD l.granted, endClk := 0 }
    match l.state with
    | .requested => s1.leaveFifo c h
    | .active | .reclaiming => s1.retuneBack c l.grantNo
    | _ => s1

/-- Whether an entry is in use (R297). -/
def Lease.live (l : Lease) : Bool :=
  l.state == .requested || l.state == .granted || l.state == .active || l.state == .reclaiming

/-- Every lease of a core that is in use is RELEASED (R297, R327). -/
def State.releaseLeases (s : State) (c : Nat) : State :=
  (s.core c).leases.foldl (fun s e => if e.2.live then s.endLease c e.1 .released none else s) s

/-! ### Instructions (R228 to R230) -/

/-- The direction and reach index that a WLEASE's path fixes (R229). -/
def leasePath (w : RouteWord) : Option (Nat × Nat) :=
  match liveSegs (wPath w) with
  | (5, n) :: (6, m) :: _ => if n ≤ 2 ∧ m % 32 ≠ 0 then some (m / 32, Nat.min 3 (m % 32) - 1) else none
  | _ => none

/-- WLEASE (R229). -/
def execWlease (d : SReg) (a : RReg) (b : SReg) (s : State) : Res :=
  onStrand s fun p t =>
    let w := t.w a
    let v := (t.s b).toNat
    match checkHead w (s.ctxOf p) a.val rightL anyEndp with
    | some c => s.raise p c.1 c.2
    | none =>
      match leasePath w with
      | none => s.illegal p (.wlease d a b)
      | some (dir, reach) =>
        let n := bits v 0 5
        if n = 0 then s.illegal p (.wlease d a b)
        else
          match (List.range 16).find? fun h => !((mget (s.core p.core).leases h).map Lease.live).getD false with
          | none => s.complete p (t.setS d (BitVec.allOnes 64))
          | some h =>
            let term := Nat.min 16000 (max 10 (bits v 16 16))
            let l : Lease :=
              { state := .requested, strand := p.strand, dir := dir, reach := reach, asked := n, granted := 0, term := term,
                reclaimed := false, reqClk := s.now, endClk := s.now + term * clkPerUs, channels := [], grantNo := 0
                reqNo := (s.core p.core).ni.serial }
            let s1 := (s.complete p (t.setS d (BitVec.ofNat 64 h))).modCore p.core fun x => { x with
              leases := mset x.leases h l }
            (s1.sendAll p [oneReq w a.val (.wlease h (s.core p.core).ni.serial) [] false]).after (term * clkPerUs) .leaseRequestTimeout
              (.lease p.core h)

/-- WRELEASE (R230). -/
def execWrelease (d a : SReg) (s : State) : Res :=
  onStrand s fun p t =>
    let h := bits (t.s a).toNat 0 4
    match mget (s.core p.core).leases h with
    | none => s.complete p (t.setS d 0)
    | some l =>
      let s1 := s.complete p (t.setS d (BitVec.ofNat 64 l.state.code))
      if l.live then s1.endLease p.core h .released none else s1

/-- The word that WLSTAT reads (R230). -/
def State.leaseWord (s : State) (l : Lease) : Nat :=
  let left := if l.state = .active ∨ l.state = .reclaiming then (l.endClk - s.now) / clkPerUs else 0
  l.state.code + 2 ^ 3 * l.reclaimed.toNat + 2 ^ 4 * l.granted + 2 ^ 9 * l.asked + 2 ^ 14 * l.reach + 2 ^ 16 * l.dir +
    2 ^ 19 * l.strand + 2 ^ 32 * left

/-- WLSTAT (R230). -/
def execWlstat (d a : SReg) (s : State) : Res :=
  onStrand s fun p t =>
    let v := match mget (s.core p.core).leases (bits (t.s a).toNat 0 4) with
      | none => 0
      | some l => s.leaseWord l
    s.complete p (t.setS d (BitVec.ofNat 64 v))

end Sys2Proof.Machine
end

