-- ==== Sys2Proof/Machine/Csr.lean ====
section
/-!
DEFINITION. Control registers (R36 to R43) and the CSR instructions (R138 to R140).
-/

namespace Sys2Proof.Machine

/-- Whether the core has no matrix, copy or remote operation outstanding (R43, R62). -/
def Core.idle (x : Core) : Bool :=
  x.mtx.busy.isNone && x.ni.out.isEmpty &&
  x.copies.all fun e => e.2.state != .waiting && e.2.state != .running

/-- A set of strands as bits (R43). -/
def strandBits (f : Nat → Bool) : Nat := ((List.range 8).map fun k => if f k then 2 ^ k else 0).sum

/-- Whether strand k is bound. -/
def Core.bound (x : Core) (k : Nat) : Bool := (x.strand k).run != .unbound

/-- QUIESCENT as it reads: it stays clear while an operation is outstanding (R62). -/
def Core.quiet (x : Core) : Bool := x.quiescent && x.idle

/-- BARQ (R43). -/
def Core.barq (x : Core) : Word :=
  BitVec.ofNat 64 (strandBits x.bound + 2 ^ 8 * strandBits (mhas x.barWaiting) + 2 ^ 16 * x.quiet.toNat)

/-- STRID (R40) (log 45, DESIGN CHOICE). -/
def stridOf (p : Place) : Nat := p.strand + 2 ^ 4 * dieOf p.core + 2 ^ 8 * xOf p.core + 2 ^ 16 * yOf p.core

/-- PART (R40). -/
def Core.partWord (x : Core) (k : Nat) : Nat :=
  x.part + 2 ^ 4 * x.lanes k + 2 ^ 12 * (if k < vectorStrands x.part then k * lanesOf x.part else 0)

/-- GSLOT (R40). -/
def Strand.gslotWord (t : Strand) : Nat :=
  ((List.range 4).map fun k => match mget t.gslots k with
    | some g => g * 2 ^ (8 * k) + 2 ^ (32 + k)
    | none => 0).sum

/-- VCFG (R37). -/
def VecCsr.vcfg (v : VecCsr) : Nat := v.sew + 2 ^ 2 * v.scope + 2 ^ 5 * v.space + 2 ^ 8 * v.vfmt + 2 ^ 10 * v.rnd

/-- TIMER (R42). -/
def State.timer (s : State) (t : Strand) : Word := t.time.timerOff + BitVec.ofNat 64 s.now

/-- TSTATUS (R41). -/
def TrapCsr.tstatus (r : TrapCsr) : Nat :=
  r.ppriv.toNat + 2 * r.puien.toNat + 4 * r.member.toNat + 16 * r.inui.toNat + 256 * r.priv.toNat

/-- A control register's value; reserved bits read 0, and a scalar strand's vector registers read as at binding (R37) (log 42, DEDUCED). -/
def State.csrRead (s : State) (p : Place) (t : Strand) (n : Nat) : Word :=
  let x := s.core p.core
  let v := if s.isVector p then t.vec else VecCsr.reset
  match n with
  | 0x000 => BitVec.ofNat 64 v.vl
  | 0x001 => BitVec.ofNat 64 v.vcfg
  | 0x002 => v.vstride
  | 0x003 => BitVec.ofNat 64 v.vmsel.val
  | 0x004 => BitVec.ofNat 64 v.vstart0
  | 0x005 => BitVec.ofNat 64 v.vstart1
  | 0x006 => BitVec.ofNat 64 v.vstart2
  | 0x007 => BitVec.ofNat 64 v.vstart3
  | 0x008 => BitVec.ofNat 64 v.vlmaxs
  | 0x009 => v.vflags.setWidth 64
  | 0x00A => v.scancarry.setWidth 64
  | 0x010 => t.task.fmta.setWidth 64
  | 0x011 => t.task.fmtb.setWidth 64
  | 0x012 => t.task.fmtc.setWidth 64
  | 0x013 => t.task.scla.setWidth 64
  | 0x014 => t.task.sclb.setWidth 64
  | 0x015 => t.task.taskid.setWidth 64
  | 0x016 => t.task.taskpri.setWidth 64
  | 0x020 => BitVec.ofNat 64 (stridOf p)
  | 0x021 => BitVec.ofNat 64 (x.partWord p.strand)
  | 0x022 => BitVec.ofNat 64 t.gslotWord
  | 0x023 => BitVec.ofNat 64 (x.owner.id + 2 ^ 16 * x.owner.gen)
  | 0x030 => BitVec.ofNat 64 (t.trap.uieEn.toNat + 256 * t.trap.uieOn.toNat)
  | 0x031 => t.trap.uip.setWidth 64
  | 0x032 => t.trap.uivec
  | 0x040 => t.trap.tcause.setWidth 64
  | 0x041 => t.trap.tval
  | 0x042 => t.trap.tvec
  | 0x043 => t.trap.tepc
  | 0x044 => BitVec.ofNat 64 t.trap.tstatus
  | 0x050 => s.timer t
  | 0x051 => t.time.timecmp
  | 0x052 => t.time.fewait.setWidth 64
  | 0x053 => t.time.barwait.setWidth 64
  | 0x054 => BitVec.ofNat 64 s.cycle
  | 0x055 => t.time.instret
  | 0x060 => BitVec.ofNat 64 ((mkeys x.locks).map fun b => 2 ^ b).sum
  | 0x061 => BitVec.ofNat 64 s.duty
  | 0x062 => x.barq
  | _ => 0

/-- Whether a register counts as SV (R36). -/
def csrSup (n : Nat) : Bool := (0x040 ≤ n && n ≤ 0x044) || n == 0x060 || n == 0x061

/-- Whether a VCFG value has no illegal field (R37). -/
def vcfgLegal (v : Nat) : Bool :=
  bits v 0 2 != 3 && bits v 2 3 != 7 && bits v 5 3 ≤ 4 && bits v 8 2 != 3 && bits v 10 3 ≤ 4

/-- A write to VCFG (R38): a change of SEW sets VLMAXS for the lane count and clamps VL. -/
def VecCsr.writeVcfg (v : VecCsr) (lanes w : Nat) : VecCsr :=
  let u := { v with sew := bits w 0 2, scope := bits w 2 3, space := bits w 5 3, vfmt := bits w 8 2, rnd := bits w 10 3 }
  if u.sew = v.sew then u
  else { u with vlmaxs := vlmaxOf lanes u.sew, vl := min v.vl (vlmaxOf lanes u.sew) }

/-- A write to a vector control register of a vector strand (R37, R140). -/
def VecCsr.write (v : VecCsr) (lanes n : Nat) (w : Word) : VecCsr :=
  match n with
  | 0x000 => { v with vl := min w.toNat v.vlmaxs }
  | 0x001 => v.writeVcfg lanes w.toNat
  | 0x002 => { v with vstride := w }
  | 0x003 => { v with vmsel := ⟨w.toNat % 8, Nat.mod_lt _ (by decide)⟩ }
  | 0x004 => { v with vstart0 := w.toNat % 1024 }
  | 0x005 => { v with vstart1 := w.toNat % 1024 }
  | 0x006 => { v with vstart2 := w.toNat % 1024 }
  | 0x007 => { v with vstart3 := w.toNat % 1024 }
  | 0x009 => { v with vflags := w.setWidth 8 }
  | 0x00A => { v with scancarry := w.setWidth 32 }
  | _ => v

/-- A write to a task shadow register (R39). -/
def TaskCsr.write (r : TaskCsr) (n : Nat) (w : Word) : TaskCsr :=
  match n with
  | 0x010 => { r with fmta := w.setWidth 5 }
  | 0x011 => { r with fmtb := w.setWidth 5 }
  | 0x012 => { r with fmtc := w.setWidth 5 }
  | 0x013 => { r with scla := w.setWidth 18 }
  | 0x014 => { r with sclb := w.setWidth 18 }
  | 0x015 => { r with taskid := w.setWidth 32 }
  | 0x016 => { r with taskpri := w.setWidth 2 }
  | _ => r

/-- A write to an interrupt or trap register (R41, R140). -/
def TrapCsr.write (r : TrapCsr) (n : Nat) (w : Word) : TrapCsr :=
  match n with
  | 0x030 => { r with uieEn := w.setWidth 7, uieOn := w.getLsbD 8 }
  | 0x031 => { r with uip := (r.uip &&& w.setWidth 7 &&& 0x3F) ||| (w.setWidth 7 &&& 0x40) }
  | 0x032 => { r with uivec := addr57 w }
  | 0x040 => { r with tcause := w.setWidth 8 }
  | 0x041 => { r with tval := w }
  | 0x042 => { r with tvec := addr57 w }
  | 0x043 => { r with tepc := addr57 w }
  | 0x044 => { r with ppriv := w.getLsbD 0, puien := w.getLsbD 1, member := w.extractLsb' 2 2, inui := w.getLsbD 4 }
  | _ => r

/-- The UIP bits that the device has set in this clk are set after a write of UIP (R71). -/
def TrapCsr.keepUip (r : TrapCsr) (now : Nat) : TrapCsr :=
  if r.uipAt = now then { r with uip := r.uip ||| r.uipSet } else r

/-- A write to BAYLOCK (R43, R77): a bit newly set is held by the writer; clearing is allowed to any; bits 62 and 63 are
discarded. -/
def Core.writeBayLock (x : Core) (now k : Nat) (w : Word) : Core :=
  let newBits := (List.range 62).filter fun b => w.getLsbD b && !mhas x.locks b
  let kept := mfilter (fun b _ => w.getLsbD b) x.locks
  let locks := newBits.foldl (fun (m : SMap Nat) b => mset m b k) kept
  let holds := fun h => locks.any fun e => e.2 == h
  let from' := if holds k && !mhas x.lockFrom k then mset x.lockFrom k now else x.lockFrom
  { x with locks := locks, lockFrom := mfilter (fun h _ => holds h) from' }

/-- A write of a control register's new value by the strand at a place (R140); a TIMER value counts from the next clk (R139); DUTYMODE goes to the security core, which applies
it (R43, R395). -/
def State.csrWrite (s : State) (p : Place) (t : Strand) (n : Nat) (w : Word) : State × Strand :=
  if n ≤ 0x00A then
    (s, if s.isVector p then { t with vec := t.vec.write (s.laneCount p) n w } else t)
  else if n ≤ 0x016 then (s, { t with task := t.task.write n w })
  else if n = 0x031 then (s, { t with trap := (t.trap.write n w).keepUip s.now })
  else if n ≤ 0x044 then (s, { t with trap := t.trap.write n w })
  else match n with
    | 0x050 => (s, { t with time := { t.time with timerOff := w - BitVec.ofNat 64 (s.now + 1), timerFrom := s.now + 1 } })
    | 0x051 => (s, { t with time := { t.time with timecmp := w } })
    | 0x052 => (s, { t with time := { t.time with fewait := w.setWidth 32 } })
    | 0x053 => (s, { t with time := { t.time with barwait := w.setWidth 32 } })
    | 0x060 => (s.modCore p.core fun x => x.writeBayLock s.now p.strand w, t)
    | 0x061 => (if isManager p.core then s.later .setDuty (.duty (w.toNat % 256)) else s, t)
    | _ => (s, t)

/-- A CSR instruction (R138): the old value goes to sD; a write whose VCFG result is illegal has no effect. -/
def csrOp (s : State) (i : Instr) (d : SReg) (n : BitVec 11) (new : Strand → Word → Option Word) : Res :=
  onStrand s fun p t =>
    if csrSup n.toNat && !t.trap.priv then s.raise p causePriv (wordOf i)
    else
      let old := s.csrRead p t n.toNat
      match new t old with
      | none => s.complete p (t.setS d old)
      | some w =>
        if n.toNat = 0x001 && s.isVector p && !vcfgLegal w.toNat then s.illegal p i
        else
          let r := s.csrWrite p t n.toNat w
          r.1.setStrand p ((r.2.setS d old).complete)

/-- CSRR (R138). -/
def execCsrr (d : SReg) (n : BitVec 11) (s : State) : Res := csrOp s (.csrr d n) d n fun _ _ => none
/-- CSRW (R138). -/
def execCsrw (d a : SReg) (n : BitVec 11) (s : State) : Res := csrOp s (.csrw d a n) d n fun t _ => some (t.s a)
/-- CSRS (R138): with A = 0 it reads only. -/
def execCsrs (d a : SReg) (n : BitVec 11) (s : State) : Res :=
  csrOp s (.csrs d a n) d n fun t old => if a = 0 then none else some (old ||| t.s a)
/-- CSRC (R138): with A = 0 it reads only. -/
def execCsrc (d a : SReg) (n : BitVec 11) (s : State) : Res :=
  csrOp s (.csrc d a n) d n fun t old => if a = 0 then none else some (old &&& ~~~t.s a)

end Sys2Proof.Machine
end

