-- ==== Sys2Proof/Machine/CopyOps.lean ====
section
/-!
DEFINITION. Rings and the copy engine as objects (R189 to R206, R257 to R259): what a change of a ring does, the elements of
a descriptor, and how a command starts, moves its data, fails, is cancelled and completes.
-/

namespace Sys2Proof.Machine

/-! ### Rings -/

/-- The count that a wait on a ring reads: FILLED, or the free slots (R192). -/
def Ring.waitCount (r : Ring) (filled : Bool) : Nat := if filled then r.filled else r.count - r.filled

/-- A WAITING strand's wait re-tested on a ring that has changed (R192). -/
def Strand.retestRing (t : Strand) (g : Nat) (r : Ring) : Strand :=
  match t.run, t.wait with
  | .waiting, .ring k filled n =>
    if k ≠ g then t
    else if r.slot = 0 ∨ r.count < n then t.finish (BitVec.allOnes 64)
    else if n ≤ r.waitCount filled then t.finish (BitVec.ofNat 64 (r.waitCount filled))
    else t
  | _, _ => t

/-- Strands of a core changed one by one, each that a test says acquiring at its VCFG.SCOPE (R254). -/
def State.modStrands (s : State) (c : Nat) (f : Strand → Strand) : State :=
  (mkeys (s.core c).strands).foldl (fun s k =>
    let t := s.strand { core := c, strand := k }
    let u := f t
    if u = t then s else (s.setStrand { core := c, strand := k } u).acquireEffect { core := c, strand := k } t.vec.scope) s

/-- The copy commands of a core that name a ring in a role: as a source, or as a destination. -/
def CopySlot.names (q : CopySlot) (g : Nat) (asSource : Bool) : Bool :=
  (if asSource then q.desc.sring else q.desc.dring) == some g

/-- Whether a slot is WAITING or RUNNING. -/
def CopySlot.active (q : CopySlot) : Bool := q.state == .waiting || q.state == .running

/-- Commands RUNNING on a ring in a role that were issued before a serial number (R201). -/
def Core.runningBefore (x : Core) (g : Nat) (asSource : Bool) (serial : Nat) : Nat :=
  (x.copies.filter fun e => e.2.state == .running && e.2.names g asSource && e.2.serial < serial).length

/-- Whether a command is the first of those on its rings that have not reached a state (R201: commands on one ring in one
role start and complete in their issue order). -/
def Core.firstOnRings (x : Core) (q : CopySlot) (before : CopySlot → Bool) : Bool :=
  let clear := fun (g : Option Nat) (asSource : Bool) => match g with
    | none => true
    | some g => !x.copies.any fun e => before e.2 && e.2.names g asSource && e.2.serial < q.serial
  clear q.desc.sring true && clear q.desc.dring false

/-- Whether every ring that a WAITING command names has a slot for it (R201). -/
def Core.canStart (x : Core) (q : CopySlot) : Bool :=
  let has := fun (g : Option Nat) (asSource : Bool) => match g with
    | none => true
    | some g =>
      let r := mgetD x.rings g .reset
      r.slot != 0 && x.runningBefore g asSource q.serial < r.waitCount asSource
  q.state == .waiting && q.failing == 0 && x.firstOnRings q (fun e => e.state == .waiting) &&
    has q.desc.sring true && has q.desc.dring false

/-- Whether a RUNNING command has nothing left to write and is the first to complete on its rings. -/
def Core.canFinish (x : Core) (q : CopySlot) : Bool :=
  q.state == .running && q.todo.isEmpty && q.sent.isEmpty && q.failing == 0 && q.cancelBy.isEmpty &&
    x.firstOnRings q CopySlot.active

/-- The commands of a core that can start or complete are due to do so. -/
def State.stirCopies (s : State) (c : Nat) : State :=
  (s.core c).copies.foldl (fun s e =>
    if (s.core c).canStart e.2 then s.later .copyStart (.item c e.1)
    else if (s.core c).canFinish e.2 then s.later .copyDone (.item c e.1)
    else s) s

/-- What a change of a ring brings about (R192, R193, R201, R241): UIP.RING of OWNER when FILLED reaches THRESH, an event
for WFEV, waits and WAITING commands re-tested. -/
def State.ringChanged (s : State) (c g : Nat) (old : Ring) : State :=
  let r := (s.core c).ring g
  let s1 := if old.filled = r.filled then s else s.stirCore c
  let s2 := if r.thresh ≠ 0 ∧ old.filled < r.thresh ∧ r.thresh ≤ r.filled then
    s1.setUip { core := c, strand := r.owner } uipRing else s1
  (s2.modStrands c fun t => t.retestRing g r).stirCopies c

/-- A ring of a core replaced, with what that brings about. -/
def State.setRing (s : State) (c g : Nat) (r : Ring) : State :=
  let old := (s.core c).ring g
  (s.modCore c fun x => { x with rings := mput .reset x.rings g r }).ringChanged c g old

/-- The ring that RINGCFG's operands describe, for its issuing strand (R191); SLOT 0 leaves it UNCONFIGURED. -/
def ringOf (a b : Word) (strand : Nat) : Ring :=
  let count := bits b.toNat 16 10 + 1
  if bits b.toNat 8 8 = 0 then .reset
  else { base := a.toNat, space := bits b.toNat 4 3, slot := bits b.toNat 8 8, count := count, prod := 0, cons := 0, filled := 0,
         thresh := Nat.min (bits b.toNat 32 11) count, owner := strand }

/-- RADVT by n slots (R193). -/
def Ring.produce (r : Ring) (n : Nat) : Ring := { r with prod := (r.prod + n) % r.count, filled := r.filled + n }
/-- RADVH by n slots (R193). -/
def Ring.consume (r : Ring) (n : Nat) : Ring := { r with cons := (r.cons + n) % r.count, filled := r.filled - n }

/-! ### Elements of a descriptor (R196) -/

/-- The source and destination offsets of every element, dimension 0 the fastest. -/
def elemOffsets : List CopyDim → List (Int × Int)
  | [] => [(0, 0)]
  | d :: r => ((elemOffsets r).map fun (e : Int × Int) => (List.range d.count).map fun (i : Nat) =>
      ((e.1 + i * d.sstride, e.2 + i * d.dstride) : Int × Int)).flatten

/-- The lowest and highest offset of the corner elements, as base plus the sums of the negative and positive reaches. -/
def cornerLow (strides : List (Nat × Int)) : Int := (strides.map fun e => min 0 (((e.1 : Int) - 1) * e.2)).sum
def cornerHigh (strides : List (Nat × Int)) : Int := (strides.map fun e => max 0 (((e.1 : Int) - 1) * e.2)).sum

/-- The bytes of every element in iteration order: destination and source address of each. -/
def CopySlot.bytes (q : CopySlot) : List (Int × Int) :=
  ((elemOffsets q.desc.dims).map fun (e : Int × Int) => (List.range q.desc.esize).map fun (b : Nat) =>
    ((q.dstBase + e.2 + b, q.srcBase + e.1 + b) : Int × Int)).flatten

/-- Whether a command sends over a route. -/
def CopySlot.isRoute (q : CopySlot) : Bool := q.desc.dring.isNone && q.desc.dspace == 7

/-- A stream of bytes from a position on cut into the writes that a route takes: the next bytes that lie in one 64 B line of the
destination (R244), 64 at most, and in one 256 B chunk where the operation goes over a sheaf (R221). Each write comes with the position
of its first byte. -/
def cutRuns (chunked : Bool) : Nat → Nat → List (Int × Int) → List (Int × Int) → List (Nat × List (Int × Int))
  | _, start, run, [] => if run.isEmpty then [] else [(start, run)]
  | n, start, run, e :: r =>
    match run with
    | [] => cutRuns chunked (n + 1) n [e] r
    | h :: _ =>
      if h.1 / 64 = e.1 / 64 && run.length < 64 && !(chunked && n % 256 == 0) then cutRuns chunked (n + 1) start (run ++ [e]) r
      else (start, run) :: cutRuns chunked (n + 1) n [e] r

/-- The writes of a command over a route, in order, with destinations as offsets into the window of its named register. -/
def CopySlot.runs (q : CopySlot) : List (Nat × List (Int × Int)) := cutRuns (2 ≤ q.members.length) 0 0 [] q.bytes

/-- The bytes of one unit, in iteration order. -/
def CopySlot.unitBytes (q : CopySlot) (u : Nat) : List (Int × Int) :=
  if q.isRoute then (q.runs.getD u (0, [])).2 else q.bytes.filter fun e => e.1 / 64 == (u : Int)

/-- The units of a command, without repeats. -/
def CopySlot.units (q : CopySlot) : List Nat :=
  if q.isRoute then List.range q.runs.length else (q.bytes.map fun e => (e.1 / 64).toNat).eraseDups

/-- The bytes that each of some units takes: of the element stream for a route, else of the destination; from the first to past the last. -/
def CopySlot.unitSpans (q : CopySlot) (us : List Nat) : List (Int × Int) :=
  if q.isRoute then
    let rs := q.runs
    us.map fun (u : Nat) => let r := rs.getD u (0, []); ((r.1 : Int), ((r.1 + r.2.length : Nat) : Int))
  else us.map fun (u : Nat) => (64 * (u : Int), 64 * (u : Int) + 64)

/-- Whether an element, by its number and its destination offset, has a byte in one of some spans. -/
def CopySlot.elemIn (q : CopySlot) (i : Nat) (off : Int) (spans : List (Int × Int)) : Bool :=
  let n := (q.desc.esize : Int)
  let lo := if q.isRoute then i * n else q.dstBase + off
  spans.any fun r => lo < r.2 && r.1 < lo + n

/-- Whether an element that has a byte in a unit reaches into the loft, at its source or at its destination (R200). -/
def CopySlot.reachesLoft (q : CopySlot) (spaces : Nat × Nat) (u : Nat) : Bool :=
  let n := (q.desc.esize : Int)
  let spans := q.unitSpans [u]
  (elemOffsets q.desc.dims).zipIdx.any fun e =>
    ((spaces.1 == 4 && (loftBase : Int) < q.srcBase + e.1.1 + n) || (spaces.2 == 4 && (loftBase : Int) < q.dstBase + e.1.2 + n)) &&
      q.elemIn e.2 e.1.2 spans

/-- The elements that a set of units holds a byte of (R204: the elements not yet moved). -/
def CopySlot.elemsIn (q : CopySlot) (us : List Nat) : Nat :=
  let spans := q.unitSpans us
  ((elemOffsets q.desc.dims).zipIdx.filter fun e => q.elemIn e.2 e.1.2 spans).length

/-- The source and destination spaces of a command; a ring's own space replaces the descriptor's (R201). -/
def Core.copySpaces (x : Core) (d : CopyDesc) : Nat × Nat :=
  ((match d.sring with | some g => (x.ring g).space | none => d.sspace),
   (match d.dring with | some g => (x.ring g).space | none => d.dspace))

/-! ### Starting, moving, ending -/

/-- A copy slot of a core changed. -/
def State.modCopy (s : State) (c k : Nat) (f : CopySlot → CopySlot) : State :=
  s.modCore c fun x => match mget x.copies k with
    | some q => { x with copies := mset x.copies k (f q) }
    | none => x

/-- The pseudo-strand under which a copy slot waits at a page service. -/
def copyWaiter (c k : Nat) : Place := { core := c, strand := 16 + k }

/-- How many clk from now a core's copy engine has its next free turn: it moves one line per clk for all its RUNNING slots
together, in turn (R200), and a line already due keeps its turn. -/
def State.lineTurn (s : State) (c : Nat) : Nat :=
  s.timers.foldl (fun (n : Nat) e => match e.2.step, e.2.given with
    | .copyLineWrite, .line d _ _ => if d = c then max n (e.1 - s.now + 1) else n
    | _, _ => n) 1

/-- The line a command writes next is due in the engine's next turn; the engine may take any of the command's lines (R200),
over a route the first (R203). -/
def State.nextLine (s : State) (c k : Nat) : State :=
  match mget (s.core c).copies k with
  | none => s
  | some q =>
    match q.todo with
    | [] => s
    | u :: _ =>
      let v := if q.isRoute then u else q.todo.getD (Config.copyOrder s.draws % q.todo.length) u
      ({ s with draws := s.draws + 1 }).after (s.lineTurn c) .copyLineWrite (.line c k v)

/-- The same line is tried again in the engine's next turn. -/
def State.retryLine (s : State) (c k u : Nat) : State := s.after (s.lineTurn c) .copyLineWrite (.line c k u)

/-- A device-memory line taken by a command, recalled from every granary; a line that other commands own already is its own once they
have written it (R200, R257). -/
def State.ownLine (s : State) (c k l : Nat) : State :=
  let q := mgetD s.owned l []
  if q.contains (c, k) then s else { s.recall l with owned := mset s.owned l (q ++ [(c, k)]) }

/-- A line that a command owns let go. -/
def disown (m : SMap (List (Nat × Nat))) (l : Nat) (o : Nat × Nat) : SMap (List (Nat × Nat)) :=
  let q := (mgetD m l []).filter (· != o)
  if q.isEmpty then mdel m l else mset m l q

/-- The physical line of an address by a translation. -/
def lineBy (va : Nat) : Except Xlat TlbEntry → List Nat
  | .ok e => [e.pa va / 64]
  | .error _ => []

/-- The physical lines at which a destination line of device memory stands now: as a store finds it, or as a load does where a store
waits for the page's copy on write (R257); while a page's entry has changed and old translations are left, in both its frames. -/
def State.destLines (s : State) (c u : Nat) : List Nat :=
  let va := 64 * u
  let ctx := (s.core c).owner.id
  let now := match s.peek c va 1 with
    | .error (.cow _) => lineBy va (s.peek c va 0)
    | x => lineBy va x
  match s.walk (dieOf c) ctx va 1, s.walk (dieOf c) ctx va 0 with
  | .ok e _ _, _ | .cow _, .ok e _ _ => now ++ [e.pa va / 64]
  | _, _ => now

/-- The destination lines of a command that is entering RUNNING taken (R51, R200, R257): engine-pending bits, and the
device-memory lines that are there now; a line whose page a page service brings in is taken when that ends. -/
def State.takeLines (s : State) (c k dspace : Nat) (units : List Nat) : State :=
  if dspace = 0 then
    (units.flatMap (s.destLines c)).foldl (fun s l => s.ownLine c k l) s
  else if dspace ≤ 4 then
    s.modCore c fun x => { x with
      pend := units.foldl (fun (m : SMap Nat) u =>
        let l := lineOf (bufBase dspace) + u
        let old := mgetD m l 0
        mset m l (if bit old k then old else old + 2 ^ k)) x.pend }
  else s

/-- The lines that a command owns and that none of some units stands at now are let go. -/
def State.looseLines (s : State) (c k : Nat) (units : List Nat) : State :=
  let keep := units.flatMap (s.destLines c)
  { s with owned := (mkeys s.owned).foldl (fun m l => if keep.contains l then m else disown m l (c, k)) s.owned }

/-- The device-memory destination lines of a context's RUNNING commands that are there now are taken (R200, R257), as a page's entry
changes; once the old translations are gone, the lines of the old frame are let go. -/
def State.retakeLines (s : State) (ctx : Nat) (settled : Bool) : State :=
  s.cores.foldl (fun s e =>
    if e.2.owner.id ≠ ctx then s
    else e.2.copies.foldl (fun s q =>
      if q.2.state == .running && q.2.failing == 0 && q.2.cancelBy.isEmpty && !q.2.isRoute && (e.2.copySpaces q.2.desc).2 == 0 then
        (if settled then s.looseLines e.1 q.1 q.2.todo else s).takeLines e.1 q.1 0 q.2.todo else s) s) s

/-- A command enters RUNNING (R198, R200): its bases are fixed from its rings' slots, its lines are taken, its first write
is due; one that moves nothing completes. Over a route its packets are one operation (R221). -/
def State.startCopy (s : State) (c k : Nat) : State :=
  match mget (s.core c).copies k with
  | none => s
  | some q =>
    let x := s.core c
    let base := fun (g : Option Nat) (asSource : Bool) (a : Nat) => match g with
      | none => (a : Int)
      | some g =>
        let r := x.ring g
        let i := ((if asSource then r.cons else r.prod) + x.runningBefore g asSource q.serial) % r.count
        ((r.base + 64 * r.slot * i + a : Nat) : Int)
    let q1 := { q with
      state := .running
      srcBase := base q.desc.sring true q.desc.src
      dstBase := base q.desc.dring false q.desc.dst }
    let q2 := { q1 with todo := q1.units, op := x.ni.serial }
    let s0 := s.modCore c fun x => { x with ni := { x.ni with serial := x.ni.serial + (if q.isRoute then 1 else 0) } }
    let s1 := (s0.modCopy c k fun _ => q2).takeLines c k (x.copySpaces q.desc).2 q2.todo
    ((s1.nextLine c k).stirCore c).stirCopies c

/-- A read of the engine: the bytes, or why there are none. -/
inductive CopyStop where
  | busy
  | page (x : Xlat) (va : Nat)
  | fails (reason : Nat)
  deriving DecidableEq, Repr

/-- One source byte read by the copy engine (R200, R202, R373); it waits for locked bays and scrubs, not for
engine-pending bits (R258) (log 53, DEDUCED). -/
def State.copyByte (s : State) (c space : Nat) (a : Int) : State × Except CopyStop Byte :=
  if space = 0 then
    let r := s.translate c a.toNat 0
    match r.2 with
    | .ok e =>
      let pa := e.pa a.toNat
      if !r.1.memoryOpen c pa then (r.1, .error .busy)
      else if r.1.physPoisoned pa 1 then (r.1, .error (.fails 4))
      else
        let s1 := r.1.cacheHostLine (dieOf c) pa
        (s1, .ok (s1.physByte (dieOf c) e.key e.gen pa))
    | .error (.spoilt _) => (r.1, .error (.fails 4))
    | .error x => (r.1, .error (if x.satisfiable then .page x a.toNat else .fails 1))
  else
    let x := s.core c
    let o := bufBase space + a.toNat
    if x.lockedAgainst none (bayOf o) || mhas x.scrub (bayOf o) then (s, .error .busy)
    else if x.localPoisoned o 1 then (s, .error (.fails 4))
    else (s, .ok (x.readLocalByte o))

/-- The source bytes of a unit, each with its destination address. -/
def State.copyBytes (s : State) (c space : Nat) : List (Int × Int) → State × Except CopyStop (List (Int × Byte))
  | [] => (s, .ok [])
  | (d, a) :: r =>
    let h := s.copyByte c space a
    match h.2 with
    | .error e => (h.1, .error e)
    | .ok b =>
      let t := h.1.copyBytes c space r
      match t.2 with
      | .error e => (t.1, .error e)
      | .ok l => (t.1, .ok ((d, b) :: l))

/-- CPYWAIT waiters of a core re-tested (R204): the mask of DONE slots once none in the mask is WAITING or RUNNING. -/
def Core.doneMask (x : Core) (mask : Nat) : Nat :=
  ((List.range 4).map fun i => if bit mask i && ((mget x.copies i).map (·.state)) == some .done then 2 ^ i else 0).sum

/-- Whether a slot in a mask is WAITING or RUNNING. -/
def Core.anyActive (x : Core) (mask : Nat) : Bool :=
  (List.range 4).any fun i => bit mask i && ((mget x.copies i).map CopySlot.active) == some true

/-- The widest granary effect of acquiring at the SCOPE of each DONE slot in a mask (R254). -/
def State.acquireDone (s : State) (p : Place) (mask : Nat) : State :=
  (s.core p.core).copies.foldl (fun s e =>
    if bit mask e.1 && e.2.state == .done then s.acquireEffect p e.2.desc.scope else s) s

/-- What a change of state of a copy slot brings about: an event for WFEV, waiting CPYWAITs, CPYCANs and RINGCFGs (R191, R204,
R205). -/
def State.copyChanged (s : State) (c : Nat) : State :=
  let s1 := s.stirCore c
  let s2 := (mkeys (s1.core c).strands).foldl (fun s k =>
    let p : Place := { core := c, strand := k }
    let t := s.strand p
    match t.run, t.wait with
    | .waiting, .copy mask =>
      if (s.core c).anyActive mask then s
      else (s.acquireDone p mask).setStrand p (t.finish (BitVec.ofNat 64 ((s.core c).doneMask mask)))
    | .stalled, .cancel mask =>
      if (List.range 4).any fun i => bit mask i &&
          ((mget (s.core c).copies i).map fun q => q.active && q.cancelBy.contains k) == some true then s
      else s.later .cpycanComplete (.place p)
    | .stalled, .ringcfg serials a b =>
      if (s.core c).copies.any fun e => e.2.active && serials.contains e.2.serial then s
      else (s.complete p t.wake).setRing c (bits b.toNat 0 4) (ringOf a b k)
    | _, _ => s) s1
  s2.stirCopies c

/-- The core and slot of a due write of a copy command. -/
def Due.copySlot (d : Due) : Option (Nat × Nat) :=
  match d.step, d.given with
  | .copyLineWrite, .line c k _ => some (c, k)
  | _, _ => none

/-- A copy slot is free of what an ended command has left: its due write, and its place at a page service (R198). -/
def State.clearSlot (s : State) (c k : Nat) : State :=
  { s with
    timers := s.timers.filter fun e => e.2.copySlot != some (c, k)
    agenda := s.agenda.filter fun e => e.copySlot != some (c, k)
    dies := mmap (fun _ x => { x with services := x.services.map fun r =>
      { r with waiters := r.waiters.filter (· != copyWaiter c k) } }) s.dies }

/-- The lines that a command holds are let go (R51, R257). -/
def State.dropLines (s : State) (c k : Nat) : State :=
  { s.modCore c fun x => { x with pend := clearPend x.pend fun i => i == k } with
    owned := (mkeys s.owned).foldl (fun m l => disown m l (c, k)) s.owned }

/-- A command begins to fail (R191, R202): nothing more is moved; once its writes in flight have landed it is FAILED. -/
def State.failCopy (s : State) (c k reason : Nat) : State :=
  match mget (s.core c).copies k with
  | none => s
  | some q =>
    if !q.active || q.failing != 0 || !q.cancelBy.isEmpty then s
    else
      let s1 := (s.modCopy c k fun q => { q with failing := reason, todo := [], lost := q.lost ++ q.todo }).dropLines c k
      if q.sent.isEmpty then s1.later .copyFail (.item c k) else s1

/-- Copy commands of a core cancelled (R205), with the lines they hold (log 57, DEDUCED). -/
def State.cancelCopies (s : State) (c by' : Nat) (which : Nat → CopySlot → Bool) : State :=
  let hit := (s.core c).copies.filter fun e => which e.1 e.2 && e.2.active && e.2.failing == 0
  let s1 := s.modCore c fun x => x.cancelCopies by' which
  (hit.foldl (fun s e => s.dropLines c e.1) s1).copyChanged c

/-- A unit of a command has landed, or its packet was refused (R200, R203): what is due once none is left. -/
def State.unitLanded (s : State) (c k u : Nat) (ok : Bool) : State :=
  match mget (s.core c).copies k with
  | none => s
  | some q =>
    let q1 := { q with sent := q.sent.filter (· != u), lost := if ok then q.lost else q.lost ++ [u] }
    let s1 := s.modCopy c k fun _ => q1
    if !q1.sent.isEmpty || !q1.todo.isEmpty then s1
    else if q1.failing ≠ 0 then s1.later .copyFail (.item c k)
    else if !q1.cancelBy.isEmpty then (s1.modCopy c k fun q => { q with state := .cancelled }).copyChanged c
    else s1.stirCopies c

end Sys2Proof.Machine
end

