-- ==== Sys2Proof/Machine/Copy.lean ====
section
/-!
DEFINITION. The copy instructions (R196 to R205).
-/

namespace Sys2Proof.Machine

/-- The descriptor in 192 bytes of G (R196), read as a number. -/
def copyDescOf (v : Nat) : CopyDesc :=
  let ctrl := bits v 128 64
  { src := bits v 0 64
    dst := bits v 64 64
    sspace := bits ctrl 0 3
    dspace := bits ctrl 3 3
    droute := bits ctrl 6 4
    esize := 2 ^ bits ctrl 14 2
    sring := if bit ctrl 20 then some (bits ctrl 16 4) else none
    dring := if bit ctrl 25 then some (bits ctrl 21 4) else none
    quiet := bit ctrl 26
    notify := bit ctrl 27
    scope := bits ctrl 28 3
    dims := (List.range (bits ctrl 10 4)).map fun k =>
      let w := bits v (256 + 128 * k) 128
      { count := bits w 0 32, sstride := toInt 48 (bits w 32 48), dstride := toInt 48 (bits w 80 48) } }

/-- The extent of a side of a descriptor from an address on: lowest and highest byte over the corner elements; none when
a used COUNT is 0 (log 52, DEDUCED). -/
def CopyDesc.extent (d : CopyDesc) (a : Nat) (strides : List (Nat × Int)) : Option (Int × Int) :=
  if strides.any fun e => e.1 == 0 then none
  else some ((a : Int) + cornerLow strides, (a : Int) + cornerHigh strides + d.esize - 1)

/-- The source and destination extents. -/
def CopyDesc.sext (d : CopyDesc) : Option (Int × Int) := d.extent d.src (d.dims.map fun k => (k.count, k.sstride))
def CopyDesc.dext (d : CopyDesc) : Option (Int × Int) := d.extent d.dst (d.dims.map fun k => (k.count, k.dstride))

/-- The lowest byte of an extent outside 0 .. limit − 1. -/
def offending (limit : Nat) : Option (Int × Int) → Option Int
  | none => none
  | some (lo, hi) => if lo < 0 then some lo else if (limit : Int) ≤ hi then some (max lo limit) else none

/-- The checks of R199 on one side: its space, its ring, its extent, and whether it is the destination. -/
def Core.copyCheck (x : Core) (sA : Word) (space : Nat) (ring : Option Nat) (base : Nat) (e : Option (Int × Int))
    (isDst : Bool) : Option (Nat × Word) :=
  let refused := isDst && space == 3
  match ring with
  | some g =>
    let r := x.ring g
    if refused then some (causeSpace, BitVec.ofNat 64 base)
    else if r.slot = 0 ∨ (offending (64 * r.slot) e).isSome then some (causeSpace, sA)
    else none
  | none =>
    if space = 7 then none
    else
      match offending (if space = 0 then 2 ^ 57 else bufSize space) e with
      | some a => some (causeSpace, BitVec.ofInt 64 a)
      | none => if refused then some (causeSpace, BitVec.ofNat 64 base) else none

/-- The parameters of the route checks of R203: lowest offset and length. -/
def CopyDesc.window (d : CopyDesc) : Nat × Nat :=
  match d.dext with
  | some (lo, hi) => (ofInt 64 lo, (hi - lo + 1).toNat)
  | none => (d.dst, 0)

/-- CPY (R199). -/
def execCpy (d a : SReg) (s : State) : Res :=
  onStrand s fun p t =>
    let g := (t.s a).toNat
    if g % 64 ≠ 0 then s.raise p causeMisalign (t.s a)
    else if g + 192 > loftBase then s.raise p causeSpace (t.s a)
    else
      match s.fetchLocal p (0x38000 + g) 192 with
      | .wait l => s.stallFor p l
      | .poisoned o => s.uncorrected p (BitVec.ofNat 64 o)
      | .bytes raw =>
        let x := s.core p.core
        let q := copyDescOf (leNat raw)
        let dspace := (x.copySpaces q).2
        let route := q.dring.isNone && q.dspace == 7
        let w : RReg := Fin.ofNat 16 q.droute
        let members := if route then t.sheafOf w else []
        let sp := (x.copySpaces q).1
        if q.dims.isEmpty || 10 < q.dims.length || q.scope == 7 || 4 < q.sspace || q.dspace == 5 || q.dspace == 6 then
          s.illegal p (.cpy d a)
        else
          match ((x.copyCheck (t.s a) sp q.sring q.src q.sext false).or
              (x.copyCheck (t.s a) dspace q.dring q.dst q.dext true)).or
              (checkMembers t (s.ctxOf p) rightW [1, 2, 4] q.window.1 q.window.2 1 members) with
          | some c => s.raise p c.1 c.2
          | none =>
            match (List.range 4).find? fun k => !((mget x.copies k).map CopySlot.active).getD false with
            | none => s.stall p .copySlot
            | some k =>
              let ringed := q.sring.isSome || q.dring.isSome
              let slot : CopySlot :=
                { state := .waiting, desc := q, strand := p.strand, reason := 0, serial := x.copySerial, srcBase := q.src,
                  dstBase := q.dst, todo := [], sent := [], lost := [], members := (sortBy id members).map fun r => (r, t.wn r),
                  op := 0, failing := 0, cancelBy := [] }
              let s1 := ((s.clearSlot p.core k).complete p (t.setS d (BitVec.ofNat 64 k))).modCore p.core fun y => { y with
                copies := mset y.copies k { slot with todo := slot.units }, copySerial := y.copySerial + 1 }
              if ringed then s1.copyChanged p.core else s1.startCopy p.core k

/-- CPYWAIT (R204). -/
def execCpywait (d a : SReg) (s : State) : Res :=
  onStrand s fun p t =>
    let mask := bits (t.s a).toNat 0 4
    if (s.core p.core).anyActive mask then s.setStrand p (t.await s.now (.copy mask) d)
    else (s.acquireDone p mask).complete p (t.setS d (BitVec.ofNat 64 ((s.core p.core).doneMask mask)))

/-- The code of a slot's state (R204). -/
def CopyState.code : CopyState → Nat
  | .free => 0
  | .waiting => 1
  | .running => 2
  | .done => 3
  | .failed => 4
  | .cancelled => 5

/-- The elements of a command not yet moved (R204). -/
def CopySlot.unmoved (q : CopySlot) : Nat := q.elemsIn (q.todo ++ q.sent ++ q.lost)

/-- CPYSTAT (R204): an acquire when it returns DONE (R254). -/
def execCpystat (d a : SReg) (s : State) : Res :=
  onStrand s fun p t =>
    let k := bits (t.s a).toNat 0 2
    match mget (s.core p.core).copies k with
    | none => s.complete p (t.setS d 0)
    | some q =>
      let v := q.state.code + 2 ^ 4 * q.reason + 2 ^ 8 * q.strand + 2 ^ 32 * Nat.min q.unmoved (2 ^ 32 - 1)
      (s.acquireDone p (2 ^ k)).complete p (t.setS d (BitVec.ofNat 64 v))

/-- CPYCAN (R205): slots that are neither WAITING nor RUNNING are not named in what follows. -/
def execCpycan (d a : SReg) (s : State) : Res :=
  onStrand s fun p t =>
    let mask := bits (t.s a).toNat 0 4
    let x := s.core p.core
    let hit := fun (i : Nat) => bit mask i &&
      ((mget x.copies i).map fun q => q.active && q.failing == 0) == some true
    let hits := ((List.range 4).map fun i => if hit i then 2 ^ i else 0).sum
    let s1 := s.cancelCopies p.core p.strand fun i _ => hit i
    if (s1.core p.core).anyActive hits then
      s1.modStrand p fun t => t.hold s.now (.cancel hits) d
    else s1.modStrand p fun t => (t.setS d (BitVec.ofNat 64 hits)).complete

end Sys2Proof.Machine
end

