-- ==== Sys2Proof/Machine/Float.lean ====
section
/-!
DEFINITION. Number formats and arithmetic (spec/04): the 32 operand formats (R81 to R91), exact values, the one rounding
(R94 to R97), conversions (R98), and the integer readings that the instructions share.
-/

namespace Sys2Proof.Machine

/-- What an all-ones exponent means: nothing special, NaN at an all-ones mantissa only, or infinity and NaN (R84). -/
inductive Specials where
  | none
  | nanOnly
  | ieee
  deriving DecidableEq, Repr

/-- A floating format (R84): its format code, exponent and mantissa widths, bias and special values. -/
structure FFmt where
  code : Nat
  ew : Nat
  mw : Nat
  bias : Nat
  sp : Specials
  deriving DecidableEq, Repr

/-- An operand format's reading (R81): an integer of a width with a unit 2^u, a float, or residues. -/
inductive OpFmt where
  | int (w : Nat) (signed : Bool) (unit : Int)
  | flt (f : FFmt)
  | rns (c : Nat)
  deriving DecidableEq, Repr

def fE2M1 : FFmt := { code := 0x07, ew := 2, mw := 1, bias := 1, sp := .none }
def fE3M0 : FFmt := { code := 0x08, ew := 3, mw := 0, bias := 3, sp := .none }
def fE2M3 : FFmt := { code := 0x09, ew := 2, mw := 3, bias := 1, sp := .none }
def fE3M2 : FFmt := { code := 0x0A, ew := 3, mw := 2, bias := 3, sp := .none }
def fE4M3 : FFmt := { code := 0x0B, ew := 4, mw := 3, bias := 7, sp := .nanOnly }
def fE5M2 : FFmt := { code := 0x0C, ew := 5, mw := 2, bias := 15, sp := .ieee }
def fE3M4 : FFmt := { code := 0x0D, ew := 3, mw := 4, bias := 3, sp := .nanOnly }
def fFP16 : FFmt := { code := 0x0E, ew := 5, mw := 10, bias := 15, sp := .ieee }
def fBF16 : FFmt := { code := 0x0F, ew := 8, mw := 7, bias := 127, sp := .ieee }
def fE8M10 : FFmt := { code := 0x10, ew := 8, mw := 10, bias := 127, sp := .ieee }
def fFP32 : FFmt := { code := 0x11, ew := 8, mw := 23, bias := 127, sp := .ieee }

/-- The operand format of a code (R81, R83, R84). -/
def opFmt (c : Nat) : OpFmt :=
  match c with
  | 0x00 => .int 2 true 0
  | 0x01 => .int 4 true 0
  | 0x02 => .int 4 false 0
  | 0x03 => .int 8 true 0
  | 0x04 => .int 8 false 0
  | 0x05 => .int 16 true 0
  | 0x06 => .int 16 false 0
  | 0x07 => .flt fE2M1
  | 0x08 => .flt fE3M0
  | 0x09 => .flt fE2M3
  | 0x0A => .flt fE3M2
  | 0x0B => .flt fE4M3
  | 0x0C => .flt fE5M2
  | 0x0D => .flt fE3M4
  | 0x0E => .flt fFP16
  | 0x0F => .flt fBF16
  | 0x10 => .flt fE8M10
  | 0x11 => .flt fFP32
  | 0x12 => .flt fE2M1
  | 0x13 => .flt fE2M1
  | 0x14 => .flt fE2M3
  | 0x15 => .flt fE3M2
  | 0x16 => .flt fE4M3
  | 0x17 => .flt fE5M2
  | 0x18 => .int 8 true (-6)
  | 0x19 => .int 4 true (-2)
  | 0x1A => .rns 0x1A
  | 0x1B => .rns 0x1B
  | 0x1C => .rns 0x1C
  | 0x1D => .rns 0x1C
  | 0x1E => .int 4 true (-2)
  | _ => .flt fE4M3

/-- Container bits of a format code (R81). -/
def containerBits (c : Nat) : Nat :=
  match c with
  | 0x00 => 2
  | 0x01 | 0x02 | 0x07 | 0x08 | 0x12 | 0x13 | 0x19 | 0x1E => 4
  | 0x05 | 0x06 | 0x0E | 0x0F | 0x1A | 0x1B | 0x1C | 0x1D => 16
  | 0x10 | 0x11 => 32
  | _ => 8

/-- Elements in each column of the stationary plane, K (R81). -/
def kOf (c : Nat) : Nat := if c = 0x10 then 16 else 256 / containerBits c

/-- Scale block length of a format code; 0 for a format without a block (R81). -/
def blockOf (c : Nat) : Nat :=
  match c with
  | 0x12 | 0x19 | 0x1F => 16
  | 0x13 | 0x14 | 0x15 | 0x16 | 0x17 | 0x18 | 0x1D | 0x1E => 32
  | _ => 0

/-- Whether a format code is of residue kind (R81). -/
def isRns (c : Nat) : Bool := 0x1A ≤ c && c ≤ 0x1D

/-- Whether a format is an unscaled one of integer or residue kind (R92). -/
def isPlainInt (c : Nat) : Bool := c ≤ 0x06 || (0x1A ≤ c && c ≤ 0x1C)

/-! ### Floating values (R84 to R86) -/

/-- Smallest exponent of a normal value. -/
def FFmt.emin (f : FFmt) : Int := 1 - (f.bias : Int)
/-- Magnitude code of the largest finite value. -/
def FFmt.maxMag (f : FFmt) : Nat :=
  match f.sp with
  | .none => 2 ^ (f.ew + f.mw) - 1
  | .nanOnly => 2 ^ (f.ew + f.mw) - 2
  | .ieee => 2 ^ (f.ew + f.mw) - 2 ^ f.mw - 1
/-- The sign bit's weight. -/
def FFmt.signW (f : FFmt) : Nat := 2 ^ (f.ew + f.mw)
/-- The infinity code's magnitude. -/
def FFmt.infMag (f : FFmt) : Nat := 2 ^ (f.ew + f.mw) - 2 ^ f.mw
/-- The canonical NaN (R85): the upper mantissa bit, and in E8M10 (0x7FE0_0000) the upper two; 0 for a format without one. -/
def FFmt.nanCode (f : FFmt) : Nat :=
  match f.sp with
  | .none => 0
  | .nanOnly => 2 ^ (f.ew + f.mw) - 1
  | .ieee => f.infMag + (if f.mw = 10 ∧ f.ew = 8 then 0x300 else 2 ^ (f.mw - 1))
/-- A code with a sign. -/
def FFmt.signed (f : FFmt) (neg : Bool) (mag : Nat) : Nat := (if neg then f.signW else 0) + mag

/-- The value of an element's bits. -/
def FFmt.dec (f : FFmt) (c : Nat) : FVal :=
  let neg := bit c (f.ew + f.mw)
  let e := bits c f.mw f.ew
  let m := bits c 0 f.mw
  let special := e = 2 ^ f.ew - 1
  if special && f.sp == .ieee then (if m = 0 then .inf neg else .nan)
  else if special && f.sp == .nanOnly && m = 2 ^ f.mw - 1 then .nan
  else if e = 0 then .fin neg m (f.emin - f.mw)
  else .fin neg (2 ^ f.mw + m) (f.emin - f.mw + (e - 1 : Nat))

/-- An element's bits within its container (R82, R86), and a container for an element's bits. -/
def elemOfContainer (c v : Nat) : Nat :=
  match opFmt c with
  | .int w _ _ => v % 2 ^ w
  | .flt f => if f.code = 0x10 then v / 2 ^ 13 % 2 ^ 19 else v % 2 ^ (1 + f.ew + f.mw)
  | .rns _ => v
def containerOfElem (c v : Nat) : Nat := if c = 0x10 then v * 2 ^ 13 else v

/-- The value of a non-residue operand container (R83, R84). -/
def decContainer (c v : Nat) : FVal :=
  match opFmt c with
  | .int w signed unit =>
    let n : Int := if signed then toInt w v else (v % 2 ^ w : Nat)
    .fin (decide (n < 0)) n.natAbs unit
  | .flt f => f.dec (elemOfContainer c v)
  | .rns _ => .fin false 0 0

/-- The value of a scale byte (R87). -/
def decScale (b : Nat) : FVal := if b = 0xFF then .nan else .fin false 1 ((b : Int) - 127)

/-! ### Rounding (R96) -/

/-- Number of significant bits of a number. -/
def bitLen (n : Nat) : Nat := if n = 0 then 0 else Nat.log2 n + 1

/-- Whether a fraction rem / 2^sh is rounded up in magnitude; tie is what a tie to even does. -/
def roundsUp (mode : Nat) (neg : Bool) (rem half : Nat) (tie : Bool) : Bool :=
  match mode with
  | 0 => half < rem || (rem == half && tie)
  | 1 => false
  | 2 => neg && rem != 0
  | 3 => !neg && rem != 0
  | _ => half ≤ rem

/-- m / 2^sh rounded to an integer, and whether it was inexact. tie decides a tie by the lower candidate. -/
def roundShift (mode : Nat) (neg : Bool) (m : Nat) (sh : Int) (tie : Nat → Bool) : Nat × Bool :=
  if sh ≤ 0 then (m * 2 ^ (-sh).toNat, false)
  else
    let k := min sh.toNat (bitLen m + 2)
    let n := m / 2 ^ k
    let rem := m % 2 ^ k
    (n + (roundsUp mode neg rem (2 ^ (k - 1)) (tie n)).toNat, rem != 0)

/-- A tie goes to the even candidate. -/
def tieEven (n : Nat) : Bool := n % 2 == 1

/-- A finite value rounded once into a format (R96 to R98), with OF, UF and NX; an overflow is decided after rounding (log 38, DEDUCED). -/
def FFmt.enc (f : FFmt) (mode : Nat) (neg : Bool) (m : Nat) (e : Int) : Nat × BitVec 8 :=
  if m = 0 then (f.signed neg 0, 0) else
    let top := e + (bitLen m - 1 : Nat)
    let qmin := f.emin - f.mw
    let q := max top f.emin - f.mw
    let lower := (q - qmin).toNat * 2 ^ f.mw
    let tie := if f.mw = 0 then fun n => Config.e3m0Tie (lower + n) else tieEven
    let r := roundShift mode neg m (q - e) tie
    let mag := lower + r.1
    if f.maxMag < mag then
      let toInf := f.sp == .ieee && (mode == 0 || mode == 4 || (mode == 3 && !neg) || (mode == 2 && neg))
      (f.signed neg (if toInf then f.infMag else f.maxMag), flagOF ||| flagNX)
    else
      let free := roundShift mode neg m (top - f.mw - e) tieEven
      let tiny := top < f.emin && (f.mw == 0 || !(top == f.emin - 1 && free.1 == 2 ^ (f.mw + 1)))
      (f.signed neg mag, if r.2 then (if tiny then flagUF ||| flagNX else flagNX) else 0)

/-- Any value rounded into a format (R95, R97). -/
def FFmt.roundTo (f : FFmt) (mode : Nat) (v : FVal) : Nat × BitVec 8 :=
  match v with
  | .nan => (f.nanCode, if f.sp = .none then flagNV else 0)
  | .inf neg => if f.sp = .ieee then (f.signed neg f.infMag, 0) else (f.signed neg f.maxMag, flagNV)
  | .fin neg m e => f.enc mode neg m e

/-- Any value converted into a format (R98): a tiny result sets UF in E3M0 alone. -/
def FFmt.conv (f : FFmt) (mode : Nat) (v : FVal) : Nat × BitVec 8 :=
  let r := f.roundTo mode v
  (r.1, if f.mw = 0 then r.2 else r.2 &&& ~~~flagUF)

/-- Any value converted to an integer in units of 2^unit within a range (R98). -/
def intConv (mode : Nat) (lo hi unit : Int) (v : FVal) : Int × BitVec 8 :=
  match v with
  | .nan => (0, flagNV)
  | .inf neg => (if neg then lo else hi, flagNV)
  | .fin neg m e =>
    let r := roundShift mode neg m (unit - e) tieEven
    let n : Int := if neg then -(r.1 : Int) else r.1
    if n < lo then (lo, flagNV) else if hi < n then (hi, flagNV) else (n, if r.2 then flagNX else 0)

/-- Any value converted into the container of an operand format other than a residue one (R98, R157). -/
def convContainer (c mode : Nat) (v : FVal) : Nat × BitVec 8 :=
  match opFmt c with
  | .int w signed unit =>
    let r := if signed then intConv mode (-(2 ^ (w - 1) : Nat)) ((2 ^ (w - 1) : Nat) - 1) unit v
      else intConv mode 0 ((2 ^ w : Nat) - 1) unit v
    (ofInt w r.1, r.2)
  | .flt f => let r := f.conv mode v; (containerOfElem c r.1, r.2)
  | .rns _ => (0, 0)

/-! ### Exact arithmetic and its invalid cases (R97) -/

/-- An integer numerator at an exponent, as a value. -/
def ofScaled (n e : Int) : FVal := .fin (decide (n < 0)) n.natAbs e
/-- The numerator of a finite value at an exponent not above its own. -/
def scaledAt (neg : Bool) (m : Nat) (e lo : Int) : Int :=
  let v : Int := (m * 2 ^ (e - lo).toNat : Nat)
  if neg then -v else v

/-- The value with its sign inverted. -/
def FVal.negate : FVal → FVal
  | .nan => .nan
  | .inf n => .inf (!n)
  | .fin n m e => .fin (!n) m e

/-- An exact sum; an exact zero takes the sign of R96. -/
def fadd (mode : Nat) (a b : FVal) : FVal × BitVec 8 :=
  match a, b with
  | .nan, _ => (.nan, 0)
  | _, .nan => (.nan, 0)
  | .inf x, .inf y => if x = y then (.inf x, 0) else (.nan, flagNV)
  | .inf x, _ => (.inf x, 0)
  | _, .inf y => (.inf y, 0)
  | .fin x m e, .fin y n g =>
    let lo := min e g
    let v := scaledAt x m e lo + scaledAt y n g lo
    if v = 0 then (.fin (if m = 0 ∧ n = 0 ∧ x = y then x else mode == 2) 0 0, 0) else (ofScaled v lo, 0)

/-- An exact product. -/
def fmul (a b : FVal) : FVal × BitVec 8 :=
  match a, b with
  | .nan, _ => (.nan, 0)
  | _, .nan => (.nan, 0)
  | .inf x, .inf y => (.inf (x != y), 0)
  | .inf x, .fin y n _ => if n = 0 then (.nan, flagNV) else (.inf (x != y), 0)
  | .fin x m _, .inf y => if m = 0 then (.nan, flagNV) else (.inf (x != y), 0)
  | .fin x m e, .fin y n g => (.fin (x != y) (m * n) (e + g), 0)

/-- An exact product and sum. With a NaN addend, the implementation decides whether infinity times zero sets NV. -/
def ffma (mode : Nat) (a b c : FVal) : FVal × BitVec 8 :=
  let p := fmul a b
  let r := fadd mode p.1 c
  (r.1, if c = .nan ∧ !Config.fmaNanInvalid then r.2 else p.2 ||| r.2)

/-- A quotient rounded into a format: 64 bits beyond the divisor's, and a last bit for what remains. -/
def fdiv (f : FFmt) (mode : Nat) (a b : FVal) : Nat × BitVec 8 :=
  match a, b with
  | .nan, _ => (f.nanCode, 0)
  | _, .nan => (f.nanCode, 0)
  | .inf _, .inf _ => (f.nanCode, flagNV)
  | .inf x, .fin y _ _ => (f.signed (x != y) f.infMag, 0)
  | .fin x _ _, .inf y => (f.signed (x != y) 0, 0)
  | .fin x m e, .fin y n g =>
    if n = 0 then (if m = 0 then (f.nanCode, flagNV) else (f.signed (x != y) f.infMag, flagDZ))
    else
      let k := bitLen n + 64
      let q := m * 2 ^ k / n
      f.enc mode (x != y) (2 * q + (if m * 2 ^ k % n = 0 then 0 else 1)) (e - g - k - 1)

/-- The integer square root, bit by bit. -/
def isqrtFrom (m : Nat) : Nat → Nat → Nat
  | 0, r => if (r + 1) * (r + 1) ≤ m then r + 1 else r
  | i + 1, r =>
    let x := r + 2 ^ (i + 1)
    isqrtFrom m i (if x * x ≤ m then x else r)
/-- The integer square root of a number. -/
def isqrt (m : Nat) : Nat := isqrtFrom m (bitLen m / 2 + 1) 0

/-- m · 2^e with an even exponent and 128 more bits. -/
def evenScaled (m : Nat) (e : Int) : Nat × Int :=
  if e % 2 = 0 then (m * 2 ^ 128, e - 128) else (2 * m * 2 ^ 128, e - 129)

/-- A square root rounded into a format. -/
def fsqrt (f : FFmt) (mode : Nat) (a : FVal) : Nat × BitVec 8 :=
  match a with
  | .nan => (f.nanCode, 0)
  | .inf neg => if neg then (f.nanCode, flagNV) else (f.signed false f.infMag, 0)
  | .fin neg m e =>
    if m = 0 then (f.signed neg 0, 0)
    else if neg then (f.nanCode, flagNV)
    else
      let y := evenScaled m e
      let r := isqrt y.1
      f.enc mode false (2 * r + (if r * r = y.1 then 0 else 1)) (y.2 / 2 - 1)

/-- The result of an operation rounded into a format, with all its flags. -/
def FFmt.round (f : FFmt) (mode : Nat) (v : FVal × BitVec 8) : Nat × BitVec 8 :=
  let r := f.roundTo mode v.1
  (r.1, v.2 ||| r.2)

/-- The order of two values that are not NaN; the zeros are equal. -/
def fcmp (a b : FVal) : Ordering :=
  match a, b with
  | .inf x, .inf y => if x = y then .eq else if x then .lt else .gt
  | .inf x, _ => if x then .lt else .gt
  | _, .inf y => if y then .gt else .lt
  | .fin x m e, .fin y n g =>
    let lo := min e g
    compare (scaledAt x m e lo) (scaledAt y n g lo)
  | _, _ => .eq

/-- Whether a value is negative or −0. -/
def FVal.isNeg : FVal → Bool
  | .nan => false
  | .inf n => n
  | .fin n _ _ => n

/-- Which of two codes VFMIN (or VFMAX) returns (R156). -/
def fminmax (f : FFmt) (wantMax : Bool) (a b : Nat) : Nat :=
  match f.dec a, f.dec b with
  | .nan, .nan => f.nanCode
  | .nan, _ => b
  | _, .nan => a
  | x, y =>
    match fcmp x y with
    | .lt => if wantMax then b else a
    | .gt => if wantMax then a else b
    | .eq => if x.isNeg = wantMax then b else a

/-- The class bit of VFCLASS (R156). -/
def fclass (f : FFmt) (a : Nat) : Nat :=
  match f.dec a with
  | .nan => 2 ^ 8
  | .inf n => if n then 2 ^ 0 else 2 ^ 7
  | .fin n m _ =>
    if m = 0 then (if n then 2 ^ 3 else 2 ^ 4)
    else if m < 2 ^ f.mw then (if n then 2 ^ 2 else 2 ^ 5)
    else (if n then 2 ^ 1 else 2 ^ 6)

/-! ### Residues (R89 to R91) -/

/-- Moduli, channel widths and conversion constants of a residue format code. -/
structure RnsFmt where
  m1 : Nat
  m2 : Nat
  m3 : Nat
  w1 : Nat
  w2 : Nat
  w3 : Nat
  c1 : Nat
  c2 : Nat
  c3 : Nat
  deriving DecidableEq, Repr

def rnsFmt (c : Nat) : RnsFmt :=
  match c with
  | 0x1A => { m1 := 7, m2 := 8, m3 := 9, w1 := 3, w2 := 3, w3 := 4, c1 := 288, c2 := 441, c3 := 280 }
  | 0x1B => { m1 := 13, m2 := 15, m3 := 16, w1 := 4, w2 := 4, w3 := 4, c1 := 2640, c2 := 1456, c3 := 2145 }
  | _ => { m1 := 31, m2 := 32, m3 := 33, w1 := 5, w2 := 5, w3 := 6, c1 := 16896, c2 := 31713, c3 := 16864 }

/-- The channel residues of a container. -/
def rnsSplit (r : RnsFmt) (v : Nat) : Nat × Nat × Nat :=
  (bits v 0 r.w1 % r.m1, bits v r.w1 r.w2 % r.m2, bits v (r.w1 + r.w2) r.w3 % r.m3)

/-- The signed value of three residues (R91). -/
def rnsValue (r : RnsFmt) (x : Nat × Nat × Nat) : Int :=
  let m := r.m1 * r.m2 * r.m3
  let v := (x.1 * r.c1 + x.2.1 * r.c2 + x.2.2 * r.c3) % m
  if m ≤ 2 * v then (v : Int) - m else v

/-- The format that VCFG.VFMT selects (R37). -/
def vfmtOf (v : Nat) : FFmt :=
  match v with
  | 0 => fFP32
  | 1 => fFP16
  | _ => fBF16

end Sys2Proof.Machine
end

