-- ==== Sys2Proof/Machine/Vec.lean ====
section
/-!
DEFINITION. The element view of vector registers (R64, R145 to R147), residency and the loft (R32 to R35), and the skeleton
that every element-wise vector instruction follows (R146, R151).
-/

namespace Sys2Proof.Machine

/-! ### Elements -/

/-- Element i of w bits of an image. -/
def elem (img : VImage) (w i : Nat) : Nat := bits img.toNat (w * i) w

/-- The image with element i of w bits replaced. -/
def setElem (img : VImage) (w i v : Nat) : VImage :=
  let hole := BitVec.ofNat 4096 ((2 ^ w - 1) * 2 ^ (w * i))
  (img &&& ~~~hole) ||| BitVec.ofNat 4096 (v % 2 ^ w * 2 ^ (w * i))

/-- A mask with bit i replaced. -/
def setMaskBit (m : MImage) (i : Nat) (v : Bool) : MImage :=
  (m &&& ~~~(BitVec.twoPow 512 i)) ||| (if v then BitVec.twoPow 512 i else 0)

/-- An image's first n bytes, and an image from bytes (R70). -/
def imageBytes (img : VImage) (n : Nat) : List Byte := leBytes n img.toNat
def imageOf (b : List Byte) : VImage := BitVec.ofNat 4096 (leNat b)

/-! ### Residency (R32 to R35) -/

/-- Vector registers resident at most: 48, or in pass mode floor(48 / p) (R69). -/
def State.residentCap (s : State) (p : Place) : Nat :=
  let l := (s.core p.core).lanes p.strand
  match (s.strand p).pass with
  | some ls => if l < ls then 48 / (ls / l) else 48
  | none => 48

/-- The loft slot of a register. -/
def loftSlot (loft : SMap Nat) (v : Nat) : Option Nat := (mfind (fun _ r => r == v) loft).map (·.1)

/-- Whether registers without a lane entry lie in the save record and not in the loft: in pass mode with fewer lanes than were
saved (R69). -/
def State.spills (s : State) (p : Place) : Bool :=
  match (s.strand p).pass with
  | some ls => (s.core p.core).lanes p.strand < ls
  | none => false

/-- The local offset of a slot of a strand's loft region (R32), under a partition with n vector strands. -/
def loftAddr (n strand slot : Nat) : Nat := 0x38000 + loftBase + strand * (8192 / n) + slot * loftBytes n

/-- What the residency rule keeps track of: the registers in the lanes, the loft, the registers in the save record, the moves
made, and the loft slots that they read and write. -/
structure Residency where
  here : List Nat
  loft : SMap Nat
  kept : SMap Unit
  moves : Nat
  reads : List Nat
  writes : List Nat
  deriving DecidableEq, Repr

/-- A register brought into the lanes from where it lies: a loft slot, the save record, or nowhere yet. -/
def Residency.bring (r : Residency) (v : Nat) : Residency :=
  match loftSlot r.loft v with
  | some k => { r with here := v :: r.here, loft := mdel r.loft k, moves := r.moves + 1, reads := k :: r.reads }
  | none =>
    if mhas r.kept v then { r with here := v :: r.here, kept := mdel r.kept v, moves := r.moves + 1 }
    else { r with here := v :: r.here }

/-- A register put out of the lanes: into the save record, into a given loft slot, or into the lowest free one. -/
def Residency.putOut (r : Residency) (spill : Bool) (slot : Option Nat) (x : Nat) : Residency :=
  let here := r.here.filter (· != x)
  if spill then { r with here := here, kept := mset r.kept x (), moves := r.moves + 1 }
  else
    let k := slot.getD ((mfree r.loft 64).getD 64)
    { r with here := here, loft := mset r.loft k x, moves := r.moves + 1, writes := k :: r.writes }

/-- One register made resident (R34): with the lanes full, the register with the oldest stamp that the instruction does
not name gives way, the lowest-numbered of those tied; an exchange puts it where the other lay. -/
def Residency.take (r : Residency) (stamps : SMap Nat) (cap : Nat) (spill : Bool) (named : List Nat) (v : Nat) :
    Residency :=
  if r.here.contains v then r
  else if cap ≤ r.here.length then
    match (sortBy (fun x => mgetD stamps x 0 * 64 + x) (r.here.filter fun x => !named.contains x)).head? with
    | none => r
    | some x => (r.bring v).putOut spill (loftSlot r.loft v) x
  else r.bring v

/-- The residency rule for the registers an instruction or convoy names: sources whose written bit is clear need none
(R34), and every named register takes the stamp of this issue (R33). -/
def Strand.reside (t : Strand) (cap : Nat) (spill : Bool) (needs : List (Nat × Bool)) : Strand × Residency :=
  let named := needs.map (·.1)
  let here := (mkeys t.vectors).filter fun v => (loftSlot t.loft v).isNone && !mhas t.inRecord v
  let wanted := (needs.filter fun n => n.2 || mhas t.vectors n.1).map (·.1)
  let r := wanted.foldl (fun (r : Residency) v => r.take t.stamps cap spill named v)
    ({ here := here, loft := t.loft, kept := t.inRecord, moves := 0, reads := [], writes := [] } : Residency)
  ({ t with
      loft := r.loft
      inRecord := r.kept
      stamps := named.foldl (fun (m : SMap Nat) v => mset m v (t.issueNo + 1)) t.stamps
      issueNo := t.issueNo + 1 }, r)

/-- The written registers placed anew, in ascending order: as many as the lanes hold, then the loft's slots, or the save record.
The spec does not say which register lies where after a restore (R80), nor after SETVL has ended pass mode (R70) (log 84,
DESIGN CHOICE). -/
def Strand.placeAnew (t : Strand) (cap : Nat) (spill : Bool) : Strand :=
  let rest := (mkeys t.vectors).drop cap
  { t with
    loft := if spill then [] else rest.zipIdx.map fun e => (e.2, e.1)
    inRecord := if spill then rest.map fun v => (v, ()) else [] }

/-- The loft moves of an instruction (R35, R55): they wait while a bay that they touch is scrubbed, and a slot that an uncorrected
error has hit traps UNCORRECTED; otherwise the strand is STALLED until they are made. -/
def State.makeMoves (s : State) (p : Place) (r : Strand × Residency) : State :=
  let x := s.core p.core
  let n := vectorStrands x.part
  let at' := loftAddr n p.strand
  match (r.2.reads ++ r.2.writes).find? fun k => mhas x.scrub (bayOf (at' k)) with
  | some k => s.stall p (.scrub (bayOf (at' k)))
  | none =>
    match r.2.reads.find? fun k => x.localPoisoned (at' k) (loftBytes n) with
    | some k => s.uncorrected p (BitVec.ofNat 64 (at' k))
    | none =>
      ((s.modCore p.core fun y => { y with
        bad := r.2.writes.foldl (fun (m : NSet) k => mdelRange m (at' k) (loftBytes n)) y.bad }).setStrand p
          (r.1.stall .loft)).later .loftMovesComplete (.place p)

/-- Whether a member runs for a convoy or a paused instruction, whose mask has been read. -/
def State.inConvoy (s : State) (p : Place) : Bool := s.cur.place == p && s.cur.mask.isSome

/-- The strand of a vector instruction with its registers resident, or STALLED while loft moves are pending (R35). Where a convoy
names more registers than pass mode keeps resident (R69), its members exchange them with the save record as they run (log 84, DESIGN
CHOICE). -/
def State.withResident (s : State) (p : Place) (t : Strand) (needs : List (Nat × Bool)) (f : Strand → State) : State :=
  let r := t.reside (s.residentCap p) (s.spills p) needs
  if r.2.moves = 0 || (s.inConvoy p && s.spills p) then f r.1 else s.makeMoves p r

/-- A source register, and a destination register (which needs residency whether it is written or not). -/
def srcReg (r : VReg) : Nat × Bool := (r.val, false)
def dstReg (r : VReg) : Nat × Bool := (r.val, true)
/-- The register a second source names, if it names a vector register. -/
def srcOf : VSrc → List (Nat × Bool)
  | .v r => [srcReg r]
  | .s _ => []

/-! ### The skeleton (R146) -/

/-- The convoy member an instruction is. -/
def State.member (s : State) (p : Place) : Nat := if s.cur.place = p then s.cur.member else 0

/-- The element at which a split member stops, if its convoy is being stopped (R68). -/
def State.stopAt (s : State) (p : Place) : Option Nat := if s.cur.place = p then s.cur.stop else none

/-- The mask in force (R65, R145): read once at issue, by a convoy once for all its members (R67), and kept until an instruction
in progress ends. -/
def State.maskOf (s : State) (p : Place) (t : Strand) : MImage :=
  match (if s.cur.place = p then s.cur.mask else none) with
  | some m => m
  | none => t.midMask.getD (t.m t.vec.vmsel)

/-- The strand with its vector instruction in progress: begun and not ended, under a mask that stays in force (none: it is to be
executed anew, R68). -/
def Strand.begun (t : Strand) (m : Option MImage) : Strand := { t with mid := true, midMask := m }

/-- Element width in bits. -/
def Strand.sewW (t : Strand) : Nat := sewBits t.vec.sew

/-- The elements lo to hi − 1 that a mask makes active, ascending. -/
def activeIn (m : MImage) (lo hi : Nat) : List Nat :=
  (List.range (hi - lo)).filterMap fun i => if m.getLsbD (lo + i) then some (lo + i) else none

/-- The active elements that the instruction processes: from VSTARTk up to VL, or up to the stop. -/
def State.actives (s : State) (p : Place) (t : Strand) (m : MImage) : List Nat :=
  let hi := match s.stopAt p with
    | some e => min e t.vec.vl
    | none => t.vec.vl
  activeIn m (t.vec.vstart (s.member p)) hi

/-- VSTARTk after the instruction: 0, or the stop for a member that was stopped (R68) (log 14, DEDUCED). -/
def State.endVstart (s : State) (p : Place) (t : Strand) : Strand :=
  let k := s.member p
  let n := match s.stopAt p with
    | some e => max e (t.vec.vstart k)
    | none => 0
  { t with vec := t.vec.setVstart k n }

/-- A second source's value for element i (R147). -/
def srcElem (t : Strand) (w : Nat) (b : VSrc) (i : Nat) : Nat :=
  match b with
  | .v r => elem (t.v r) w i
  | .s r => (t.s r).toNat % 2 ^ w

/-- An element's result and flags. -/
abbrev ElemRes := Nat × BitVec 8

/-- An image with the given elements computed, and the flags of them all. -/
def computeElems (img : VImage) (w : Nat) (is : List Nat) (f : Nat → ElemRes) : VImage × BitVec 8 :=
  is.foldl (fun r i => (setElem r.1 w i (f i).1, r.2 ||| (f i).2)) (img, 0)

/-- The skeleton of R146 once the checks of R148 have passed: registers made resident, active elements written, flags
added, VSTARTk cleared, the instruction completed. -/
def vecRun (s : State) (p : Place) (t : Strand) (needs : List (Nat × Bool)) (d : VReg) (m : MImage)
    (f : Strand → Nat → ElemRes) : State :=
  s.withResident p t needs fun u =>
    let r := computeElems (u.v d) u.sewW (s.actives p u m) (f u)
    s.complete p (s.endVstart p ((u.setV d r.1).addFlags true r.2))

/-- Whether SEW is the width of the format that VCFG.VFMT selects (R148). -/
def Strand.sewFits (t : Strand) : Bool := t.vec.sew == (if t.vec.vfmt = 0 then 2 else 1)

/-- Fields of the operand of VLDQ and VSTQ (R169): ring, slot distance, byte offset. -/
def ringOperand (a : Word) : Nat × Nat × Nat := (bits a.toNat 0 4, bits a.toNat 4 4, bits a.toNat 32 32)

/-- Whether VLDQ (or VSTQ) may address the slot its operand names (R169). -/
def Core.ringAllows (x : Core) (a : Word) (store : Bool) : Bool :=
  let o := ringOperand a
  let r := x.ring o.1
  r.slot != 0 && (if store then r.space != 1 && o.2.1 < r.count - r.filled else o.2.1 < r.filled)

/-- Test 12 of R106 for vector instructions: the checks of R148, as the cause and value of the trap. -/
def State.vecCheck (s : State) (p : Place) (t : Strand) (i : Instr) : Option (Nat × Word) :=
  let need := fun (ok : Bool) => if ok then none else some (causeIllegal, wordOf i)
  let space := fun (a : SReg) (ok : Bool) => if ok then none else some (causeSpace, t.s a)
  match i with
  | .vfadd .. | .vfsub .. | .vfmul .. | .vfma .. | .vfms .. | .vfnma .. | .vfdiv .. | .vfsqrt .. | .vfmin ..
  | .vfmax .. | .vfabs .. | .vfneg .. | .vfcvti .. | .vicvtf .. | .vfclass ..
  | .vexp2 .. | .vlog2 .. | .vrcp .. | .vrsqrt .. | .vsin .. | .vcos .. | .vtanh .. | .vsigm ..
  | .vfredsum .. | .vfceq .. | .vfclt .. | .vfcle .. | .vfcun .. => need t.sewFits
  | .vfcvt _ d a f =>
    need (t.sewFits && !isRns f.val && d != a &&
      t.vec.vl * containerBits f.val ≤ t.vec.vlmaxs * sewBits t.vec.sew)
  | .vscan _ d a => need (d != a)
  | .vst _ _ a => space a (t.vec.space != 1)
  | .vstx _ _ a _ => space a (t.vec.space != 1)
  | .vldq _ _ a => space a ((s.core p.core).ringAllows (t.s a) false)
  | .vstq _ _ a => space a ((s.core p.core).ringAllows (t.s a) true)
  | _ => none

/-- A vector instruction that names a vector register: test 11, then test 12. -/
def vecGate (s : State) (i : Instr) (f : Place → Strand → State) : Res :=
  needLanes s i fun p t =>
    match s.vecCheck p t i with
    | some c => s.raise p c.1 c.2
    | none => f p t

/-- An element-wise vector instruction: the tests, then the skeleton. -/
def vecOp (s : State) (i : Instr) (needs : List (Nat × Bool)) (d : VReg) (f : Strand → Nat → ElemRes) : Res :=
  vecGate s i fun p t => vecRun s p t needs d (s.maskOf p t) f

/-- The element below which a pause in a strand's progress ends a beat (R64, R79): the first one not below n. -/
def State.beatEnd (s : State) (p : Place) (t : Strand) (n : Nat) : Nat :=
  let b := s.laneCount p * (32 / t.sewW)
  (n + (b - 1)) / b * b

/-- An instruction whose convoy is stopped before it starts, or that completed earlier in its convoy (R68, R149): an
unsplit instruction that finds VSTARTk ≠ 0 writes nothing. -/
def State.unsplitDone (s : State) (p : Place) (t : Strand) : Bool := t.vec.vstart (s.member p) != 0

end Sys2Proof.Machine
end

