-- ==== Sys2Proof/Machine/Matrix.lean ====
section
/-!
DEFINITION. The matrix unit (R172 to R188): planes, MMA, MOPA, MSLIDE, MRDC, MZERO and MDRAIN. An operation reads its registers,
planes and scale bytes when it issues; its rows of C and lines of W are events of their own until it completes (log 27, DEDUCED).
-/

namespace Sys2Proof.Machine

/-! ### Images and containers -/

/-- Bytes that one vector register contributes to an image: 32 a lane (R174). -/
def State.breg (s : State) (p : Place) : Nat := 32 * s.laneCount p

/-- The byte image of n registers from r on, as a number (R174). -/
def Strand.group (t : Strand) (breg r : Nat) : Nat → Nat
  | 0 => 0
  | n + 1 =>
    (mgetD t.vectors r 0).toNat % 2 ^ (8 * breg) + 2 ^ (8 * breg) * t.group breg (r + 1) n

/-- Container j of w bits of an image. -/
def container (img w j : Nat) : Nat := bits img (w * j) w

/-- Stored elements a group of twelve holds, by the SPARSE code (R172, R177). -/
def perTwelve (sparse : Nat) : Nat := match sparse with | 1 => 6 | 2 => 4 | _ => 3

/-- Groups of twelve in a column, and the depth of a plane (R178, R182). -/
def groupsOf (k sparse : Nat) : Nat := k / perTwelve sparse
def Plane.depth (pl : Plane) (fb : Nat) : Nat :=
  if pl.loaded && pl.sparse != 0 then 12 * groupsOf (kOf fb) pl.sparse.toNat else kOf fb

/-- Stored container s of column c of a plane (R86, R173). -/
def Plane.stored (pl : Plane) (fb c s : Nat) : Nat :=
  let j := c * kOf fb + s
  if !pl.loaded then 0
  else if fb = 0x10 then container pl.image.toNat 16 j * 2 ^ 16 + container pl.ext.toNat 3 j * 2 ^ 13
  else container pl.image.toNat (containerBits fb) j

/-- The containers that stand at logical position k of column c: for a sparse plane those whose index names it, and a
zero where none does (R178). -/
def Plane.column (pl : Plane) (fb c k : Nat) : List Nat :=
  if pl.loaded && pl.sparse != 0 then
    let n := perTwelve pl.sparse.toNat
    let here := (List.range n).filterMap fun q =>
      let s := n * (k / 12) + q
      if bits pl.meta'.toNat (8 * (kOf fb / 2 * c) + 4 * s) 4 = k % 12 then some (pl.stored fb c s) else none
    if here.isEmpty then [0] else here
  else [pl.stored fb c k]

/-! ### Scales (R88) -/

/-- The scale byte of element j of an operand with its vector at an offset, as a value; 1 for a format without blocks. -/
def scaleOf (x : Core) (fmt off j : Nat) : FVal :=
  if blockOf fmt = 0 then .fin false 1 0
  else decScale (x.readLocalByte (off + j / blockOf fmt)).toNat

/-- Whether a scale vector that serves n elements stays clear of the loft (R181 check 8). -/
def scalesClear (fmt off n : Nat) : Bool :=
  blockOf fmt == 0 || n == 0 || off + (n - 1) / blockOf fmt < bufBase 4 + loftBase

/-! ### Sums (R90, R93 to R95) -/

/-- An exact sum of products. -/
def dotOf (terms : List (FVal × FVal)) : FVal :=
  terms.foldl (fun acc e => (fadd 0 acc (fmul e.1 e.2).1).1) (.fin false 0 0)

/-- Whether one of some values is NaN. -/
def anyNan (terms : List (FVal × FVal)) : Bool := terms.any fun e => e.1 == .nan || e.2 == .nan

/-- An accumulator word with an exact sum added (R93 to R95): the new word and the flags. NV is set for a NaN that no
NaN input gave (log 17, DEDUCED). -/
def accumulateSum (fmtc c : Nat) (d : FVal) (nanIn : Bool) : Nat × BitVec 8 :=
  if fmtc = 0 then
    (match d with
     | .fin neg m e => (ofInt 32 ((toInt 32 c) + scaledAt neg m e 0), 0)
     | _ => (c, 0))
  else
    let old := fFP32.dec c
    let sum := (fadd 0 old d).1
    let r := fFP32.roundTo 0 sum
    (r.1, if sum = .nan then (if old = .nan ∨ nanIn then 0 else flagNV) else r.2)

/-- An accumulator word with a list of products added. -/
def accumulate (fmtc c : Nat) (terms : List (FVal × FVal)) : Nat × BitVec 8 :=
  accumulateSum fmtc c (dotOf terms) (anyNan terms)

/-- The 4-byte accumulator of output (i, c) of a tile (R180), as a local offset. -/
def outAt (t0 i c : Nat) : Nat := bufBase 3 + t0 + 32 * i + 4 * c

/-- A core with products added into the residue latch of output (i, c), channel by channel (R90). -/
def accLatch (fmt i c : Nat) (terms : List (Nat × Nat)) (x : Core) : Core :=
  let f := rnsFmt fmt
  let old := mgetD x.mtx.latches (8 * i + c) (0, 0, 0)
  let add := fun (acc : Nat × Nat × Nat) (e : Nat × Nat) =>
    let a := rnsSplit f e.1
    let b := rnsSplit f e.2
    ((acc.1 + a.1 * b.1) % f.m1, (acc.2.1 + a.2.1 * b.2.1) % f.m2, (acc.2.2 + a.2.2 * b.2.2) % f.m3)
  { x with mtx := { x.mtx with latches := mput (0, 0, 0) x.mtx.latches (8 * i + c) (terms.foldl add old) } }

/-- Every output (i, c) of h rows, in order. -/
def outputs (h : Nat) : List (Nat × Nat) := (List.range (8 * h)).map fun j => (j / 8, j % 8)

/-- What an operation forms for output (i, c): exact value pairs, or residue container pairs. -/
structure MtxSum where
  fa : Nat
  h : Nat
  vals : Nat → Nat → List (FVal × FVal)
  residues : Nat → Nat → List (Nat × Nat)

/-- The rows of C that a multiplying operation accumulates (R182). -/
def MtxSum.rows (m : MtxSum) (fmtc t0 : Nat) : List MtxRow :=
  if isRns m.fa then [] else (List.range m.h).map fun i =>
    .add (outAt t0 i 0) fmtc ((List.range 8).map fun c => some (dotOf (m.vals i c), anyNan (m.vals i c)))

/-- The core after the residues of a multiplying operation (R90). -/
def MtxSum.latch (m : MtxSum) (x : Core) : Core :=
  if isRns m.fa then (outputs m.h).foldl (fun x o => accLatch m.fa o.1 o.2 (m.residues o.1 o.2) x) x else x

/-- What a multiplying operation does at issue, and its rows. -/
def MtxSum.start (m : MtxSum) (fmtc t0 : Nat) (x : Core) : Core × List MtxRow × MtxInto :=
  (m.latch x, m.rows fmtc t0, .none)

/-! ### The events of an operation (R176, R185) -/

/-- The local bytes of an event. -/
def MtxRow.range : MtxRow → Nat × Nat
  | .add off _ _ => (off, 32)
  | .zero off => (off, 32)
  | .read off n => (off, n)

/-- Whether an event reads. -/
def MtxRow.reads : MtxRow → Bool
  | .zero _ => false
  | _ => true

/-- An output of a row: its old word with what is added, and the flags. -/
def addOut (fmtc c : Nat) : Option (FVal × Bool) → Nat × BitVec 8
  | none => (fFP32.nanCode, flagNV)
  | some (d, nanIn) => accumulateSum fmtc c d nanIn

/-- The words of a row of C after its event, and the flags. -/
def rowOuts (fmtc : Nat) (old : Nat) (outs : List (Option (FVal × Bool))) : List (Nat × BitVec 8) :=
  outs.zipIdx.map fun o => addOut fmtc (bits old (32 * o.2) 32) o.1

/-- A core and its operation after one event (R185): the row as a whole. -/
def MtxRow.land (r : MtxRow) (x : Core) (op : MtxOp) : Core × MtxOp :=
  let o := r.range
  let op1 := { op with
    spoilt := if r.reads && x.localPoisoned o.1 o.2 then op.spoilt.or (some o.1) else op.spoilt }
  match r with
  | .add off fmtc outs =>
    let v := rowOuts fmtc (leNat (x.readLocal off 32)) outs
    (x.writeLocal off (v.map fun e => leBytes 4 e.1).flatten, { op1 with flags := v.foldl (fun f e => f ||| e.2) op.flags })
  | .zero off => (x.writeLocal off (List.replicate 32 0), op1)
  | .read off n => (x, { op1 with got := op.got ++ x.readLocal off n })

/-- The next events of the operation in progress, as far as no line of theirs waits (R51, R55, R77), n at most. -/
def Core.landRows (x : Core) : Nat → Core
  | 0 => x
  | n + 1 =>
    match x.mtx.busy with
    | none => x
    | some op =>
      match op.rows with
      | [] => x
      | r :: rest =>
        if (x.localWait (some op.strand) r.range.1 r.range.2).isSome then x
        else
          let y := r.land x op
          ({ y.1 with mtx := { y.1.mtx with busy := some { y.2 with rows := rest } } } : Core).landRows n

/-- A core and an operation once all its events have landed. -/
def MtxOp.settle (x : Core) (op : MtxOp) : Core × MtxOp :=
  op.rows.foldl (fun (r : Core × MtxOp) row => row.land r.1 r.2) (x, { op with rows := [] })

/-- A scaled pair of containers: values times their scales. -/
def scaledPair (x : Core) (fa oa ja ca fb ob jb cb : Nat) : FVal × FVal :=
  ((fmul (decContainer fa ca) (scaleOf x fa oa ja)).1, (fmul (decContainer fb cb) (scaleOf x fb ob jb)).1)

/-- An activation element of an integer kind less the zero point, in its unit (R182); any other is its value. -/
def lessZero (fa c : Nat) (z : Int) : FVal :=
  match opFmt fa with
  | .int w signed unit => ofScaled ((if signed then toInt w c else (c % 2 ^ w : Nat)) - z) unit
  | _ => decContainer fa c

/-! ### Issue (R63, R181) -/

/-- Offsets of the scale vectors (R39). -/
def Strand.offA (t : Strand) : Nat := t.task.scla.toNat
def Strand.offB (t : Strand) : Nat := t.task.sclb.toNat

/-- Whether FMTA, FMTB and FMTC are a combination that R92 allows. -/
def pairingOk (fa fb fc : Nat) : Bool :=
  let mods := fun c => if c = 0x1D then 0x1C else c
  (if isRns fa || isRns fb then mods fa == mods fb && isRns fa && isRns fb else true) &&
  (fc == 1 || (fc == 0 && isPlainInt fa && isPlainInt fb))

/-- The first failure of a list of checks: condition, cause, value. -/
def firstFail (l : List (Bool × Nat × Word)) : Option (Nat × Word) := (l.find? fun e => !e.1).map (·.2)

/-- A tile's rows: alignment and bounds (R181 checks 6 and 7). -/
def tileChecks (t0 : Word) (h : Nat) : List (Bool × Nat × Word) :=
  [(t0.toNat % 32 == 0, causeMisalign, t0), (t0.toNat + 32 * h ≤ 65536, causeSpace, t0)]

/-- Scale checks (R181 check 8) for numbers of A and stationary elements (log 39, DEDUCED). -/
def scaleChecks (t : Strand) (fa na fb nb : Nat) : List (Bool × Nat × Word) :=
  [(scalesClear fa t.offA na, causeSpace, BitVec.ofNat 64 t.offA),
   (scalesClear fb t.offB nb, causeSpace, BitVec.ofNat 64 t.offB)]

/-- The scale bytes that a number of elements reads, as a local range. -/
def scaleRange (fmt off n : Nat) : List (Nat × Nat) :=
  if blockOf fmt = 0 ∨ n = 0 then [] else [(off, (n - 1) / blockOf fmt + 1)]

/-- A matrix or plane operation that has passed its checks (R63, R188): STALLED behind another operation, in the order of
the attempts, or while its scale bytes wait; else it begins, and its strand is PARKED until the end of clk t + T. Reads of
poisoned lines trap UNCORRECTED. -/
def mtxIssue (s : State) (p : Place) (t : Strand) (clk : Nat) (scales read : List (Nat × Nat))
    (f : Core → Strand → Core × List MtxRow × MtxInto) : State :=
  let x := s.core p.core
  let ahead := x.mtx.queue.filter fun k => (x.strand k).lack == .matrixUnit
  let mine := match ahead.head? with
    | none => true
    | some k => k == p.strand
  if x.mtx.busy.isSome || !mine then
    (s.modCore p.core fun y => { y with mtx := { y.mtx with
      queue := if ahead.contains p.strand then ahead else ahead ++ [p.strand] } }).stall p .matrixUnit
  else
    match scales.findSome? fun r => x.localWait (some p.strand) r.1 r.2 with
    | some l => s.stall p l
    | none =>
      match (read ++ scales).find? fun r => x.localPoisoned r.1 r.2 with
      | some r => s.uncorrected p (BitVec.ofNat 64 r.1)
      | none =>
        let r := f x t
        let op : MtxOp :=
          { strand := p.strand, endClk := s.now + clk, flags := 0, rows := r.2.1, got := [], into := r.2.2, spoilt := none }
        let y := { r.1 with mtx := { r.1.mtx with busy := some op, queue := r.1.mtx.queue.filter (· != p.strand) } }
        ((s.setCore p.core y).setStrand p { t with run := .parked, lack := .none, wait := .matrix }).after 1 .matrixOpComplete
          (.core p.core)

/-- A matrix instruction: its checks in order, registers resident, issue. -/
def mtxOp (s : State) (p : Place) (t : Strand) (needs : List (Nat × Bool)) (checks : List (Bool × Nat × Word))
    (clk : Nat) (scales read : List (Nat × Nat)) (f : Core → Strand → Core × List MtxRow × MtxInto) : State :=
  match firstFail checks with
  | some c => s.raise p c.1 c.2
  | none => s.withResident p t needs fun u => mtxIssue s p u clk scales read f

/-- The registers of a group. -/
def groupNeeds (r n : Nat) (dst : Bool) : List (Nat × Bool) := (List.range n).map fun j => (r + j, dst)

/-- A repeat field's count (R180). -/
def repOf (rep : BitVec 4) : Nat := rep.toNat + 1

/-- A tile as a local range. -/
def tileRange (t0 h : Nat) : List (Nat × Nat) := if h = 0 then [] else [(bufBase 3 + t0, 32 * h)]

/-- The checks that MMA, MOPA and MSLIDE share after check 1, and the ranges they touch and read. -/
def mulChecks (t : Strand) (i : Instr) (t0 : Word) (h na nb : Nat) (mma rows : Bool) (pl : Plane) :
    List (Bool × Nat × Word) :=
  let fa := t.task.fmta.toNat
  let fb := t.task.fmtb.toNat
  [(pairingOk fa fb t.task.fmtc.toNat, causeIllegal, wordOf i),
   (!mma || !pl.loaded || pl.pfmt.toNat == fb, causeIllegal, wordOf i),
   (!rows || (1 ≤ h && (!isRns fa || h ≤ 256)), causeIllegal, wordOf i)] ++
  (if isRns fa then [] else tileChecks t0 h ++ scaleChecks t fa na fb nb)

/-- The scale bytes that a multiplying operation reads, and its tile. -/
def mulScales (t : Strand) (na nb : Nat) : List (Nat × Nat) :=
  if isRns t.task.fmta.toNat then [] else scaleRange t.task.fmta.toNat t.offA na ++ scaleRange t.task.fmtb.toNat t.offB nb
def mulTile (t : Strand) (t0 : Word) (h : Nat) : List (Nat × Nat) :=
  if isRns t.task.fmta.toNat then [] else tileRange t0.toNat h

/-! ### The instructions -/

/-- MMA (R182). -/
def execMma (d : SReg) (a b : VReg) (rep : BitVec 4) (s : State) : Res :=
  needLanes s (.mma d a b rep) fun p t =>
    let n := repOf rep
    let pl := (s.core p.core).mtx.active
    let fa := t.task.fmta.toNat
    let fb := t.task.fmtb.toNat
    let wa := containerBits fa
    let kp := pl.depth fb
    let h := n * s.breg p * 8 / (kp * wa)
    mtxOp s p t (groupNeeds a.val n false ++ [srcReg b])
      ((a.val + n ≤ 64, causeIllegal, wordOf (.mma d a b rep)) ::
        mulChecks t (.mma d a b rep) (t.s d) h (h * kp) (8 * kp) true true pl)
      (h * (if fa = 0x10 then 2 else 1) + 4) (mulScales t (h * kp) (8 * kp)) (mulTile t (t.s d) h)
      fun x u =>
        let img := u.group (s.breg p) a.val n
        let z := toInt 32 (u.v b).toNat
        let sum : MtxSum := {
          fa := fa, h := h
          vals := fun i c => ((List.range kp).map fun k =>
            let va := (fmul (lessZero fa (container img wa (i * kp + k)) z) (scaleOf x fa u.offA (i * kp + k))).1
            (pl.column fb c k).map fun cb =>
              (va, (fmul (decContainer fb cb) (scaleOf x fb u.offB (c * kp + k))).1)).flatten
          residues := fun i c => ((List.range kp).map fun k =>
            (pl.column fb c k).map fun cb => (container img wa (i * kp + k), cb)).flatten }
        sum.start u.task.fmtc.toNat (u.s d).toNat x

/-- MOPA (R183). -/
def execMopa (d : SReg) (a b : VReg) (rep : BitVec 4) (s : State) : Res :=
  needLanes s (.mopa d a b rep) fun p t =>
    let n := repOf rep
    let fa := t.task.fmta.toNat
    let fb := t.task.fmtb.toNat
    let h := n * s.breg p * 8 / containerBits fa
    mtxOp s p t (srcReg a :: groupNeeds b.val n false)
      ((b.val + n ≤ 64, causeIllegal, wordOf (.mopa d a b rep)) ::
        mulChecks t (.mopa d a b rep) (t.s d) h h 8 false true .reset)
      (h + 4) (mulScales t h 8) (mulTile t (t.s d) h)
      fun x u =>
        let ys := u.group (s.breg p) b.val n
        let xs := (u.v a).toNat
        let y := fun j => container ys (containerBits fa) j
        let v := fun c => container xs (containerBits fb) c
        let sum : MtxSum := {
          fa := fa, h := h
          vals := fun j c => [scaledPair x fa u.offA j (y j) fb u.offB c (v c)]
          residues := fun j c => [(y j, v c)] }
        sum.start u.task.fmtc.toNat (u.s d).toNat x

/-- MSLIDE (R184): a container beyond the register's byte image is a free value (log 26, DESIGN CHOICE). -/
def execMslide (d : SReg) (a b : VReg) (rep : BitVec 4) (s : State) : Res :=
  needLanes s (.mslide d a b rep) fun p t =>
    let n := repOf rep
    let fa := t.task.fmta.toNat
    let fb := t.task.fmtb.toNat
    mtxOp { s with draws := s.draws + 1 } p t [srcReg a, srcReg b]
      (mulChecks t (.mslide d a b rep) (t.s d) 1 n (n + 7) false false .reset)
      (n + 4) (mulScales t n (n + 7)) (mulTile t (t.s d) 1)
      fun x u =>
        let wb := containerBits fb
        let y := fun j => container (u.v b).toNat (containerBits fa) j
        let v := fun c =>
          if wb * (c + 1) ≤ 8 * s.breg p then container (u.v a).toNat wb c
          else Config.beyondImage (32 * s.draws + c) % 2 ^ wb
        let sum : MtxSum := {
          fa := fa, h := 1
          vals := fun _ c => (List.range n).map fun q => scaledPair x fa u.offA q (y q) fb u.offB (c + q) (v (c + q))
          residues := fun _ c => (List.range n).map fun q => (y q, v (c + q)) }
        sum.start u.task.fmtc.toNat (u.s d).toNat x

/-- MRDC (R186). -/
def execMrdc (d : SReg) (a : VReg) (rep : BitVec 4) (s : State) : Res :=
  needLanes s (.mrdc d a rep) fun p t =>
    let n := repOf rep
    let breg := s.breg p
    let h := n * breg / 32
    mtxOp s p t (groupNeeds a.val n true)
      ((a.val + n ≤ 64, causeIllegal, wordOf (.mrdc d a rep)) :: tileChecks (t.s d) h)
      ((h + 1) / 2 + 2) [] (tileRange (t.s d).toNat h)
      fun x u => (x, (List.range h).map fun i => .read (outAt (u.s d).toNat i 0) 32, .regs a.val n breg)

/-- MZERO (R186). -/
def execMzero (d : SReg) (rep : BitVec 4) (s : State) : Res :=
  onStrand s fun p t =>
    let h := 16 * repOf rep
    mtxOp s p t [] (tileChecks (t.s d) h) (8 * repOf rep) [] []
      fun x u => (x, (List.range h).map fun i => .zero (outAt (u.s d).toNat i 0), .none)

/-- What one output of MDRAIN adds (R91): the latch's value, times its scales where the accumulator is FP32. -/
def drainAdd (fmt fmtc : Nat) (r : Nat × Nat × Nat) (sa sb : FVal) : Option (FVal × Bool) :=
  let v := ofScaled (rnsValue (rnsFmt fmt) r) 0
  if fmtc = 0 then some (v, false)
  else if sa = .nan ∨ sb = .nan then none
  else some (dotOf [((fmul v sa).1, sb)], anyNan [((fmul v sa).1, sb)])

/-- MDRAIN (R187). -/
def execMdrain (d : SReg) (rep : BitVec 4) (s : State) : Res :=
  onStrand s fun p t =>
    let h := 16 * repOf rep
    let fa := t.task.fmta.toNat
    let fb := t.task.fmtb.toNat
    let na := if fa = 0x1D then h * 16 - 15 else 0
    let nb := if fb = 0x1D then 8 * 16 - 15 else 0
    mtxOp s p t []
      ([(pairingOk fa fb t.task.fmtc.toNat, causeIllegal, wordOf (.mdrain d rep)),
        (isRns fa && isRns fb, causeIllegal, wordOf (.mdrain d rep))] ++
        tileChecks (t.s d) h ++ scaleChecks t fa na fb nb)
      (16 * repOf rep + 4) (scaleRange fa t.offA na ++ scaleRange fb t.offB nb) (tileRange (t.s d).toNat h)
      fun x u =>
        ({ x with mtx := { x.mtx with latches := mfilter (fun k _ => 8 * h ≤ k) x.mtx.latches } },
         (List.range h).map fun i => .add (outAt (u.s d).toNat i 0) u.task.fmtc.toNat ((List.range 8).map fun c =>
           drainAdd fa u.task.fmtc.toNat (mgetD x.mtx.latches (8 * i + c) (0, 0, 0))
             (scaleOf x fa u.offA (i * 16)) (scaleOf x fb u.offB (c * 16))),
         .none)

/-! ### Planes (R175 to R179) -/

/-- The shadow plane that an image gives (R176, R177). R176 does not say what the extension latch holds after a load of a format
other than E8M10: zeros (log 91, DESIGN CHOICE). -/
def planeOf (fb sparse : Nat) (b : List Byte) : Plane :=
  let n := leNat b
  let e8 := fun (w lo : Nat) => ((List.range 128).map fun j => bits n (32 * j + lo) w * 2 ^ (w * j)).sum
  if fb = 0x10 then
    { image := BitVec.ofNat 2048 (e8 16 16), ext := BitVec.ofNat 384 (e8 3 13), meta' := 0, loaded := true, sparse := 0,
      pfmt := BitVec.ofNat 5 fb }
  else
    { image := BitVec.ofNat 2048 n, ext := 0, meta' := BitVec.ofNat 2048 (n / 2 ^ 2048), loaded := true,
      sparse := BitVec.ofNat 2 sparse, pfmt := BitVec.ofNat 5 fb }

/-- A plane load of z bytes at W offset o (R176). -/
def planeLoad (s : State) (p : Place) (t : Strand) (o z clk sparse : Nat) : State :=
  mtxOp s p t []
    [(o % 64 == 0, causeMisalign, BitVec.ofNat 64 o), (o + z ≤ 98304, causeSpace, BitVec.ofNat 64 o)]
    clk [] [(o, z)]
    fun x u => (x, (List.range (z / 64)).map fun i => .read (o + 64 * i) 64, .plane u.task.fmtb.toNat sparse)

/-- MLDS (R176). -/
def execMlds (a : SReg) (s : State) : Res :=
  onStrand s fun p t =>
    let wide := t.task.fmtb.toNat = 0x10
    planeLoad s p t (t.s a).toNat (if wide then 512 else 256) (if wide then 8 else 4) 0

/-- MLDSS (R177). -/
def execMldss (a : SReg) (s : State) : Res :=
  onStrand s fun p t =>
    let fb := t.task.fmtb.toNat
    let code := bits (t.s a).toNat 32 2
    if code = 3 ∨ (containerBits fb ≠ 4 ∧ containerBits fb ≠ 8) then s.illegal p (.mldss a)
    else planeLoad s p t (bits (t.s a).toNat 0 32) (256 + 4 * kOf fb) (4 + kOf fb / 16) (code + 1)

/-- MSWAP (R179). -/
def execMswap (s : State) : Res :=
  onStrand s fun p t =>
    mtxOp s p t [] [] 1 [] [] fun x _ =>
      ({ x with mtx := { x.mtx with active := x.mtx.shadow, shadow := x.mtx.active } }, [], .none)

/-! ### The end of an operation (R188) -/

/-- What an operation that has landed all its events leaves in the core: a plane that it has loaded. -/
def MtxOp.finish (op : MtxOp) (x : Core) : Core :=
  let m := { x.mtx with busy := none }
  match op.into with
  | .plane fb sparse => { x with mtx := { m with shadow := planeOf fb sparse op.got } }
  | _ => { x with mtx := m }

/-- What it leaves in its strand: the registers that it has read, its flags, and an uncorrected error that is to be taken. -/
def MtxOp.finishStrand (op : MtxOp) (t : Strand) : Strand :=
  { t with
    vectors := match op.into with
      | .regs r n breg => (List.range n).foldl (fun (m : SMap VImage) j =>
          mset m (r + j) (imageOf ((op.got.drop (breg * j)).take breg))) t.vectors
      | _ => t.vectors
    vec := { t.vec with vflags := t.vec.vflags ||| op.flags }
    pendTrap := match op.spoilt with
      | some o => t.pendTrap ++ [(causeUncorrected, BitVec.ofNat 64 o)]
      | none => t.pendTrap }

end Sys2Proof.Machine
end

