-- ==== Sys2Proof/Machine/Group.lean ====
section
/-!
DEFINITION. Groups as a strand sees them (R334 to R339, R341, R343) and the group instructions (R231, R232).
-/

namespace Sys2Proof.Machine

/-- The kernel that runs on a core. -/
def State.kernelOf (s : State) (c : Nat) : Option Kernel := (s.core c).kern.bind fun k => mget s.kernels k

/-- A group of the kernel that runs on a core. -/
def State.groupOf (s : State) (c g : Nat) : Option Group := (s.kernelOf c).bind fun k => mget k.groups g

/-- The GSLOT slot of a strand that holds a group (R231). -/
def Strand.slotOf (t : Strand) (g : Nat) : Option Nat := (mfind (fun _ v => v == g) t.gslots).map (·.1)

/-- GINFO's view of a barrier (R341): ARRIVING, RELEASED or OPEN. -/
def Core.barrierView (x : Core) (g : Nat) : Nat :=
  if !(x.view g).arrived.isEmpty then 1 else if (x.view g).releasedSeen then 2 else 0

/-- The state of a group (R338): FORMED, DEPLETED once a member is unbound, REVOKED. -/
def State.groupState (s : State) (g : Group) : Nat :=
  if g.revoked then 3 else if g.members.any fun m => (s.strand m).run == .unbound then 2 else 1

/-- A packet sent to a group's root on the hidden group route of a slot (R339); a route failure reports register
16 + k. -/
def State.sendGroup (s : State) (p : Place) (t : Strand) (k : Nat) (kind : PKind) (waiting : Bool) : State :=
  s.sendAll p [oneReq (mgetD t.groupRoutes k 0) (16 + k) kind [] waiting]

/-- An instruction that names a group: the slot that holds it, or ILLEGAL (R231). -/
def groupOp (s : State) (i : Instr) (a : SReg) (f : Place → Strand → Nat → Nat → State) : Res :=
  onStrand s fun p t =>
    let g := bits (t.s a).toNat 0 8
    match t.slotOf g with
    | none => s.illegal p i
    | some k => f p t g k

/-- An arrival (R232, R343): ILLEGAL if the strand has arrived in this phase; otherwise the plot-scope release, then the
strand as the instruction leaves it, with its arrived bit, and the packet. -/
def State.arriveAt (s : State) (p : Place) (t : Strand) (i : Instr) (g k : Nat) (v : Option RedVal)
    (f : Strand → Strand) : State :=
  if mhas ((s.core p.core).view g).arrived p.strand then s.illegal p i
  else s.release p 2 fun s =>
    let phase := (s.core p.core).phaseOf g p.strand
    ((s.setStrand p (f t)).modCore p.core fun x => x.arrive g p.strand).sendGroup p t k (.arrive g phase (.one p v)) false

/-- GBAR (R231). -/
def execGbar (d a : SReg) (s : State) : Res :=
  groupOp s (.gbar d a) a fun p t g k =>
    s.arriveAt p t (.gbar d a) g k none fun t =>
      t.await s.now (.barrier g 0 (BitVec.ofNat 32 ((s.core p.core).phaseOf g p.strand))) d

/-- GARRIVE (R231). -/
def execGarrive (d a : SReg) (s : State) : Res :=
  groupOp s (.garrive d a) a fun p t g k =>
    s.arriveAt p t (.garrive d a) g k none fun t =>
      (t.setS d (BitVec.ofNat 64 ((s.core p.core).phaseOf g p.strand))).complete

/-- GWAIT (R231, R343): it completes at once when the local copy of the phase is past sB; otherwise one watch is sent. -/
def execGwait (d a b : SReg) (s : State) : Res :=
  groupOp s (.gwait d a b) a fun p t g k =>
    let phase := (s.core p.core).phaseOf g p.strand
    let since := (t.s b).setWidth 32
    if phasePast phase since then (s.complete p (t.setS d (BitVec.ofNat 64 phase))).acquireEffect p 2
    else (s.setStrand p (t.await s.now (.barrier g 1 since) d)).sendGroup p t k (.watch g p) true

/-- GRED (R231, R232). -/
def execGred (d a b : SReg) (s : State) : Res :=
  groupOp s (.gred d a b) a fun p t g k =>
    let op := bits (t.s a).toNat 8 3
    if 6 ≤ op then s.illegal p (.gred d a b)
    else s.arriveAt p t (.gred d a b) g k (some { op := op, value := (t.s b).setWidth 32 }) fun t =>
      t.await s.now (.barrier g 2 (BitVec.ofNat 32 ((s.core p.core).phaseOf g p.strand))) d

/-- GINFO (R231, R336). -/
def execGinfo (d a b : SReg) (s : State) : Res :=
  groupOp s (.ginfo d a b) a fun p t g _ =>
    let x := s.core p.core
    let v := match s.groupOf p.core g, bits (t.s b).toNat 0 2 with
      | some q, 0 => q.members.length
      | some q, 1 => q.members.findIdx (· == p)
      | some _, 2 => x.phaseOf g p.strand
      | some q, _ => s.groupState q + 16 * x.barrierView g
      | none, _ => 0
    s.complete p (t.setS d (BitVec.ofNat 64 v))

/-- The leave notices of a strand that is unbound while its kernel runs on (R344). -/
def State.sendLeaves (s : State) (p : Place) (t : Strand) : State :=
  t.gslots.foldl (fun s e =>
    match (s.groupOf p.core e.2).bind fun q => q.members.head? with
    | none => s
    | some root => s.sendFixed p.core p.strand root.core
        (.leave e.2 ((s.core p.core).phaseOf e.2 p.strand) p (mhas ((s.core p.core).view e.2).arrived p.strand))) s

end Sys2Proof.Machine
end

