-- ==== Sys2Proof/Machine/Task.lean ====
section
/-!
DEFINITION. Work packets and the task queue (R302 to R306), and the task instructions (R233 to R236).
-/

namespace Sys2Proof.Machine

/-! ### The work packet (R303) -/

abbrev WorkPacket := BitVec 512

def WorkPacket.entry (w : WorkPacket) : Nat := bits w.toNat 0 48
def WorkPacket.prio (w : WorkPacket) : Nat := bits w.toNat 48 2
def WorkPacket.scope (w : WorkPacket) : Nat := Nat.min 6 (bits w.toNat 50 3)
def WorkPacket.signal (w : WorkPacket) : Bool := bit w.toNat 53
def WorkPacket.pin (w : WorkPacket) : Bool := bit w.toNat 54
def WorkPacket.group (w : WorkPacket) : Nat := bits w.toNat 56 8
def WorkPacket.depv (w : WorkPacket) : Bool := bit w.toNat 79
def WorkPacket.depctr (w : WorkPacket) : Nat := bits w.toNat 116 12
def WorkPacket.arg (w : WorkPacket) (k : Nat) : Nat := bits w.toNat (128 + 64 * k) 64
def WorkPacket.taskid (w : WorkPacket) : Nat := bits w.toNat 448 32
def WorkPacket.grpv (w : WorkPacket) : Bool := bit w.toNat 480
def WorkPacket.arm (w : WorkPacket) : Nat := bits w.toNat 488 8

/-- A packet with n bits from lo on replaced. -/
def WorkPacket.put (w : WorkPacket) (lo n v : Nat) : WorkPacket :=
  BitVec.ofNat 512 (w.toNat - bits w.toNat lo n * 2 ^ lo + v % 2 ^ n * 2 ^ lo)

/-! ### The queue -/

/-- Whether a packet of the queue may be taken by a strand (R305). -/
def Strand.mayTake (t : Strand) (e : TaskEntry) : Bool :=
  e.state == .eligible && t.held.isNone &&
    (!WorkPacket.grpv e.packet || (t.slotOf (WorkPacket.group e.packet)).isSome)

/-- The packet that TAKE selects for a strand: lowest PRIO, then oldest STAMP, then lowest entry (R305). -/
def Core.select (x : Core) (t : Strand) : Option (Nat × TaskEntry) :=
  (sortBy (fun (e : Nat × TaskEntry) => (e.2.prio * 2 ^ 64 + e.2.stamp) * 64 + e.1)
    (x.queue.filter fun e => t.mayTake e.2)).head?

/-- The strand with a task's registers loaded (R234, R303). -/
def Strand.loadTask (t : Strand) (d : SReg) (e : TaskEntry) : Strand :=
  let w := e.packet
  let u := { t with
    task :=
      { fmta := BitVec.ofNat 5 (bits w.toNat 64 5), fmtb := BitVec.ofNat 5 (bits w.toNat 69 5),
        fmtc := BitVec.ofNat 5 (bits w.toNat 74 5), scla := BitVec.ofNat 18 (bits w.toNat 80 18),
        sclb := BitVec.ofNat 18 (bits w.toNat 98 18), taskid := BitVec.ofNat 32 (WorkPacket.taskid w),
        taskpri := BitVec.ofNat 2 e.prio }
    held := some { scope := WorkPacket.scope w, signal := WorkPacket.signal w } }
  let args := [0, 1, 2, 3, 4].foldl (fun (u : Strand) k => u.setS (Fin.ofNat 32 (10 + k)) (BitVec.ofNat 64 (WorkPacket.arg w k))) u
  args.setS d (BitVec.ofNat 64 (WorkPacket.entry w))

/-- Strands that wait in TAKE, in the order in which they began to wait, each given a packet that it may take (R305). -/
def State.serveTakers (s : State) (c : Nat) : State :=
  let ks := sortBy (fun (e : Nat × Strand) => e.2.waitFrom)
    ((s.core c).strands.filter fun e => e.2.run == .waiting && e.2.wait == .take)
  ks.foldl (fun s e =>
    let p : Place := { core := c, strand := e.1 }
    let x := s.core c
    match x.select e.2 with
    | none => s
    | some (n, q) =>
      ((s.modCore c fun x => { x with queue := mdel x.queue n }).setStrand p
        ((e.2.wake.loadTask e.2.waitReg q).complete)).acquireEffect p q.acquire) s

/-- Clk that a packet spends at a level before it rises (R306). -/
def agingClk : Nat := 750000

/-- The aging of a queue entry so many clk from now: at 0 still in this clk, after everything else that reaches the queue (R302, R306). -/
def State.ageIn (s : State) (n c entry : Nat) : State :=
  if n = 0 then s.later .taskAging (.item c entry) else s.after n .taskAging (.item c entry)

/-- A packet stored in a free entry of a core's queue (R302, R304): with DEPV = 1 it waits, and its arm is sent; otherwise
it is ELIGIBLE. An arm bears a number of its core, by which its answer finds the packet (R309). -/
def State.enqueue (s : State) (c entry : Nat) (w : WorkPacket) (acquire : Nat) : State :=
  let dep := WorkPacket.depv w
  let x := s.core c
  let e : TaskEntry :=
    { packet := w, prio := WorkPacket.prio w, stamp := s.cycle, state := if dep then .waiting else .eligible,
      acquire := acquire, arming := if dep then some x.arms else none, stores := x.drains + x.sb.length, dest := 0,
      sent := false }
  let s1 := (s.modCore c fun x => { x with queue := mset x.queue entry e, arms := if dep then x.arms + 1 else x.arms }).after agingClk .taskAging (.item c entry)
  if dep then s1.later .counterArm (.counter (dieOf c) (WorkPacket.depctr w) (WorkPacket.arm w) c x.arms)
  else s1.serveTakers c

/-- A dependence counter of a die; an unlisted one is held by no context (R307). -/
def Die.counter (x : Die) (n : Nat) : Counter := mgetD x.counters n { value := 0, owner := 0xFFFF }

/-- Whether a packet waits on a counter that a context does not hold (R304). -/
def State.foreignCounter (s : State) (c ctx : Nat) (w : WorkPacket) : Bool :=
  WorkPacket.depv w && ((s.die (dieOf c)).counter (WorkPacket.depctr w)).owner != ctx

/-! ### Instructions -/

/-- A TASK function: LOOP inside a loop body (R132, R233). -/
def taskOp (s : State) (i : Instr) (f : Place → Strand → State) : Res :=
  onStrand s fun p t => outsideBody s i p t (f p t)

/-- TAKE (R234). -/
def execTake (d : SReg) (s : State) : Res :=
  taskOp s (.take d) fun p t =>
    if t.held.isSome then s.illegal p (.take d)
    else
      match (s.core p.core).select t with
      | none => s.setStrand p (t.await s.now .take d)
      | some (n, e) =>
        ((s.modCore p.core fun x => { x with queue := mdel x.queue n }).complete p (t.loadTask d e)).acquireEffect p
          e.acquire

/-- The packet of 64 bytes at a G offset, for an instruction that reads it (R213). -/
def State.withPacket (s : State) (p : Place) (g : Word) (f : WorkPacket → List Byte → State) : State :=
  match s.fetchLocal p (0x38000 + g.toNat) 64 with
  | .wait l => s.stallFor p l
  | .poisoned o => s.uncorrected p (BitVec.ofNat 64 o)
  | .bytes b => f (BitVec.ofNat 512 (leNat b)) b

/-- POST (R304): a release at scope core. -/
def execPost (d a : SReg) (s : State) : Res :=
  taskOp s (.post d a) fun p t =>
    let g := t.s a
    match gCheck g 64 64 with
    | some c => s.raise p c g
    | none => s.withPacket p g fun w _ =>
        match mfree (s.core p.core).queue 64 with
        | none => s.complete p (t.setS d 0)
        | some n =>
          if s.foreignCounter p.core (s.ctxOf p) w then s.complete p (t.setS d 0)
          else s.release p 1 fun s => (s.complete p (t.setS d 1)).enqueue p.core n w 1

/-- POSTW (R234): a release at path scope at the sender (R254). -/
def execPostw (a : RReg) (b : SReg) (s : State) : Res :=
  taskOp s (.postw a b) fun p t =>
    let r := t.w a
    let g := t.s b
    match (checkHead r (s.ctxOf p) a.val rightS [0x06, 0x86]).or ((gCheck g 64 64).map fun c => (c, g)) with
    | some c => s.raise p c.1 c.2
    | none => s.withPacket p g fun w data =>
        match checkWindow r (unitOff r (WorkPacket.prio w)) 1 1 with
        | some c => s.raise p c.1 c.2
        | none => s.release p (pathScope r) fun s =>
            (s.complete p t).sendAll p [oneReq r a.val (.postw (WorkPacket.prio w)) data false]

/-- The counter that sA names: die and number (R234, R235). -/
def counterOf (v : Word) : Nat × Nat := (bits v.toNat 12 4, bits v.toNat 0 12)

/-- RETIRE (R234): the release at the task's SCOPE after every earlier store and posted operation, then the decrement
that SIGNAL asks for. -/
def execRetire (a : SReg) (s : State) : Res :=
  taskOp s (.retire a) fun p t =>
    match t.held with
    | none => s.illegal p (.retire a)
    | some h => s.release p (max 1 h.scope) fun s =>
        let s1 := s.complete p { t with held := none }
        let c := counterOf (t.s a)
        if h.signal then s1.later .counterSignal (.signal c.1 c.2 (s.ctxOf p) p false h.scope) else s1

/-- YIELD (R234): not ready for 32 clk. -/
def execYield (s : State) : Res :=
  taskOp s .yield fun p t =>
    (s.setStrand p { t.await s.now .yield 0 with yieldEnd := s.now + 32 }).after 32 .yieldExpiry (.place p)

/-- SLEEP (R234): a token that is set ends it at once; either way the token is cleared. -/
def execSleep (s : State) : Res :=
  taskOp s .sleep fun p t =>
    if t.wakeToken then s.complete p { t with wakeToken := false }
    else s.setStrand p (t.await s.now .sleep 0)

/-- A SLEEP of a strand ends (R234): the token is cleared and the instruction completes. -/
def Strand.endSleep (t : Strand) : Strand :=
  if t.run = .waiting ∧ t.wait = .sleep then { t.finish 0 with wakeToken := false } else t

/-- The wake token of a strand set (R234), which ends its SLEEP or WFEV. -/
def State.wakeStrand (s : State) (p : Place) : State :=
  if (s.strand p).run = .unbound then s
  else (s.modStrand p fun t => ({ t with wakeToken := true } : Strand).endSleep).stir p

/-- WAKE (R234). -/
def execWake (a : SReg) (s : State) : Res :=
  taskOp s (.wake a) fun p t =>
    (s.complete p t).wakeStrand { core := p.core, strand := bits (t.s a).toNat 0 3 }

/-- SIGNAL (R235): the release, then the station's decrement, whose answer completes the instruction. -/
def execSignal (d a : SReg) (s : State) : Res :=
  taskOp s (.signal d a) fun p t =>
    let scope := bits (t.s a).toNat 16 3
    let c := counterOf (t.s a)
    if scope = 7 then s.illegal p (.signal d a)
    else s.release p scope fun s =>
      (s.setStrand p (t.hold s.now .answer d)).later .counterSignal
        (.signal c.1 c.2 (s.ctxOf p) p true scope)

/-! ### The rendezvous of RECOAT (R236) -/

/-- The bound strands of a kernel's plot. -/
def State.boundOf (s : State) (k : Nat) : List Place :=
  (s.cores.map fun e => if e.2.kern = some k then
    (e.2.strands.filter fun t => t.2.run != .unbound).map fun t => ({ core := e.1, strand := t.1 } : Place) else []).flatten

/-- The rendezvous completes when every strand of the plot that is still bound waits there (R236): the kernel enters
RECOATING and its hand-over is due. -/
def State.checkRendezvous (s : State) (k : Nat) : State :=
  match mget s.kernels k with
  | none => s
  | some q =>
    let all := s.boundOf k
    if (q.state = .running ∨ q.state = .retiring) ∧ !q.rendezvous.isEmpty ∧
        all.all fun p => q.rendezvous.any fun r => r.1 == p then
      { s with kernels := mset s.kernels k { q with state := .recoating } }.later .recoatHandover (.kernel k)
    else s

/-- RECOAT (R236). -/
def execRecoat (a b : SReg) (s : State) : Res :=
  taskOp s (.recoat a b) fun p t =>
    if (t.s a).toNat % 256 ≠ 0 then s.raise p causeMisalign (t.s a)
    else
      let s1 := s.setStrand p (t.await s.now .recoat 0)
      match (s.core p.core).kern with
      | none => s1
      | some k =>
        match mget s.kernels k with
        | none => s1
        | some q =>
          let here := q.rendezvous
          let differs := (t.s b).toNat / 2 ^ 14 != 0 ||
            (match here.head? with
             | some r => r.2 != (t.s a, t.s b)
             | none => false)
          if differs then
            ((here.map (·.1)) ++ [p]).foldl (fun s r => s.raise r causeRecoatMismatch 0)
              { s with kernels := mset s.kernels k { q with rendezvous := [] } }
          else
            ({ s1 with kernels := mset s1.kernels k { q with rendezvous := here ++ [(p, t.s a, t.s b)] } }).checkRendezvous k

end Sys2Proof.Machine
end

