-- ==== Sys2Proof/Machine/Sys.lean ====
section
/-!
DEFINITION. The SYS family (R141 to R144): system calls, breakpoints, returns, the core barrier, the slot table, HALT. None
of them may stand in a loop body (R132).
-/

namespace Sys2Proof.Machine

/-- ECALL (R142). -/
def execEcall (s : State) : Res := onStrand s fun p t => outsideBody s .ecall p t (s.raise p causeEcall 0)
/-- BREAK (R142). -/
def execBrk (s : State) : Res := onStrand s fun p t => outsideBody s .brk p t (s.raise p causeBreak 0)
/-- TRAP (R141). -/
def execTrap (a : SReg) (s : State) : Res :=
  onStrand s fun p t => outsideBody s (.trap a) p t (s.raise p causeTrap (t.s a))

/-- ERET (R74). -/
def execEret (s : State) : Res := needSup s .eret fun p t => outsideBody s .eret p t (s.setStrand p t.leaveTrap)

/-- UIRET (R73): ILLEGAL outside a handler, and at supervisor privilege (R142). -/
def execUiret (s : State) : Res :=
  onStrand s fun p t => outsideBody s .uiret p t
    (if t.inUi && !t.trap.priv then s.setStrand p t.leaveUi else s.illegal p .uiret)

/-- Whether every bound strand of a core waits at the core barrier and no operation is outstanding (R62). -/
def Core.barrierMet (x : Core) : Bool :=
  !x.barWaiting.isEmpty && !x.quiescent && x.idle &&
    x.strands.all fun e => e.2.run == .unbound || mhas x.barWaiting e.1

/-- WFI (R62): the leader's second WFI resumes every waiting strand. -/
def execWfi (s : State) : Res :=
  needSup s .wfi fun p t => outsideBody s .wfi p t <|
    let x := s.core p.core
    if x.quiescent && mhas x.barWaiting p.strand then
      (s.complete p t).modCore p.core fun y => { y with
        barWaiting := []
        quiescent := false
        strands := mmap (fun _ u => if u.run = .waiting ∧ u.wait = .coreBarrier then u.finish 0 else u) y.strands }
    else
      let s1 := (s.setStrand p (t.await s.now .coreBarrier 0)).modCore p.core fun y => { y with
        barWaiting := mset y.barWaiting p.strand () }
      if (s1.core p.core).barrierMet then s1.later .coreBarrierQuiescent (.core p.core) else s1

/-- SLOTW (R143): only while the core is quiescent, or ILLEGAL with BARQ (R61). -/
def execSlotw (a b : SReg) (s : State) : Res :=
  needSup s (.slotw a b) fun p t => outsideBody s (.slotw a b) p t <|
    let x := s.core p.core
    if x.quiet then (s.complete p t).modCore p.core fun y => { y with slot0 := t.s a, slot1 := t.s b }
    else s.raise p causeIllegal x.barq

/-- A strand of a running kernel ends (R144, R320, R344): leave notices go out, its place is UNBOUND, the kernel is RETIRING,
a rendezvous may complete, and the last strand's end starts the drain. -/
def State.endStrand (s : State) (p : Place) : State :=
  let s1 := (s.sendLeaves p (s.strand p)).modCore p.core fun x => x.unbind p.strand
  match (s.core p.core).kern with
  | none => s1
  | some k =>
    match mget s1.kernels k with
    | none => s1
    | some q =>
      let s2 := if q.state = .running then { s1 with kernels := mset s1.kernels k { q with state := .retiring } } else s1
      if (s2.boundOf k).isEmpty then s2.later .kernelRetire (.kernel k) else s2.checkRendezvous k

/-- HALT (R144): it waits for the strand's stores to leave the store buffer. -/
def execHalt (s : State) : Res :=
  onStrand s fun p t => outsideBody s .halt p t
    (if (s.core p.core).sbOf p.strand then s.stall p .bufferStrand else s.endStrand p)

end Sys2Proof.Machine
end

