-- ==== Sys2Proof/Machine/Wake.lean ====
section
/-!
DEFINITION. Steps that end a wait of a strand or are taken for it at a boundary: resources, fills and drains, the core
barrier, timers, user interrupts, asynchronous traps and the limits of waits (R35, R42, R56, R62, R72, R76, R78, R118, R126,
R188, R248, R345, R386).
-/

namespace Sys2Proof.Machine

/-! ### Operands of steps -/

/-- A step for the strand at a place. -/
def onPlace (s : State) (f : Place → Strand → State) : Res :=
  match s.given with
  | .place p => .next (f p (s.strand p))
  | _ => .fault .stepOperands

/-- A step for a core. -/
def onCore (s : State) (f : Nat → Core → State) : Res :=
  match s.given with
  | .core c => .next (f c (s.core c))
  | _ => .fault .stepOperands

/-- A step for an item of a core or die. -/
def onItem (s : State) (f : Nat → Nat → State) : Res :=
  match s.given with
  | .item c i => .next (f c i)
  | _ => .fault .stepOperands

/-! ### Resources -/

/-- Whether a resource that a STALLED strand lacks is there now (R56). -/
def State.lackMet (s : State) (p : Place) : Lack → Bool
  | .none => false
  | .line _ => false
  | .translation _ _ => false
  | .loft => false
  | .service va kind =>
    !s.attached p &&
      (match (s.translate p.core va kind).2 with
       | .ok _ => true
       | .error x =>
         match x.service va with
         | none => true
         | some (_, page) =>
           ((s.die (dieOf p.core)).services.filter fun r => r.station == page / 32768 % 16).length < 64)
  | .bufferSpace => (s.core p.core).sb.length < 16
  | .bufferBytes pa n => !(s.core p.core).sb.any fun e => e.overlaps pa n
  | .bufferStrand => !(s.core p.core).sbOf p.strand
  | .bay b => !(s.core p.core).lockedAgainst (some p.strand) b
  | .pendingLine l => !mhas (s.core p.core).pend l
  | .scrub b => !mhas (s.core p.core).scrub b
  | .matrixUnit =>
    let x := s.core p.core
    x.mtx.busy.isNone && (x.mtx.queue.find? fun k => (x.strand k).lack == .matrixUnit) == some p.strand
  | .acks => !(s.core p.core).ni.out.any fun e => e.2.ofStrand p.strand
  | .copies => !(s.core p.core).copies.any fun e => e.2.active && e.2.strand == p.strand
  | .ownedLine n => !mhas s.owned n
  | .path pa => s.memoryOpen p.core pa
  | .copySlot => (List.range 4).any fun k => !((mget (s.core p.core).copies k).map CopySlot.active).getD false
  | .unitPlace => true

/-- Whether a user interrupt ends the wait of a strand (R72). -/
def Strand.interruptible (t : Strand) : Bool :=
  t.run == .waiting && t.interruptDue &&
    (match t.wait with
     | .sleep | .fe .. | .ring .. | .copy _ | .recv _ | .take => true
     | _ => false)

/-- LOFT_MOVES_COMPLETE (R35): the strand is ready to issue again. -/
def execLoftMovesComplete (s : State) : Res :=
  onPlace s fun p t => if t.run = .stalled ∧ t.lack = .loft then s.setStrand p t.wake else s

/-- Whether a strand's full/empty wait is over once a lock of its bay is (R77, R238). -/
def State.feFreed (s : State) (p : Place) (t : Strand) : Bool :=
  match t.run, t.wait with
  | .waiting, .fe off _ _ => (s.core p.core).feDue p.strand off
  | _, _ => false

/-- RESOURCE_AVAILABLE (R56): a STALLED strand whose resource is there is READY; one that stalled for the matrix unit
keeps its place in the order of attempts (R63); the waiters of a full/empty word whose bay is unlocked are served (R77). -/
def execResourceAvailable (s : State) : Res :=
  onPlace s fun p t =>
    match s.feFreed p t, t.wait with
    | true, .fe off _ _ => s.feEvent p.core off
    | _, _ =>
    if t.run = .stalled ∧ t.wait = .none ∧ s.lackMet p t.lack then
      s.setStrand p (if t.lack = .matrixUnit then { t with run := .ready } else t.wake)
    else s

/-- Lines of a core's data cache (R22: 16 KiB). -/
def dcacheLines : Nat := 256

/-- A line put into a core's data cache, which gives up one of its lines when it is full (log 11, DESIGN CHOICE). -/
def Core.fillLine (x : Core) (n choice : Nat) : Core :=
  let room := if x.dcache.length < dcacheLines then x.dcache else x.dcache.eraseIdx (choice % x.dcache.length)
  { x with dcache := mset (if mhas x.dcache n then x.dcache else room) n () }

/-- LOAD_MISS_FILL (R118): the line is in the data cache, and every strand of the core that lacks it is READY. -/
def execLoadMissFill (s : State) : Res :=
  match s.given with
  | .line c k n =>
    if !s.memoryOpen c (64 * n) then .next (s.after 1 .loadMissFill (.line c k n)) else
    let s1 := { s with draws := s.draws + 1 }.modCore c fun x => x.fillLine n (Config.dcacheVictim s.draws)
    .next (s1.modCore c fun x => { x with
      strands := mmap (fun _ t => if t.run = .stalled ∧ t.lack = .line n then t.wake else t) x.strands })
  | _ => .fault .stepOperands

/-- STORE_BUFFER_DRAIN (R126): the oldest entry drains; it waits while a copy engine owns its line (R257). -/
def execStoreBufferDrain (s : State) : Res :=
  onCore s fun c x =>
    match x.sb with
    | [] => s
    | e :: _ => if mhas s.owned (e.pa / 64) || !s.memoryOpen c e.pa then s.after 1 .storeBufferDrain (.core c) else s.drainOne c

/-- GRANARY_WRITEBACK (R248). -/
def execGranaryWriteback (s : State) : Res := onItem s fun d line => s.evictDieLine d line

/-! ### The core barrier and the matrix unit -/

/-- CORE_BARRIER_QUIESCENT (R62): QUIESCENT is set and the lowest-numbered bound strand resumes alone, as leader. -/
def execCoreBarrierQuiescent (s : State) : Res :=
  onCore s fun c x =>
    if !x.barrierMet then s
    else
      match x.strands.find? fun e => e.2.run != .unbound with
      | none => s
      | some (k, t) => s.modCore c fun y => { (y.setStrand k (t.finish 0)) with quiescent := true }

/-- An operation ended (R63, R188): what it read is put in place, the flags are set and the strand is READY, its instruction
complete. -/
def State.endMatrix (s : State) (c : Nat) (op : MtxOp) : State :=
  let p : Place := { core := c, strand := op.strand }
  let s1 := s.modCore c op.finish
  let t := s1.strand p
  if t.run = .parked ∧ t.wait = .matrix then s1.setStrand p (op.finishStrand t.wake).complete else s1

/-- MATRIX_OP_COMPLETE (R176, R185, R188): in each clk of an operation as many of its events land as the free value says, at its last
one all that are left, and with the last event it ends. An event that waits makes the operation longer (log 27, DEDUCED). -/
def execMatrixOpComplete (s : State) : Res :=
  onCore s fun c x =>
    match x.mtx.busy with
    | none => s
    | some op =>
      let n := op.rows.length
      let y := x.landRows (if s.now < op.endClk then Config.pick s.draws % (n + 1) else n)
      let s1 := ({ s with draws := s.draws + 1 } : State).setCore c y
      match y.mtx.busy with
      | some q =>
        if op.endClk ≤ s.now ∧ q.rows = [] then s1.endMatrix c q else s1.after 1 .matrixOpComplete (.core c)
      | none => s1

/-! ### Timers and user interrupts -/

/-- TIMECMP_MATCH (R42): UIP.TIMER is set. -/
def execTimecmpMatch (s : State) : Res := onPlace s fun p _ => s.setUip p uipTimer

/-- YIELD_EXPIRY (R234). -/
def execYieldExpiry (s : State) : Res :=
  onPlace s fun p t =>
    if t.run = .waiting ∧ t.wait = .yield ∧ t.yieldEnd ≤ s.now then s.setStrand p (t.finish 0) else s

/-- USER_INTERRUPT_ENTRY (R72, R73): a SLEEP ends and completes; any other wait that an interrupt ends is left, to be
executed in full again. -/
def execUserInterruptEntry (s : State) : Res :=
  onPlace s fun p t =>
    if t.run = .ready ∧ t.interruptDue then s.setStrand p t.enterUi
    else if t.interruptible then s.setStrand p t.endSleep.enterUi
    else s

/-! ### Asynchronous traps -/

/-- The first pending trap of a strand taken from its list, with its value. -/
def Strand.takePending (t : Strand) : Option (Strand × Nat × Word) :=
  match t.pendTrap with
  | [] => none
  | (c, v) :: r => some ({ t with pendTrap := r }, c, v)

/-- ENGINE_TRAP (R202): the failed command's strand takes the trap at its next boundary. -/
def execEngineTrap (s : State) : Res :=
  onPlace s fun p t =>
    match t.takePending with
    | none => s
    | some (u, _, v) => (s.setStrand p u).raise p causeEngine v

/-- The line that an uncorrected error has hit (R373), by one of its addresses, a local offset or one of device memory: every
byte of it is marked, and a read of the line traps until each has been overwritten (log 47, DEDUCED). -/
def State.spoil (s : State) (c : Nat) (isLocal : Bool) (a : Nat) : State :=
  let mark := fun (m : NSet) => (List.range 64).foldl (fun (m : NSet) i => mset m (64 * (a / 64) + i) ()) m
  if isLocal then s.modCore c fun x => { x with bad := mark x.bad }
  else { s with poisoned := mark s.poisoned }

/-- UNCORRECTED_TRAP (R76, R373): an uncorrected error, which marks its line and poisons the context of the core, or a
pending one that a strand takes. An error of a die that its ECC corrects is counted and logged, and nothing else follows (R400). -/
def execUncorrectedTrap (s : State) : Res :=
  match s.given with
  | .error p isLocal a =>
    let s1 := s.spoil p.core isLocal a
    .next (if (s1.strand p).run = .unbound then
        s1.poisonContext (s1.core p.core).owner.id p (BitVec.ofNat 64 a)
      else s1.uncorrected p (BitVec.ofNat 64 a))
  | .corrected d what =>
    .next { s.modDie d fun x => { x with corrected := x.corrected + 1 } with errors := s.errors ++ [(2 ^ 32 + what, d)] }
  | .place p =>
    .next (match (s.strand p).takePending with
      | none => s
      | some (u, _, v) => (s.setStrand p u).uncorrected p v)
  | _ => .fault .stepOperands

/-- The bays that a strand holds, as a mask. -/
def Core.heldBays (x : Core) (k : Nat) : Nat := ((x.locks.filter fun e => e.2 == k).map fun e => 2 ^ e.1).sum

/-- LOCK_WATCHDOG (R78, R320): the strand's bits are cleared and the kernel is FAULTED with the bays it held (log 64, DEDUCED). -/
def execLockWatchdog (s : State) : Res :=
  onPlace s fun p _ =>
    let x := s.core p.core
    let bays := x.heldBays p.strand
    let late := match mget x.lockFrom p.strand with
      | some n => n + 4096 ≤ s.now
      | none => false
    if !late || bays = 0 then s
    else
      let s1 := s.modCore p.core fun y => { y with
        locks := mfilter (fun _ h => h != p.strand) y.locks, lockFrom := mdel y.lockFrom p.strand }
      match x.kern with
      | some k => s1.faultKernel k p causeLockWatchdog (BitVec.ofNat 64 bays)
      | none => s1.raise p causeLockWatchdog (BitVec.ofNat 64 bays)

/-! ### Limits (R386) -/

/-- FEWAIT_LIMIT (R192, R204, R227, R234, R238, R241, R386). -/
def execFewaitLimit (s : State) : Res :=
  onPlace s fun p t =>
    if t.run ≠ .waiting then s
    else match t.wait with
      | .fe off _ _ => s.raise p causeFeWait (BitVec.ofNat 64 off)
      | .ring g filled _ =>
        s.setStrand p (t.finish (BitVec.ofNat 64 (((s.core p.core).ring g).waitCount filled)))
      | .copy mask => (s.acquireDone p mask).setStrand p (t.finish (BitVec.ofNat 64 ((s.core p.core).doneMask mask)))
      | .recv _ | .take => s.setStrand p (t.finish 0)
      | .sleep => s.setStrand p t.endSleep
      | .wfev _ => s.stir p
      | _ => s

/-- A strand leaves the rendezvous of its plot (R236). -/
def State.leaveRendezvous (s : State) (p : Place) : State :=
  match (s.core p.core).kern with
  | none => s
  | some k =>
    match mget s.kernels k with
    | none => s
    | some q => { s with kernels := mset s.kernels k { q with rendezvous := q.rendezvous.filter fun r => r.1 != p } }

/-- Whether the kernel of a core is RECOATING: none of its strands issues again (R236). -/
def State.recoating (s : State) (c : Nat) : Bool :=
  (((s.core c).kern.bind fun k => mget s.kernels k).map fun q => q.state == .recoating).getD false

/-- BARWAIT_LIMIT (R236, R345): a withdrawal goes to the group's root and the strand stays WAITING; at the rendezvous of
RECOAT the strand leaves it and traps (log 65, DEDUCED). -/
def execBarwaitLimit (s : State) : Res :=
  onPlace s fun p t =>
    if t.run ≠ .waiting ∨ t.limited then s
    else match t.wait with
      | .barrier g kind _ =>
        let u := { t with limited := true }
        (s.setStrand p u).sendGroup p u ((t.slotOf g).getD 0) (.withdraw g p (kind == 1)) true
      | .recoat => if s.recoating p.core then s else (s.leaveRendezvous p).raise p causeBarWait 0x100
      | _ => s

end Sys2Proof.Machine
end

