-- ==== Sys2Proof/Machine/CopyEv.lean ====
section
/-!
DEFINITION. The steps of the copy engine (R191, R198, R200 to R206, R257 to R259): a command starts, moves a line, completes,
fails, and a CPYCAN completes.
-/

namespace Sys2Proof.Machine

/-- COPY_START (R201). -/
def execCopyStart (s : State) : Res :=
  onItem s fun c k =>
    match mget (s.core c).copies k with
    | none => s
    | some q => if (s.core c).canStart q then s.startCopy c k else s

/-! ### One unit -/

/-- A command waits for a page service of its next access (R200, R355). -/
def State.copyFault (s : State) (c k u : Nat) (x : Xlat) (va : Nat) (write : Bool) : State :=
  let w := copyWaiter c k
  let s1 := s.openService (dieOf c) (s.core c).owner.id x va write (some w)
  if s1.attached w then s1 else s1.retryLine c k u

/-- A unit is written: its line is let go, and the next is due (R200). -/
def State.unitWritten (s : State) (c k u : Nat) : State :=
  let s1 := s.modCopy c k fun q => { q with todo := q.todo.filter (· != u) }
  match mget (s1.core c).copies k with
  | none => s1
  | some q => if q.todo.isEmpty then s1.stirCopies c else s1.nextLine c k

/-- The bytes of a unit written to a local buffer (R200): the line's pending bit of this command clears. -/
def State.writeLocalUnit (s : State) (c k u space : Nat) (l : List (Int × Byte)) : State :=
  let off := bufBase space + 64 * u
  let x := s.core c
  if x.lockedAgainst none (bayOf off) || mhas x.scrub (bayOf off) then s.retryLine c k u
  else
    (s.modCore c fun x =>
      let y := l.foldl (fun (y : Core) (e : Int × Byte) => y.writeLocalByte (bufBase space + e.1.toNat) e.2) x
      let m := mgetD y.pend (lineOf off) 0
      { y with pend := mput 0 y.pend (lineOf off) (if bit m k then m - 2 ^ k else m) }).unitWritten c k u

/-- The bytes of a unit written to device memory (R200, R248, R257): the command lets its line go. A poisoned line that the walk meets
ends it with reason 4 (log 103, DEDUCED). -/
def State.writeDeviceUnit (s : State) (c k u : Nat) (l : List (Int × Byte)) : State :=
  let r := s.translate c (64 * u) 1
  match r.2 with
  | .error (.spoilt _) => r.1.failCopy c k 4
  | .error x => if x.satisfiable then r.1.copyFault c k u x (64 * u) true else r.1.failCopy c k 1
  | .ok e =>
    let line := e.pa (64 * u) / 64
    if !r.1.memoryOpen c (64 * line) then r.1.retryLine c k u
    else if (mgetD r.1.owned line []).head?.getD (c, k) ≠ (c, k) then r.1.nextLine c k
    else
      let s1 := l.foldl (fun (s : State) (b : Int × Byte) =>
        s.physWrite (dieOf c) c e.key e.gen (e.pa b.1.toNat) [b.2]) r.1
      ({ s1 with owned := disown s1.owned line (c, k) }).unitWritten c k u

/-- The bytes of a unit sent over the command's route (R203, R221): chunk j goes on the j-th member. -/
def State.sendUnit (s : State) (c k u : Nat) (q : CopySlot) (l : List (Int × Byte)) : State :=
  let j := (q.runs.getD u (0, [])).1 / 256
  let ms := q.members
  let m := ms.getD (j % ms.length) (0, 0)
  let ordered := 2 ≤ ms.length && ms.all fun e => wOrdered e.2
  let req := { oneReq m.2 m.1 (.cpy (l.map fun e => (e.1 % 2 ^ 64).toNat) k u) (l.map (·.2)) false with
    chunk := j, ordered := ordered, members := ms }
  let s1 := s.modCopy c k fun q => { q with todo := q.todo.filter (· != u), sent := q.sent ++ [u] }
  (s1.sendReq { core := c, strand := q.strand } q.op req).nextLine c k

/-- COPY_LINE_WRITE (R200): one unit of a RUNNING command is read and written. -/
def execCopyLineWrite (s : State) : Res :=
  match s.given with
  | .line c k u =>
    .next (match mget (s.core c).copies k with
      | none => s
      | some q =>
        if q.state != .running || !q.todo.contains u || q.failing != 0 || !q.cancelBy.isEmpty then s
        else
          let sp := (s.core c).copySpaces q.desc
          if q.reachesLoft sp u then s.failCopy c k 2
          else
          let r := s.copyBytes c sp.1 (q.unitBytes u)
          match r.2 with
          | .error .busy => r.1.retryLine c k u
          | .error (.page x va) => r.1.copyFault c k u x va false
          | .error (.fails n) => r.1.failCopy c k n
          | .ok l =>
            if q.isRoute then r.1.sendUnit c k u q l
            else if sp.2 = 0 then r.1.writeDeviceUnit c k u l
            else r.1.writeLocalUnit c k u sp.2 l)
  | _ => .fault .stepOperands

/-! ### Ends -/

/-- A ring advanced by a completing command (R201): one slot consumed of its source, or produced in its destination (log 54, DESIGN CHOICE). -/
def State.advanceRing (s : State) (c : Nat) (g : Option Nat) (asSource : Bool) : State :=
  match g with
  | none => s
  | some g =>
    let r := (s.core c).ring g
    if r.slot = 0 ∨ r.waitCount asSource = 0 then s
    else s.setRing c g (if asSource then r.consume 1 else r.produce 1)

/-- What a command that has ended reports to its strand (R71, R196, R202): a failure is an ENGINE trap, unless QUIET is 1, or is recorded
with the kernel when the strand is unbound; NOTIFY asks for UIP.CPYDONE. -/
def State.tellStrand (s : State) (r : CopyReport) : State :=
  let s1 :=
    if r.reason = 0 then s
    else if (s.strand r.place).run = .unbound then
      (match (s.core r.place.core).kern.bind fun n => (mget s.kernels n).map fun q => (n, q) with
       | some (n, q) => if q.copyFail = 0 then { s with kernels := mset s.kernels n { q with copyFail := r.reason } } else s
       | none => s)
    else if r.quiet then s
    else s.modStrand r.place fun t => { t with pendTrap := t.pendTrap ++ [(causeEngine, BitVec.ofNat 64 (r.slot + 16 * r.reason))] }
  if r.notice then s1.setUip r.place uipCpydone else s1

/-- A command's report: to its strand, or, once a recoat has decided which commands go on, to the successor's strand, for which it is
kept (R330). -/
def State.report (s : State) (c k : Nat) (q : CopySlot) (reason : Nat) : State :=
  let r : CopyReport :=
    { place := { core := c, strand := q.strand }, slot := k, reason := reason, quiet := q.desc.quiet, notice := q.desc.notify }
  match (s.core c).kern.bind fun n => (mget s.kernels n).map fun q => (n, q) with
  | some (n, kn) =>
    if kn.state = .recoating ∧ kn.successor.isSome then { s with kernels := mset s.kernels n { kn with reports := kn.reports ++ [r] } }
    else s.tellStrand r
  | none => s.tellStrand r

/-- COPY_DONE (R198, R201, R206): the release at SCOPE, the rings' advance, then DONE. -/
def execCopyDone (s : State) : Res :=
  onItem s fun c k =>
    match mget (s.core c).copies k with
    | none => s
    | some q =>
      if !(s.core c).canFinish q then s
      else
        let p : Place := { core := c, strand := q.strand }
        let s1 := (s.releaseEffect p q.desc.scope).dropLines c k
        let s2 := (s1.advanceRing c q.desc.sring true).advanceRing c q.desc.dring false
        ((s2.modCopy c k fun q => { q with state := .done }).report c k q 0).copyChanged c

/-- COPY_FAIL (R202, R191): the slot is FAILED; the strand's ENGINE trap is pending unless QUIET is 1, or the failure is
recorded with the kernel when the strand is unbound; reason 4 poisons the context (log 56, DEDUCED), and its kernel's record has TVAL 0
(log 92, DESIGN CHOICE). -/
def execCopyFail (s : State) : Res :=
  onItem s fun c k =>
    match mget (s.core c).copies k with
    | none => s
    | some q =>
      if !q.active || q.failing = 0 || !q.sent.isEmpty then s
      else
        let p : Place := { core := c, strand := q.strand }
        let s1 := (s.modCopy c k fun q => { q with state := .failed, reason := q.failing }).dropLines c k
        let s3 := (s1.report c k q q.failing).copyChanged c
        if q.failing = 4 then s3.poisonContext (s3.core c).owner.id p 0 else s3

/-- CPYCAN_COMPLETE (R205): every slot that the strand's CPYCAN cancelled has become CANCELLED, and it completes with their mask. -/
def execCpycanComplete (s : State) : Res :=
  onPlace s fun p t =>
    match t.run, t.wait with
    | .stalled, .cancel mask =>
      if (List.range 4).any fun i => bit mask i &&
          ((mget (s.core p.core).copies i).map fun q => q.active && q.cancelBy.contains p.strand) == some true then s
      else s.setStrand p (t.finish (BitVec.ofNat 64 mask))
    | _, _ => s

end Sys2Proof.Machine
end

