-- ==== Sys2Proof/Machine/PageEv.lean ====
section
/-!
DEFINITION. Page steps: the walker's answer (R354), accesses of units through a translation (R324), the page service in hardware and
with the host (R356 to R359), page maintenance (R360 to R362), and shootdowns (R363).
-/

namespace Sys2Proof.Machine

/-! ### The walk (R354, R355) -/

/-- TRANSLATION_WALK: a strand that waits for the walk is READY with the translation, attached to a page service, or READY
to trap. The request and its answer need their way to the station of the page (R283, R286). -/
def execTranslationWalk (s : State) : Res :=
  match s.given with
  | .walk p va kind =>
    .next (
      let t := s.strand p
      if t.run ≠ .stalled ∨ t.lack ≠ .translation va kind then s
      else if !s.stationOpen p.core (dieOf p.core) (va / 32768 % 16) then s.after 1 .translationWalk s.given
      else
        let r := s.translate p.core va kind
        match r.2 with
        | .ok _ => r.1.setStrand p t.wake
        | .error x =>
          match x with
          | .spoilt pa => r.1.uncorrected p (BitVec.ofNat 64 pa)
          | _ =>
          if x.satisfiable then
            (r.1.openService (dieOf p.core) (s.core p.core).owner.id x va (storesKind kind) (some p)).stall p (.service va kind)
          else r.1.setStrand p { t.wake with walked := some (va, kind) })
  | _ => .fault .stepOperands

/-! ### Closing a service (R356) -/

/-- Waiters with a strand number from here on are units of the core's die: from 32 the host queue interfaces, 48 the
launcher, from 64 the writers of the kernels' completion records. -/
def unitBase : Nat := 32

/-- A waiter of a page's service that has ended well executes again; one of a service that failed takes the fault. -/
def State.freeWaiter (s : State) (page : Nat) (ok : Bool) (w : Place) : State :=
  if unitBase ≤ w.strand then
    (if ok then s else s.modDie (dieOf w.core) fun x => { x with lost := (w, page) :: x.lost })
  else if 16 ≤ w.strand then
    (if ok then s.nextLine w.core (w.strand - 16) else s.failCopy w.core (w.strand - 16) 1)
  else
    let t := s.strand w
    let go := fun (va kind : Nat) => s.setStrand w (if ok then t.wake else { t.wake with walked := some (va, kind) })
    match t.run, t.lack, t.wait with
    | .stalled, .service va kind, _ => go va kind
    | .parked, _, .page va kind => go va kind
    | _, _, _ => s

/-- The service record of a page and kind. -/
def Die.service (x : Die) (ctx va : Nat) (kind : ServiceKind) : Option Service :=
  x.services.find? fun r => r.ctx == ctx && r.va == va && r.kind == kind

/-- What a unit of a die has been told of failed services is forgotten as its work ends. -/
def State.forgetUnit (s : State) (d : Nat) (who : Place) : State :=
  if (s.die d).lost.isEmpty then s else s.modDie d fun x => { x with lost := x.lost.filter fun e => e.1 != who }

/-- The number of a service's kind. -/
def ServiceKind.code : ServiceKind → Nat
  | .cow => 0
  | .faultIn => 1
  | .scrub => 2
  | .system => 3

/-- The units of a die by which page services, evictions and skims wait for others, by kind, context and page. -/
def serviceUnit (d ctx va kind : Nat) : Place := { core := managerBase + d, strand := 2 ^ 32 + kind + 4 * (ctx + 2 ^ 16 * va) }

/-- A service record closed: its page is no longer BUSY, and every waiter goes on (R356); copy commands take the destination lines
that translate now (R257). -/
def State.closeService (s : State) (d ctx va : Nat) (kind : ServiceKind) (ok : Bool) : State :=
  match (s.die d).service ctx va kind with
  | none => s
  | some r =>
    let s1 := s.modDie d fun x => { x with services := x.services.filter (· != r) }
    let s2 := if r.kind = .system then s1 else s1.setBusy d ctx va false
    ((r.waiters.foldl (fun s w => s.freeWaiter va ok w) s2).forgetUnit d (serviceUnit d ctx va kind.code)).retakeLines ctx true

/-! ### Accesses of units (R324, R357, R359) -/

/-- What a unit's access gives: a value, a wait for the page service, or a fault that it cannot satisfy. -/
inductive Got (α : Type) where
  | ok (a : α)
  | wait
  | fail
  deriving DecidableEq, Repr

/-- An access that goes on with what the one before it gave. -/
def andThen {α β : Type} (r : State × Got α) (f : State → α → State × Got β) : State × Got β :=
  match r with
  | (s, .ok a) => f s a
  | (s, .wait) => (s, .wait)
  | (s, .fail) => (s, .fail)

/-- A unit's access that a fault ends: one that its page's service has failed to serve, or cannot, fails; another is served first. -/
def State.unitFault (s : State) (d ctx : Nat) (x : Xlat) (va : Nat) (write : Bool) (who : Place) {α : Type} : State × Got α :=
  match x.service va with
  | none => (s, .fail)
  | some (_, page) =>
    if (s.die d).lost.contains (who, page) then (s.modDie d fun x => { x with lost := x.lost.filter (· != (who, page)) }, .fail)
    else if s.attached who then (s, .wait)
    else (s.openService d ctx x va write (some who), .wait)

/-- The translation of a unit's access on a die; a satisfiable fault is served first. -/
def State.unitXlat (s : State) (d ctx va kind : Nat) (who : Place) : State × Got TlbEntry :=
  match s.walk d ctx va kind with
  | .ok e cl sl => (((s.markLeaf d cl (storesKind kind)).markLeaf d sl (storesKind kind)).keepLevels d ctx va, .ok e)
  | x => (s.keepLevels d ctx va).unitFault d ctx x va (storesKind kind) who

/-- The physical address behind an intermediate address that a page service reads or writes: the system stage's permissions and
limits hold (R16, R352), and a system-stage miss is filled first (R358). -/
def State.frameXlat (s : State) (d ctx ia kind : Nat) (who : Place) : State × Got Nat :=
  match s.context ctx with
  | none => (s, .fail)
  | some c =>
    match s.sysWalk d ctx ia 3 c.tb.sroot with
    | .error x => s.unitFault d ctx x ia false who
    | .ok f =>
      if !ptePermits f.pte kind || !s.frameThere ctx f ia then (s, .fail)
      else (s.markLeaf d f.addr (storesKind kind), .ok (leafPa f ia))

/-! ### Frames (R351, R357, R359) -/

/-- The next frame of a context's pool: its intermediate address. An empty pool has none, and a pool page that is itself EVICTED
cannot be read where the fault-in is served in hardware, which would need the pool (log 101, DEDUCED). -/
def State.poolFrame (s : State) (d ctx : Nat) (who : Place) : State × Got Nat :=
  match s.context ctx with
  | none => (s, .fail)
  | some c =>
    let a := c.tb.poolbase + 8 * c.tb.poolhead
    if c.tb.poolhead = c.tb.poolcnt then (s, .fail)
    else if s.walk d ctx a 0 = .evicted && !s.hostServes .faultIn then (s, .fail)
    else andThen (s.unitXlat d ctx a 0 who) fun s e => (s, .ok (leNat (s.physRead d e.key e.gen (e.pa a) 8) % 2 ^ 33 * 32768))

/-- POOLHEAD advanced (R351, R357), in memory and as the device has it. -/
def State.advancePool (s : State) (ctx : Nat) : State :=
  match s.context ctx with
  | none => s
  | some c =>
    let h := (c.tb.poolhead + 1) % 2 ^ 16
    let s1 := s.rawWrite (c.tbAddr + 0x1A) (leBytes 2 h)
    { s1 with contexts := mset s1.contexts ctx { c with tb := { c.tb with poolhead := h } } }

/-- The context-stage leaf of a virtual address. -/
def State.leafOf (s : State) (d ctx va : Nat) : Option Leaf :=
  match s.context ctx with
  | none => none
  | some c =>
    match s.ctxWalk d ctx c.tb.sroot va 3 c.tb.croot with
    | .ok f => some f
    | .error _ => none

/-- The key slot of an entry. -/
def State.slotOf (s : State) (d ctx pte : Nat) : Option KeySlot := s.keySlot d ctx (pteKey pte)

/-- An entry with another frame. -/
def pteSetFrame (e ia : Nat) : Nat := e - bits e 28 33 * 2 ^ 28 + bits ia 15 33 * 2 ^ 28

/-- The entry that copy on write leaves (R357): R, W, X, KEY and GEN kept. -/
def pteCopied (e ia : Nat) : Nat := (e &&& 0x0FFFF00E) + 0xC1 + bits ia 15 33 * 2 ^ 28

/-- An entry with n bits from lo on replaced. -/
def ptePut (e lo n v : Nat) : Nat := e - bits e lo n * 2 ^ lo + v % 2 ^ n * 2 ^ lo

/-- 32 KiB copied through a die's granary under a key and generation (R357). -/
def State.copyFrame (s : State) (d core : Nat) (key : Key) (gen src dst : Nat) : State :=
  (List.range 32768).foldl (fun s i => s.physWrite d core key gen (dst + i) [s.physByte d key gen (src + i)]) s

/-- A shootdown begun (R363): it completes when every die has. -/
def State.startShootdown (s : State) (q : Shootdown) : State :=
  ({ s with shootdowns := s.shootdowns ++ [q] }).later .shootdownComplete (.item q.ctx q.first)

/-- A service that goes on once what it waits for is there, or fails. -/
def State.endService (r : State × Got State) (d ctx va : Nat) (kind : ServiceKind) : State :=
  match r with
  | (_, .ok s) => s.retakeLines ctx false
  | (s, .wait) => s.after 1 .pageServiceComplete (.service d ctx va kind true 0)
  | (s, .fail) => s.closeService d ctx va kind false

/-- Copy on write (R357): a frame of the pool, the copy, the entry, then the shootdown, which ends the service. A 128 MiB page is
refused, and so is one with a poisoned line (R373; log 104, DEDUCED); one that is SHARED-COW no longer is walked anew. -/
def State.serveCow (s : State) (d ctx va core : Nat) : State :=
  let who := serviceUnit d ctx va 0
  match s.leafOf d ctx va, ((s.leafOf d ctx va).bind fun f => s.slotOf d ctx f.pte).bind (·.key) with
  | some f, some key =>
    if !pteV f.pte || !pteCow f.pte then s.closeService d ctx va .cow true
    else if f.size ≠ 32768 then s.closeService d ctx va .cow false
    else
      State.endService
        (andThen (s.poolFrame d ctx who) fun s ia =>
          andThen (s.frameXlat d ctx (pteFrame f.pte) 0 who) fun s src =>
          andThen (s.frameXlat d ctx ia 1 who) fun s dst =>
            if s.physPoisoned src 32768 then (s, .fail) else
            (s, .ok ((((s.advancePool ctx).copyFrame d core key (pteGen f.pte) src dst).rawWrite f.addr
              (leBytes 8 (pteCopied f.pte ia))).startShootdown
                { ctx := ctx, first := va, count := 1, counter := none, service := some (d, va, .cow), reread := none, ats := none })))
        d ctx va .cow
  | _, _ => s.closeService d ctx va .cow false

/-- One line of a swap record brought into a frame (R359): decrypted under its old address; in device memory it is kept under the
page's key with the page's generation as its tag. -/
def State.swapLine (s : State) (key : Key) (gen rec' old pa i : Nat) : State :=
  let c := (readBytes s.mem (rec' + 64 * i) 64).map BitVec.toNat
  let b := (Aes.xtsDecrypt key (Config.xtsSecond key) (old + 64 * i) c).map (BitVec.ofNat 8)
  let s1 := s.rawWrite (pa + 64 * i) b
  if isHost pa then s1
  else { s1 with lineKey := mset s1.lineKey (pa / 64 + i) key, lineTag := mput 0 s1.lineTag (pa / 64 + i) gen }

/-- Whether a swap record's trailer agrees with the entry and its slot (R359). -/
def recordFits (trailer : Nat) (pte : Nat) (slot : KeySlot) : Bool :=
  bits trailer 0 6 == pteKey pte && bits trailer 8 8 == slot.epoch && bits trailer 16 10 == pteGen pte

/-- A fault-in (R359); a record with a poisoned line cannot be read, and a page that is EVICTED no longer is walked anew. -/
def State.serveFaultIn (s : State) (d ctx va : Nat) : State :=
  let who := serviceUnit d ctx va 1
  match s.leafOf d ctx va, (s.leafOf d ctx va).bind fun f => s.slotOf d ctx f.pte with
  | some f, some slot =>
    let rec' := hostBase + pteFrame f.pte
    let old := bits (leNat (readBytes s.mem (rec' + 32776) 8)) 15 33 * 32768
    if pteV f.pte then s.closeService d ctx va .faultIn true else
    match slot.key with
    | none => s.closeService d ctx va .faultIn false
    | some key =>
      if s.physPoisoned rec' 32832 || !recordFits (leNat (readBytes s.mem (rec' + 32768) 8)) f.pte slot then s.closeService d ctx va .faultIn false
      else
        State.endService
          (andThen (s.poolFrame d ctx who) fun s ia =>
            andThen (s.frameXlat d ctx ia 1 who) fun s pa =>
              let s1 := (List.range 512).foldl (fun s i => s.swapLine key (pteGen f.pte) rec' old pa i) (s.advancePool ctx)
              let e := ptePut (ptePut (ptePut (pteSetFrame f.pte ia) 0 1 1) 10 1 0) 8 1 0
              (s, .ok ((s1.rawWrite f.addr (leBytes 8 e)).startShootdown
                { ctx := ctx, first := va, count := 1, counter := none, service := some (d, va, .faultIn), reread := none,
                  ats := none })))
          d ctx va .faultIn
  | _, _ => s.closeService d ctx va .faultIn false

/-- The frames that Linane takes from a context's reservation, by a number that is free (log 29, DESIGN CHOICE). -/
def reservedPa (n : Nat) : Nat := n % (deviceSize / 32768) * 32768

/-- A device frame scrubbed to zeros with line tags 0 (R362, R372). -/
def State.scrubRange (s : State) (pa n : Nat) : State :=
  { s with
    mem := mdelRange s.mem pa n
    lineTag := mdelRange s.lineTag (pa / 64) (n / 64)
    lineKey := mdelRange s.lineKey (pa / 64) (n / 64)
    poisoned := mdelRange s.poisoned pa n
    dies := mmap (fun _ x => { x with
      dirty := mdelRange x.dirty pa n, writers := mdelRange x.writers (pa / 64) (n / 64) }) s.dies }

/-- Linane fills the system stage of an intermediate address (R358): a table for each level that is absent, and a page that
may be read, written and executed, at a frame of the reservation. An entry that has become valid meanwhile stays. -/
def State.fillSystem (s : State) (d ia frame : Nat) : Nat → Nat → State
  | 0, t =>
    let p := t + pteOffset ia 0
    if pteV (s.rawNat d p 8) then s else s.rawWrite p (leBytes 8 (0xF + frame / 32768 * 2 ^ 28))
  | l + 1, t =>
    let p := t + pteOffset ia (l + 1)
    let e := s.rawNat d p 8
    if pteV e then (if l = 0 && pteLeaf e then s else s.fillSystem d ia frame l (pteFrame e))
    else
      let f := reservedPa (Config.reservedFrame s.draws)
      let s1 := ({ s with draws := s.draws + 1 }.scrubRange f 32768).rawWrite p (leBytes 8 (1 + f / 32768 * 2 ^ 28))
      s1.fillSystem d ia frame l f

/-- PAGE_SERVICE_COMPLETE (R356 to R359): a service in hardware does its work; one that fails gives every waiter the fault.
The last operand is the frame that a fill of the system stage takes. -/
def execPageServiceComplete (s : State) : Res :=
  match s.given with
  | .service d ctx va kind ok frame =>
    .next (match (s.die d).service ctx va kind with
      | none => s
      | some r =>
        if r.asked then s
        else if !ok then s.closeService d ctx va kind false
        else match kind with
          | .cow => s.serveCow d ctx va (r.waiters.headD { core := 0, strand := 0 }).core
          | .faultIn => s.serveFaultIn d ctx va
          | .system =>
            (match s.context ctx with
             | none => s.closeService d ctx va kind false
             | some c => (s.fillSystem d va (reservedPa frame) 3 c.tb.sroot).closeService d ctx va kind true)
          | .scrub => s)
  | _ => .fault .stepOperands

/-! ### Page maintenance (R360 to R363) -/

/-- The counter that a request's ARG3 names (R361). -/
def maintCounter (arg3 : Nat) : Nat × Nat := (bits arg3 12 4, bits arg3 0 12)

/-- A maintenance request complete: its counter is decremented with a release at module scope (R361). -/
def State.maintDone (s : State) (ctx : Nat) (c : Nat × Nat) : State :=
  s.later .counterSignal (.signal c.1 c.2 ctx { core := 0, strand := 0 } false 4)

/-- A step that serves a maintenance request of a context (log 61, DEDUCED). -/
def onMaint (s : State) (f : Nat → Nat → Nat → Nat → Nat × Nat → State) : Res :=
  match s.given with
  | .maint ctx die _ _ a0 a1 a3 => .next (f ctx die a0 a1 (maintCounter a3))
  | _ => .fault .stepOperands

/-- SHOOTDOWN (R361, R363): a count of 0 takes the whole context and reads its translation block anew. -/
def execShootdown (s : State) : Res :=
  onMaint s fun ctx d a0 a1 c =>
    s.startShootdown { ctx := ctx, first := a0 * 32768, count := a1, counter := some c, service := none,
                       reread := if a1 = 0 then some d else none, ats := none }

/-- ATS_INVALIDATION (R358): the host invalidates its translations of a PASID's pages, from a host page on; for each context of the
PASID it takes a shootdown, and with the last of them the host is told; at once where there is none. The first operand is the
PASID. -/
def execAtsInvalidation (s : State) : Res :=
  onMaint s fun pasid _ a0 a1 _ =>
    let l := s.contexts.filter fun e => e.2.pasid == pasid
    let s1 := { s with draws := s.draws + 1 }
    if l.isEmpty then { s1 with atsDone := s1.atsDone ++ [(pasid, a0, a1)] }
    else l.foldl (fun s2 e =>
      s2.startShootdown { ctx := e.1, first := a0 * 32768, count := a1, counter := none, service := none, reread := none,
                          ats := some (pasid, s.draws) }) s1

/-- The translation block as the device reads it (R351). -/
def State.readBlock (s : State) (d a : Nat) : TransBlock :=
  { croot := bits (s.rawNat d a 8) 15 33 * 32768, sroot := bits (s.rawNat d (a + 8) 8) 15 33 * 32768,
    poolbase := bits (s.rawNat d (a + 16) 8) 3 54 * 8, poolcnt := s.rawNat d (a + 24) 2, poolhead := s.rawNat d (a + 26) 2 }

/-- Whether a translation lies in a shootdown, by its virtual page, or by its host page for an invalidation from the host. -/
def Shootdown.hits (q : Shootdown) (e : TlbEntry) : Bool :=
  let base := if q.ats.isSome then e.pbase else e.vbase
  let first := if q.ats.isSome then hostBase + q.first else q.first
  e.ctx == q.ctx && (q.count == 0 || (first < base + e.size && base < first + 32768 * q.count))

/-- The translations that a test names invalidated on every core and die, with every level of a walk of the context. -/
def State.dropTranslations (s : State) (ctx : Nat) (gone : TlbEntry → Bool) : State :=
  { s with
    cores := mmap (fun _ x => { x with tlb := x.tlb.filter fun e => !gone e }) s.cores
    dies := mmap (fun _ x => { x with
      tcache := x.tcache.filter fun e => !gone e, levels := x.levels.filter fun e => e.ctx != ctx }) s.dies }

/-- What a completed shootdown is followed by: the block read anew (R351), the counter (R361), the end of a page service (R356), the
completion of the host's invalidation (R358). -/
def State.afterShootdown (s : State) (q : Shootdown) : State :=
  let s1 := match q.reread, s.context q.ctx with
    | some d, some c => { s with contexts := mset s.contexts q.ctx { c with tb := s.readBlock d c.tbAddr } }
    | _, _ => s
  let s2 := match q.counter with
    | some c => s1.maintDone q.ctx c
    | none => s1
  let s3 := match q.ats with
    | some a =>
      if s2.shootdowns.any fun r => r.ats == q.ats then s2
      else { s2 with atsDone := s2.atsDone ++ [(a.1, q.first / 32768, q.count)] }
    | none => s2
  match q.service with
  | some (d, va, kind) => s3.closeService d q.ctx va kind true
  | none => s3

/-- SHOOTDOWN_COMPLETE (R363): once the stores of the context's cores have left their store buffers, the old translations
are invalid, and what waited for it follows (log 71, DEDUCED). -/
def execShootdownComplete (s : State) : Res :=
  onItem s fun ctx first =>
    match s.shootdowns.find? fun q => q.ctx == ctx && q.first == first with
    | none => s
    | some q =>
      if s.cores.any fun e => e.2.owner.id == ctx && !e.2.sb.isEmpty then s.after 1 .shootdownComplete (.item ctx first)
      else
        (({ s with shootdowns := s.shootdowns.erase q }).dropTranslations ctx q.hits).afterShootdown q

/-- The ciphertext of a line as an eviction takes it (R359, R360): of zeros where its tag is stale. -/
def State.evictLine (s : State) (key : Key) (gen line : Nat) : List Byte :=
  let b := if mgetD s.lineTag line 0 = gen then readBytes s.mem (64 * line) 64 else List.replicate 64 0
  let k := if mgetD s.lineTag line 0 = gen then mgetD s.lineKey line key else key
  (Aes.xtsEncrypt k (Config.xtsSecond k) (64 * line) (b.map BitVec.toNat)).map (BitVec.ofNat 8)

/-- A page's record written to host memory, and its entry made EVICTED (R359, R360). -/
def State.evictPage (s : State) (f : Leaf) (slot : KeySlot) (key : Key) (pa host : Nat) : State :=
  let s1 := (List.range 512).foldl (fun s i => s.recall (pa / 64 + i)) s
  let cipher := ((List.range 512).map fun i => s1.evictLine key (pteGen f.pte) (pa / 64 + i)).flatten
  let trailer := leBytes 8 (pteKey f.pte + 2 ^ 8 * slot.epoch + 2 ^ 16 * pteGen f.pte) ++ leBytes 8 pa ++ List.replicate 48 0
  (s1.rawWrite (hostBase + host) (cipher ++ trailer)).rawWrite f.addr
    (leBytes 8 (ptePut (ptePut (pteSetFrame f.pte host) 0 1 0) 10 1 1))

/-- EVICT (R353, R360): only of a RESIDENT 32 KiB page in device memory whose slot holds a key, to an aligned address; a page with a
poisoned line is not evicted (R373; log 104, DEDUCED). -/
def execEvict (s : State) : Res :=
  onMaint s fun ctx d a0 a1 c =>
    let va := a0 * 32768
    match s.leafOf d ctx va, (s.leafOf d ctx va).bind fun f => s.slotOf d ctx f.pte with
    | some f, some slot =>
      (match slot.key with
       | none => s
       | some key =>
         if a1 % 64 ≠ 0 ∨ f.size ≠ 32768 ∨ !pteV f.pte ∨ pteCow f.pte ∨ pteBusy f.pte then s
         else
           match s.frameXlat d ctx (pteFrame f.pte) 0 (serviceUnit d ctx va 2) with
           | (s1, .wait) => s1.after 1 .evict s.given
           | (s1, .fail) => s1.forgetUnit d (serviceUnit d ctx va 2)
           | (s1, .ok pa) => if isHost pa || s1.physPoisoned pa 32768 then s1 else (s1.evictPage f slot key pa a1).maintDone ctx c)
    | _, _ => s

/-- A key slot of a context replaced, in the key stores too (R369); no translation under its old key is used again (R361) (log 62, DEDUCED). -/
def State.setSlot (s : State) (ctx n : Nat) (v : KeySlot) : State :=
  match s.context ctx with
  | none => s
  | some c =>
    let old := (mget c.slots n).bind (·.key)
    { s with contexts := mset s.contexts ctx { c with slots := mset c.slots n v } }.syncKeys.dropTranslations ctx fun e =>
      e.ctx == ctx && some e.key == old

/-- DESTROY_KEY_SLOT (R361). -/
def execDestroyKeySlot (s : State) : Res :=
  onMaint s fun ctx _ a0 _ c =>
    match s.context ctx with
    | none => s
    | some x =>
      if 64 ≤ a0 then s
      else
        let epoch := ((mget x.slots a0).map (·.epoch)).getD 0
        (s.setSlot ctx a0 { key := none, epoch := (epoch + 1) % 256 }).maintDone ctx c

/-- GENERATE_KEY_SLOT (R361). -/
def execGenerateKeySlot (s : State) : Res :=
  onMaint s fun ctx _ a0 _ c =>
    match s.context ctx with
    | none => s
    | some x =>
      if 64 ≤ a0 then s
      else
        let epoch := ((mget x.slots a0).map (·.epoch)).getD 0
        ({ s with draws := s.draws + 1 }.setSlot ctx a0 { key := some (Config.freshKey s.draws), epoch := epoch }).maintDone
          ctx c

/-- A page's generation set, then the shootdown of the whole page that the skim ends with (R362). -/
def State.skimTo (s : State) (d ctx va gen : Nat) (c : Nat × Nat) : State :=
  match s.leafOf d ctx va with
  | none => s
  | some f => (s.rawWrite f.addr (leBytes 8 (ptePut f.pte 18 10 gen))).startShootdown
      { ctx := ctx, first := va / f.size * f.size, count := f.size / 32768, counter := some c, service := none, reread := none,
        ats := none }

/-- The device frames behind a page scrubbed, each 32 KiB where the system stage maps it (R362); a part that it does not map holds
nothing. -/
def State.scrubPage (s : State) (d ctx : Nat) (f : Leaf) : State :=
  match s.context ctx with
  | none => s
  | some c =>
    (List.range (f.size / 32768)).foldl (fun s i =>
      let ia := pteFrame f.pte / f.size * f.size + 32768 * i
      match s.sysWalk d ctx ia 3 c.tb.sroot with
      | .ok g => if pteHost g.pte || !s.frameThere ctx g ia then s else s.scrubRange (leafPa g ia) 32768
      | .error _ => s) s

/-- SKIM_PAGE (R361, R362): from 0x3FF the page is scrubbed first, by the stations or by the host; an EVICTED page holds no frame to
scrub. -/
def execSkimPage (s : State) : Res :=
  onMaint s fun ctx d a0 _ c =>
    let va := a0 * 32768
    match s.leafOf d ctx va with
    | none => s
    | some f =>
      if pteGen f.pte ≠ 0x3FF then s.skimTo d ctx va (pteGen f.pte + 1) c
      else if !pteV f.pte then s.skimTo d ctx va 0 c
      else if bit s.duty 6 then
        let q : PageReq :=
          { die := d, ctx := ctx, va := pteFrame f.pte / f.size * f.size, kind := .scrub,
            pasid := ((s.context ctx).map (·.pasid)).getD 0, write := true, skim := (va, c.1, c.2) }
        { s with pageReqs := s.pageReqs ++ [q] }
      else (s.scrubPage d ctx f).skimTo d ctx va 0 c

/-- PRI_RESPONSE (R357, R358, R362): Success walks the page again, any other response makes the fault unsatisfiable; for a
skim, Success says that the host has scrubbed the page. -/
def execPriResponse (s : State) : Res :=
  match s.given with
  | .service d ctx va kind ok _ =>
    .next (match s.pageReqs.find? fun q => q.die == d && q.ctx == ctx && q.va == va && q.kind == kind with
      | none => s
      | some q =>
        let s1 := { s with pageReqs := s.pageReqs.erase q }
        if kind ≠ .scrub then s1.closeService d ctx va kind ok
        else
          match s1.leafOf d ctx q.skim.1 with
          | some f => if ok then (s1.scrubPage d ctx f).skimTo d ctx q.skim.1 0 q.skim.2 else s1
          | none => s1)
  | _ => .fault .stepOperands

/-- MAINT_REQUEST_DISCARD (R361): logged with the sending core; no counter changes. -/
def execMaintRequestDiscard (s : State) : Res :=
  match s.given with
  | .maint _ _ core taskid _ _ _ => .next { s with errors := s.errors ++ [(taskid, core)] }
  | _ => .fault .stepOperands

end Sys2Proof.Machine
end

