-- ==== Sys2Proof/Machine/Net.lean ====
section
/-!
DEFINITION. The fabric (R270 to R274, R281, R287 to R289, R293, R295, R296, R347, R370): headers at switches and at the gateway, the
links they cross, the merging of barrier arrivals, and the checks of a target NI.
-/

namespace Sys2Proof.Machine

/-- A step for a packet in flight; one that has gone already leaves the state as it is. -/
def onPacket (s : State) (f : Nat → Packet → State) : Res :=
  match s.given with
  | .packet id => .next (match mget s.packets id with
    | none => s
    | some k => f id k)
  | _ => .fault .stepOperands

/-! ### The checks of a target (R274) -/

/-- What a target NI does with a packet. -/
inductive Verdict where
  | apply
  | refuse (reason : Nat)
  | discard
  | park
  | wait
  /-- A SEQ that has been applied already: the answer it had (R293). -/
  | again (k : PKind) (payload : List Byte)
  deriving DecidableEq, Repr

/-- The generation of a port (R275). -/
def Ni.port (n : Ni) (endp : Nat) : Nat := mgetD n.ports endp 0

/-- The units that a packet's operation touches: first and count (R274, check 3). -/
def Packet.units (k : Packet) : List (Nat × Nat) :=
  let b := wBase k.word
  match k.kind with
  | .rld off | .rst off | .rstf off | .ramo off .. => [(b + off, 8)]
  | .cpy offs _ _ => offs.map fun o => (b + o, 1)
  | .rldv n offs | .rstv n offs => offs.map fun o => (b + o, n)
  | .send k _ => [(k, 1)]
  | .postw n => [(n, 1)]
  | .arrive g _ _ | .watch g _ | .leave g _ _ _ | .withdraw g _ _ => [(g, 1)]
  | _ => []

/-- Whether every unit lies in the word's window, and outside the loft (R274, check 3). -/
def Packet.unitsOk (k : Packet) : Bool :=
  k.units.all fun e => wBase k.word ≤ e.1 && e.1 + e.2 ≤ wBase k.word + wLen k.word &&
    (wEndp k.word != 4 || e.1 + e.2 ≤ loftBase)

/-- Whether a packet must wait for an earlier one to be applied (R260, R261, R293): of a sender on this module, one that has no answer
yet; of one on another module, one that had none when the packet was sent last. -/
def State.heldBack (s : State) (k : Packet) : Bool :=
  let ni := (s.core k.target).ni
  (if k.module' = s.moduleId then ((s.core k.core).ni.before k).map Packet.ids else k.behind).any fun ids => (ni.answered k ids).isNone

/-- Whether a core's context is suspended or migrating, so that arrivals park (R364). -/
def State.parked (s : State) (c : Nat) : Bool :=
  match s.context (s.core c).owner.id with
  | some x => x.state == .suspended || x.state == .migratingOut || x.state == .migratingIn
  | none => false

/-- A core as what reaches its queue and its barrier units sees it: of a suspended context, its saved copy (R309, R346). -/
def State.portCore (s : State) (c : Nat) : Core :=
  if s.parked c then
    (match s.context (s.core c).owner.id with
     | some x => mgetD x.saved c (s.core c)
     | none => s.core c)
  else s.core c

/-- Such a core changed. -/
def State.modPort (s : State) (c : Nat) (f : Core → Core) : State :=
  if s.parked c then
    (match s.context (s.core c).owner.id with
     | some x => { s with contexts := mset s.contexts (s.core c).owner.id { x with
         saved := mset x.saved c (f (mgetD x.saved c (s.core c))) } }
     | none => s)
  else s.modCore c f

/-- Check 1 of R274: a core of a context that is not SCRUBBING, or a manager core, and the port's current generation. -/
def State.portOpen (s : State) (k : Packet) : Bool :=
  let x := s.core k.target
  let g := x.ni.port (wEndp k.word)
  (isManager k.target ||
    (x.owner.id != 0 && ((s.context x.owner.id).map Context.state) != some CtxState.scrubbing)) &&
    g != 0xFFFF && wGen k.word == g

/-- The verdict on a packet at its target, in the order of R274 (log 68, DEDUCED). -/
def State.verdict (s : State) (k : Packet) : Verdict :=
  if k.damage ≠ 0 ∨ !s.keyFits k then .discard
  else if !s.portOpen k then .refuse 1
  else if windowLimit (wEndp k.word) < wBase k.word + wLen k.word ∨ !k.unitsOk then .refuse 2
  else if s.parked k.target then .park
  else
    match (s.core k.target).ni.answered k k.ids with
    | some r => .again r.2.1 r.2.2
    | none => if s.heldBack k then .wait else .apply

/-- A packet NACKed by its target (R274, check 4). -/
def State.nackAtTarget (s : State) (id : Nat) (k : Packet) : State := (s.dropPacket id).answer k (.nack false) []

/-- A damaged packet discarded (R371, R400): its failure is counted on the die, a GCM failure under the key of its context. -/
def State.countDamage (s : State) (d : Nat) (k : Packet) : State :=
  if k.damage = 1 then
    let recent := ((s.die d).crcFails.filter fun n => s.now < n + clkPerMs) ++ [s.now]
    let s1 := s.modDie d fun x => { x with crcFails := recent }
    if recent.length = 16 then s1.logAlarm 1 trigGcm [] else s1
  else s.countGcmFail d (s.keyCtx k)

/-- A packet at the NI that receives it, with the checks that every packet passes (R371, R400): one that fails its CRC or its GCM check is
discarded and counted; the others are given to what takes them. -/
def atReceiver (s : State) (f : State → Nat → Packet → State) : Res :=
  onPacket s fun id k =>
    if k.damage ≠ 0 ∨ !s.keyFits k then (s.dropPacket id).countDamage (dieOf k.receiver) k else f (s.cacheKey k.receiver (s.keyCtx k)) id k

/-! ### Crossing a link (R281, R287, R289) -/

/-- The refusal of a request that a DOWN link has dropped (R289): a packet that the balancer moves goes back to its source, and what is
no request is lost. -/
def State.refuseDropped (s : State) (k : Packet) : State :=
  match k.kind with
  | .move _ n _ => s.answer k (.moveRefused n) []
  | .wgen .. => s.answer k (.refusal 5) []
  | _ => if k.word = 0 ∨ k.retraces then s else s.answer k (.refusal 5) []

/-- The NACK of a header that meets a NARROWED link (R287). -/
def State.nackNarrowed (s : State) (k : Packet) : State :=
  match k.kind with
  | .move _ n _ => s.answer k (.moveNacked n) []
  | _ => s.answer k (.nack true) []

/-- A packet about to cross a link: over a DOWN link it is dropped, and a request refused with reason NARROWED; over a NARROWED one a VC0
or VC2 header is NACKed, or, on VC0 without a route word, held for the detour; a link in TRAINING holds it. -/
def State.crossLink (s : State) (id : Nat) (k : Packet) (l : Nat) (i : Instr) (go : State) : State :=
  let crossed : State :=
    if (s.link l).failures = 0 then go else { go with links := mset go.links l { s.link l with failures := 0 } }
  match (s.link l).state with
  | .up => crossed
  | .narrowed =>
    if k.vc = 0 ∧ k.word = 0 then s.holdPacket id i
    else if k.vc = 0 ∨ k.vc = 2 then (s.dropPacket id).nackNarrowed k
    else crossed
  | .down => (s.dropPacket id).refuseDropped k
  | .training => s.holdPacket id i

/-- A packet moved on to a neighbouring place, which its answer will come back from. -/
def Packet.goTo (k : Packet) (l : Loc) : Packet := { k with loc := l, port := some k.loc, trail := k.loc :: k.trail }

/-- A packet that a link carries from its place to a neighbouring one. -/
def State.move (s : State) (id : Nat) (k q : Packet) (l : Loc) : State :=
  match linkBetween k.loc l with
  | none => s.dropPacket id
  | some n => s.crossLink id k n k.loc.header (s.advancePacket id (q.goTo l) l.header)

/-- A drop that is logged in a die's switch log (R280), with its refusal. -/
def State.dropLogged (s : State) (d id : Nat) (k : Packet) : State :=
  ((s.dropPacket id).modDie d fun x => { x with
    log := x.log ++ [(k.core, k.module', k.wreg, wEndp k.word, wOwner k.word)] }).answer k (.refusal 3) []

/-- The context of the core that a header names, on this module (R378). -/
def State.senderCtx (s : State) (k : Packet) : Nat := if k.module' = s.moduleId then (s.core k.core).owner.id else 0

/-! ### Switches (R270) -/

/-- What a header does at a switch once its tag is checked. -/
inductive Hop where
  | mesh (dir : Nat) (k : Packet)
  | port (p : Nat) (k : Packet)
  | deliver
  | bad
  deriving DecidableEq, Repr

/-- The segments of a path from SEG on (R270). -/
def Packet.segHop (k : Packet) : Nat → Hop
  | 0 => .bad
  | n + 1 =>
    if k.seg = 10 then .deliver
    else
      let d := segDir (wPath k.word) k.seg
      let cnt := segCount (wPath k.word) k.seg
      if d = 0 then .deliver
      else if d ≤ 4 then
        (if k.taken < cnt then .mesh d { k with taken := k.taken + 1 }
         else ({ k with seg := k.seg + 1, taken := 0 } : Packet).segHop n)
      else if d = 5 then .port cnt { k with seg := k.seg + 1 }
      else .bad

/-- The hop that a lead asks for, X first (R269). -/
def Packet.leadHop (k : Packet) : Option (Nat × Packet) :=
  if 0 < k.leadx then some (1, { k with leadx := k.leadx - 1 })
  else if k.leadx < 0 then some (2, { k with leadx := k.leadx + 1 })
  else if 0 < k.leady then some (4, { k with leady := k.leady - 1 })
  else if k.leady < 0 then some (3, { k with leady := k.leady + 1 })
  else none

/-- A header's next move: its lead first, then its segments (R269, R270). -/
def Packet.hop (k : Packet) : Hop :=
  match k.leadHop with
  | some (dir, q) => .mesh dir q
  | none => k.segHop 11

/-- Bytes of a packet: two header flits and its payload. -/
def Packet.size (k : Packet) : Nat := 64 + k.payload.length

/-- Bytes of a recovery sink (R293). -/
def sinkBytes : Nat := 2048

/-- Whether a recovery sink has room for a packet (R293). -/
def sinkRoom (sink : List Packet) (k : Packet) : Bool := (sink.map Packet.size).sum + k.size ≤ sinkBytes

/-- A packet at the NI that it is for (R270, R293): the NI takes it; on VC3 the recovery sink does, when it has room. A packet with a
route word that finds the sink full is NACKed once the other checks of R274 have passed, and any other waits. -/
def State.deliver (s : State) (id : Nat) (k : Packet) (t : Nat) : State :=
  let q := { k with target := t, loc := .ni t }
  if k.vc ≠ 3 then s.advancePacket id q k.kind.arrival
  else if sinkRoom (s.core t).ni.sink k then
    (({ s.dropPacket id with tokenPacket := none }).modCore t fun x => { x with
      ni := { x.ni with sink := x.ni.sink ++ [q] } }).later .recoverySinkApply (.core t)
  else if k.word = 0 ∨ k.retraces then s.holdPacket id .switchHeader
  else
    match s.verdict q with
    | .refuse r => (s.dropPacket id).answer q (.refusal r) []
    | .discard => (s.dropPacket id).countDamage (dieOf t) q
    | _ => s.nackAtTarget id q

/-- The operation code that a barrier arrival carries, if any. -/
def Arrival.code (a : Arrival) : Option Nat := (a.members.findSome? fun e => e.2).map (·.op)

/-- Whether two arrivals may be merged (R347): in one input queue, on the same route and of the same phase, with codes that do not
differ. -/
def Packet.mayMerge (a b : Packet) : Bool :=
  match a.kind, b.kind with
  | .arrive g p x, .arrive h q y =>
    a.word == b.word && a.sameQueue b && g == h && p == q &&
      (match x.code, y.code with
       | some m, some n => m == n
       | _, _ => true)
  | _, _ => false

/-- A barrier arrival merged with one that waits at the same switch (R347), where the switch does merge them: the
earlier-queued packet stays, and counts the later one's members after its own. -/
def State.mergeArrival (s : State) (id : Nat) (k : Packet) : Option State :=
  match s.packets.find? fun e => e.1 != id && k.mayMerge e.2 with
  | none => none
  | some (j, q) =>
    if !Config.merges s.draws then none
    else
      let lo := if inFront (id, k) (j, q) then (id, k) else (j, q)
      let hi := if inFront (id, k) (j, q) then (j, q) else (id, k)
      match lo.2.kind, hi.2.kind with
      | .arrive g p x, .arrive _ _ y =>
        let s1 := ({ s with draws := s.draws + 1 } : State).dropPacket hi.1
        some ({ s1 with packets := mset s1.packets lo.1 { lo.2 with kind := .arrive g p (.both x y) } }.later .switchHeader
          (.packet id))
      | _, _ => none

/-- The side on which a detour passes a link (R288): one row north of a link along a row, or south on row 0; one column east of a link
along a column, or west on the last column (log 20, DESIGN CHOICE). -/
def detourSide (c dir : Nat) : Nat :=
  if dir ≤ 2 then (if pyOf c = 0 then 4 else 3) else if pxOf c = 511 then 2 else 1

/-- A lead with one more hop to go back against a side. -/
def Packet.owing (k : Packet) (side : Nat) : Packet :=
  match side with
  | 1 => { k with leadx := k.leadx - 1 }
  | 2 => { k with leadx := k.leadx + 1 }
  | 3 => { k with leady := k.leady + 1 }
  | _ => { k with leady := k.leady - 1 }

/-- The next hop of a packet without a route word (R286): along X and then Y, round a link that has a detour (R288), until it is at the
switch of its target. -/
def State.fixedHop (s : State) (id : Nat) (k : Packet) (c : Nat) : State :=
  match k.leadHop with
  | none => s.deliver id k k.target
  | some (dir, q) =>
    let l := s.link (meshLink c dir)
    if l.detour && l.state != .up then
      let side := detourSide c dir
      let e := nextSwitch c side
      s.crossLink id k (meshLink c side) .switchHeader
        (s.crossLink id k (meshLink e dir) .switchHeader (s.advancePacket id ((q.owing side).goTo (.switch (nextSwitch e dir))) .switchHeader))
    else s.move id k q (.switch (nextSwitch c dir))

/-- An answer on its way back (R273): to the place that the packet it answers left last; where nothing is left to retrace, it is at
the NI that CORE names. -/
def State.retrace (s : State) (id : Nat) (k : Packet) : State :=
  match k.trail with
  | [] => s.deliver id k k.core
  | l :: r =>
    match linkBetween k.loc l with
    | none => s.advancePacket id { k with loc := l, port := some k.loc, trail := r } l.header
    | some n => s.crossLink id k n k.loc.header (s.advancePacket id { k with loc := l, port := some k.loc, trail := r } l.header)

/-- SWITCH_HEADER (R270): of a packet that is the head of its queue. Answers and packets without a route word are not checked (R273,
R286). -/
def execSwitchHeader (s : State) : Res :=
  onPacket s fun id k =>
    match k.loc with
    | .switch c =>
      if s.level3 then s.dropPacket id
      else if !s.isHead id k then s.holdPacket id .switchHeader
      else if k.retraces then s.retrace id k
      else if k.word = 0 then s.fixedHop id k c
      else if !sealOk s.fabricKey k.word then
        (s.dropLogged (dieOf c) id k).countTagFail (dieOf c) (s.senderCtx k)
      else
        match s.mergeArrival id k with
        | some s' => s'
        | none =>
          match k.hop with
          | .mesh dir q => s.move id k q (.switch (nextSwitch c dir))
          | .port _ q => s.move id k q .gateway
          | .deliver => s.deliver id k (if 0x80 ≤ wEndp k.word then managerBase + dieOf c else c)
          | .bad => s.dropLogged (dieOf c) id k
    | _ => s

/-! ### The gateway (R271, R295, R296, R370) -/

/-- The channels that a leg of a packet may use (R295): of its direction, not dark, assigned to the leg's reach index; a
leased one only for the leasing context's own packets. -/
def State.legChannels (s : State) (k : Packet) (dir reach : Nat) : List Nat :=
  ((fibresOf dir).map fun f => (List.range 32).map (32 * f + ·)).flatten.filter fun ch =>
    !s.isDark ch && s.channelIndex ch == reach &&
      (match mget s.leased ch with
       | none => true
       | some (who, _, ph) =>
         ph == 1 && k.module' == s.moduleId && !k.retraces && (s.core (who / 16)).owner.id == (s.core k.core).owner.id)

/-- Packets in the transmit queue of a channel whose transmission has not ended. -/
def State.queueLength (s : State) (ch : Nat) : Nat :=
  (s.fibreOut.filter fun e => e.1.channel == ch && decide (s.now < e.1.ends)).length

/-- What the gateway does with a packet's leg: it takes a channel, waits, or finds none. -/
inductive Channel where
  | take (ch : Nat)
  | wait
  | none
  deriving DecidableEq, Repr

/-- The channel of a register's first packet (R296): a leased one, the lowest-numbered where several are (log 94, DESIGN CHOICE);
otherwise the one with the shortest transmit queue, the lower number winning a tie. -/
def State.firstChannel (s : State) (allowed : List Nat) : Channel :=
  match allowed.find? fun ch => mhas s.leased ch with
  | some ch => .take ch
  | .none =>
    match (sortBy (fun ch => s.queueLength ch * 4096 + ch) allowed).head? with
    | some ch => .take ch
    | .none => .none

/-- The channel of a packet's leg (R295, R296): that of the register's last packet while it is allowed; then another, once the far
gateway has received that packet. Where no channel of the leg is allowed for the moment, the packet waits; toward an index that is
dark for want of a module there is none. -/
def State.chooseChannel (s : State) (k : Packet) (dir reach : Nat) : Channel :=
  let allowed := s.legChannels k dir reach
  if s.indexAbsent dir reach then .none
  else if allowed.isEmpty then .wait
  else if k.retraces then s.firstChannel allowed
  else
    match mget s.lastChannel k.sender with
    | some (ch, got) =>
      if allowed.contains ch then .take ch else if s.now < got then .wait else s.firstChannel allowed
    | .none => s.firstChannel allowed

/-- The gateway's own key uses: nonce counters by key, the link keys by direction and a context's by 16 + its id. -/
def State.gatewayNonce (s : State) (key : Nat) : State × Nat :=
  let n := mgetD s.gnonces key 0
  let s1 := { s with gnonces := mset s.gnonces key (n + 1) }
  (if 2 ^ 64 - 1 ≤ n + 1 then s1.raiseAlarm 3 trigNonce [] else s1, n)

/-- A link key (R369, R370). -/
def State.linkKey (s : State) (dir : Nat) : Key := mgetD s.linkKeys dir 0

/-- A packet's place in the transmit queue of a channel: 64 Gb/s from the end of what is queued before it (R19, R282). -/
def State.queueOn (s : State) (ch : Nat) (k : Packet) : Sent :=
  let from' := s.fibreOut.foldl (fun (n : Nat) e => if e.1.channel = ch then max n e.1.ends else n) s.now
  let ends := from' + (3 * k.size + 15) / 16
  { channel := ch, begins := from', ends := ends, lands := ends + Config.flightClk (ch / 32) (s.channelIndex ch) }

/-- A packet set aside at the gateway, so that the packets of other registers behind it are not held back (R296). -/
def State.setAside (s : State) (id : Nat) (k : Packet) : State :=
  if k.aside then s.holdPacket id .gatewayHeader else s.advancePacket id { k with port := some .gateway } .gatewayHeader

/-- Whether an earlier packet of a sending register waits aside (R296). -/
def State.asideBefore (s : State) (id : Nat) (k : Packet) : Bool :=
  !k.aside && !k.retraces && s.packets.any fun e => e.1 != id && e.2.aside && e.2.sender == k.sender && !e.2.retraces

/-- One leg over a fibre (R271, R370): the payload is encrypted under the link key of the direction, and the packet is
queued on its channel. -/
def State.sendLeg (s : State) (id : Nat) (k : Packet) (dir stride : Nat) : State :=
  if s.asideBefore id k then s.setAside id k else
  match s.chooseChannel k dir (stride - 1) with
  | .none => if k.retraces then s.dropPacket id else s.dropLogged gatewayDie id k
  | .wait => s.setAside id k
  | .take ch =>
    s.crossLink id k (fibreLink (ch / 32)) .gatewayHeader (
      let r := s.gatewayNonce dir
      let q := { k with ngw := true, nport := ch / 32, nmod := s.moduleId, nonce := r.2, key := r.1.linkKey dir }
      let e := r.1.queueOn ch k
      let s1 := r.1.dropPacket id
      { s1 with
        fibreOut := s1.fibreOut ++ [(e, q)]
        lastChannel := if k.retraces then s1.lastChannel else mset s1.lastChannel k.sender (ch, e.lands) })

/-- A packet landed on a die (R370): its payload is encrypted under the key of the target core's context. -/
def State.land (s : State) (id : Nat) (k : Packet) (die port : Nat) : State :=
  match walkPath (wPath k.word) (wEndp k.word) with
  | none => s.dropLogged gatewayDie id k
  | some e =>
    let ctx := (s.core e.core).owner.id
    let away := k.module' ≠ s.moduleId
    let r := if away then s.gatewayNonce (16 + ctx) else (s, k.nonce)
    let q := { k with seg := k.seg + 1, taken := 0 }
    let q' :=
      if away then { q with ngw := true, nport := 96 + 3 * die + port, nmod := s.moduleId, nonce := r.2, key := s.storeKey die ctx } else q
    s.crossLink id k (portInLink die port) .gatewayHeader
      (r.1.advancePacket id (q'.goTo (.switch (coreAt die (portCol port) 0))) .switchHeader)

/-- A header that has come over a fibre from another module (R271): TAKEN counts the leg. -/
def Packet.forth (k : Packet) : Packet :=
  let s := segCount (wPath k.word) k.seg % 32
  let t := k.taken + min 3 (s - k.taken)
  if t = s then { k with seg := k.seg + 1, taken := 0 } else { k with taken := t }

/-- The stride of the leg by which an answer goes back when n steps of its segment are left: the last forward leg first (R271, R273). -/
def backStride (n : Nat) : Nat := (n - 1) % 3 + 1

/-- An answer that has come over a fibre from another module: the leg is retraced. -/
def Packet.back (k : Packet) : Packet :=
  let t := k.taken - backStride k.taken
  if t = 0 then
    let l := lastFib (wPath k.word) k.seg
    { k with seg := l.1, taken := l.2 }
  else { k with taken := t }

/-- The way from the gateway to the core that an answer names, which its packet left by (R273). -/
def homeTrail (k : Packet) : List Loc :=
  match liveSegs (wPath k.word) with
  | (5, p) :: _ => meshTrail k.core (coreAt (dieOf k.core) (portCol p) 0)
  | _ => []

/-- A packet that has come over a fibre by a port, its leg counted. The receiving gateway's port has the number of the sending one's
(log 108, DESIGN CHOICE). -/
def Packet.landed (k : Packet) (moduleId : Nat) : Packet :=
  let q := { (if k.retraces then k.back else k.forth) with nmod := moduleId, trail := [], port := some (.fibreSink k.nport) }
  if k.retraces && k.module' == moduleId then { q with trail := homeTrail k } else q

/-- An answer that is back on its sender's module is encrypted under the key of the core's context as it lands (R370). -/
def State.home (s : State) (k : Packet) : State × Packet :=
  if k.retraces && k.module' == s.moduleId then
    let ctx := (s.core k.core).owner.id
    let port := match liveSegs (wPath k.word) with
      | (5, p) :: _ => p
      | _ => 0
    let r := s.gatewayNonce (16 + ctx)
    (r.1, { k with ngw := true, nport := 96 + 3 * dieOf k.core + port, nonce := r.2, key := s.storeKey (dieOf k.core) ctx })
  else (s, k)

/-- Segments of no hops passed over at the gateway (R267, R270). -/
def Packet.skipped (k : Packet) : Nat → Packet
  | 0 => k
  | n + 1 =>
    let d := segDir (wPath k.word) k.seg
    if k.seg < 10 ∧ 1 ≤ d ∧ d ≤ 4 ∧ segCount (wPath k.word) k.seg ≤ k.taken then
      ({ k with seg := k.seg + 1, taken := 0 } : Packet).skipped n
    else k

/-- The packets in the recovery sink of a fibre port. -/
def State.fibreSink (s : State) (f : Nat) : List Packet := (s.packets.filter fun e => e.2.loc == .fibreSink f).map (·.2)

/-- A packet that has come over a fibre (R271, R293, R371): its GCM check under the link key of the direction that it has travelled in; on VC3 it enters the sink of its fibre
port, when there is room. -/
def State.fromFibre (s : State) (id : Nat) (k : Packet) : State :=
  if k.damage ≠ 0 ∨ !k.opens (s.linkKey (k.nport / 12)) then (s.dropPacket id).countGcmFail gatewayDie 0
  else if k.vc = 3 && !sinkRoom (s.fibreSink k.nport) k then s.holdPacket id .gatewayHeader
  else
    let r := s.home (k.landed s.moduleId)
    if k.vc = 3 then
      ({ r.1 with packets := mset r.1.packets id { r.2 with loc := .fibreSink k.nport, flagged := true } }).modDie
        gatewayDie fun x => { x with flagged := true }
    else r.1.advancePacket id r.2 .gatewayHeader

/-- An answer at the gateway (R273): back onto the module, or over the fibre that its packet came by, in the opposite direction. -/
def State.answerBack (s : State) (id : Nat) (k : Packet) : State :=
  if !k.trail.isEmpty then s.retrace id k
  else if k.taken = 0 ∨ k.module' = s.moduleId then s.dropPacket id
  else s.sendLeg id k (segCount (wPath k.word) k.seg / 32 ^^^ 1) (backStride k.taken)

/-- The segment that a header stands at in the gateway (R270, R271): a leg over a fibre, a landing, or a path fault. -/
def State.gatewaySeg (s : State) (id : Nat) (k : Packet) : State :=
  let d := segDir (wPath k.word) k.seg
  let n := segCount (wPath k.word) k.seg
  if k.seg < 10 ∧ d = 6 then s.sendLeg id k (n / 32) (min 3 (n % 32 - k.taken))
  else if k.seg < 10 ∧ d = 7 then s.land id k (n % 16) (bits n 4 2)
  else s.dropLogged gatewayDie id k

/-- GATEWAY_HEADER (R271): of a packet that is the head of its queue. A request to the lease agent ends here (R266) (log 18, DESIGN
CHOICE). -/
def execGatewayHeader (s : State) : Res :=
  onPacket s fun id k =>
    if k.loc ≠ .gateway then s
    else if s.level3 then s.dropPacket id
    else if !s.isHead id k then s.holdPacket id .gatewayHeader
    else if !k.retraces && !sealOk s.fabricKey k.word then
      (s.dropLogged gatewayDie id k).countTagFail gatewayDie (s.senderCtx k)
    else if k.ngw && k.nmod != s.moduleId then s.fromFibre id k
    else if k.retraces then s.answerBack id k
    else
      match k.kind with
      | .wlease .. => s.advancePacket id k .leaseRequestArrival
      | _ => s.gatewaySeg id (k.skipped 10)

end Sys2Proof.Machine
end

