-- ==== Sys2Proof/Machine/Remote.lean ====
section
/-!
DEFINITION. Remote operations and messages (R209, R221, R223 to R227).
-/

namespace Sys2Proof.Machine

/-- The strand is STALLED until the response of its waiting operation (R209), which the packets then sent carry. -/
def State.sendWaiting (s : State) (p : Place) (t : Strand) (d : SReg) (qs : List SendReq) : State :=
  (s.setStrand p (t.hold s.now (.remote (s.core p.core).ni.serial) d)).sendAll p qs

/-- RLD (R224). -/
def execRld (d : SReg) (a : RReg) (b : SReg) (s : State) : Res :=
  onStrand s fun p t =>
    let w := t.w a
    let off := (t.s b).toNat
    match checkRoute w (s.ctxOf p) a.val rightR [1, 2, 3, 4] off 8 8 with
    | some c => s.raise p c.1 c.2
    | none => s.sendWaiting p t d [oneReq w a.val (.rld off) [] true]

/-- RST (R224). -/
def execRst (d : SReg) (a : RReg) (b : SReg) (s : State) : Res :=
  onStrand s fun p t =>
    let w := t.w a
    let off := (t.s b).toNat
    match checkRoute w (s.ctxOf p) a.val rightW [1, 2, 4] off 8 8 with
    | some c => s.raise p c.1 c.2
    | none => (s.complete p t).sendAll p [oneReq w a.val (.rst off) (leBytes 8 (t.s d).toNat) false]

/-- RSTF (R224): a release at path scope at the sender (R254). -/
def execRstf (d : SReg) (a : RReg) (b : SReg) (s : State) : Res :=
  onStrand s fun p t =>
    let w := t.w a
    let off := (t.s b).toNat
    match checkRoute w (s.ctxOf p) a.val (rightW + rightF) [4] off 8 8 with
    | some c => s.raise p c.1 c.2
    | none => s.release p (pathScope w) fun s =>
        (s.complete p t).sendAll p [oneReq w a.val (.rstf off) (leBytes 8 (t.s d).toNat) false]

/-- RAMO (R224): for cas the expected value is sD and the new one s(D+1). -/
def execRamo (d : SReg) (a : RReg) (b : SReg) (op : BitVec 3) (s : State) : Res :=
  onStrand s fun p t =>
    let w := t.w a
    let off := (t.s b).toNat
    if !ramoForm d op then s.illegal p (.ramo d a b op)
    else
      match checkRoute w (s.ctxOf p) a.val rightA [4] off 8 8 with
      | some c => s.raise p c.1 c.2
      | none => s.release p (pathScope w) fun s =>
          let o := if op = 2 then t.s (Fin.ofNat 32 (d.val + 1)) else t.s d
          s.sendWaiting p t d [oneReq w a.val (.ramo off op.toNat o (t.s d)) [] true]

/-- The extent of RLDV and RSTV (R225): first element, its offset, and the size checked. -/
def Strand.remoteExtent (t : Strand) (b : SReg) : Nat × Nat × Nat :=
  let n := t.sewW / 8
  let v := t.vec.vstart0
  (v, (t.s b).toNat + v * n, (t.vec.vl - v) * n)

/-- The active elements of a transfer, cut into packets by the 256 B chunk of the extent they lie in; each packet comes
with its chunk number (log 49, DEDUCED). -/
def chunksOf (is : List Nat) (first size count : Nat) : List (Nat × List Nat) :=
  ((List.range ((count * size + 255) / 256)).map fun j => (j, is.filter fun i => (i - first) * size / 256 == j)).filter
    fun e => !e.2.isEmpty

/-- RLDV (R225). -/
def execRldv (d : VReg) (a : RReg) (b : SReg) (s : State) : Res :=
  needLanes s (.rldv d a b) fun p t =>
    let w := t.w a
    let n := t.sewW / 8
    let x := t.remoteExtent b
    match checkRoute w (s.ctxOf p) a.val rightR [1, 2, 3, 4] x.2.1 x.2.2 n with
    | some c => s.raise p c.1 c.2
    | none => s.withResident p t [dstReg d] fun u =>
        let is := activeIn (s.maskOf p u) x.1 u.vec.vl
        let qs := (chunksOf is x.1 n (u.vec.vl - x.1)).map fun e =>
          { oneReq w a.val (.rldv n (e.2.map fun i => (u.s b).toNat + i * n)) [] true with
            chunk := e.1, dest := d.val, elems := e.2 }
        if qs.isEmpty then s.complete p { u.setV d (u.v d) with vec := u.vec.setVstart 0 0 }
        else s.sendWaiting p u 0 qs

/-- RSTV (R225): over a sheaf, chunk j goes on the j-th member in ascending register number (R221). -/
def execRstv (d : VReg) (a : RReg) (b : SReg) (s : State) : Res :=
  needLanes s (.rstv d a b) fun p t =>
    let n := t.sewW / 8
    let x := t.remoteExtent b
    let rs := t.sheafOf a
    match checkMembers t (s.ctxOf p) rightW [1, 2, 4] x.2.1 x.2.2 n rs with
    | some c => s.raise p c.1 c.2
    | none => s.withResident p t [srcReg d] fun u =>
        let is := activeIn (s.maskOf p u) x.1 u.vec.vl
        let members := (sortBy id rs).map fun r => (r, u.wn r)
        let ordered := 2 ≤ members.length && members.all fun e => wOrdered e.2
        let qs := (chunksOf is x.1 n (u.vec.vl - x.1)).map fun e =>
          let m := members.getD (e.1 % members.length) (a.val, u.w a)
          { oneReq m.2 m.1 (.rstv n (e.2.map fun i => (u.s b).toNat + i * n))
              (e.2.map fun i => leBytes n (elem (u.v d) u.sewW i)).flatten false with
            chunk := e.1, ordered := ordered, members := members }
        (s.complete p { u with vec := u.vec.setVstart 0 0 }).sendAll p qs

/-! ### Messages -/

/-- The tag and the strand that a message's head names (R226). -/
def msgTag (v : Word) : Nat := bits v.toNat 0 32
def msgStrand (v : Word) : Nat := bits v.toNat 32 3

/-- A message sent (R226): the strand window check, then a release at path scope (R254), then the packet. -/
def State.sendMessage (s : State) (p : Place) (t : Strand) (a : RReg) (head : Word) (data : List Byte) : State :=
  let w := t.w a
  match checkWindow w (unitOff w (msgStrand head)) 1 1 with
  | some c => s.raise p c.1 c.2
  | none => s.release p (pathScope w) fun s =>
      let s1 := s.complete p t
      if data.isEmpty then s1
      else s1.sendAll p [oneReq w a.val (.send (msgStrand head) (msgTag head)) data false]

/-- SEND (R226) (log 50, DEDUCED). -/
def execSend (d : SReg) (a : RReg) (b : SReg) (s : State) : Res :=
  onStrand s fun p t =>
    let v := (t.s b).toNat
    let g : Word := BitVec.ofNat 64 (bits v 0 15)
    let n := bits v 32 9
    if n = 0 ∨ 256 < n then s.illegal p (.send d a b)
    else
      match (checkHead (t.w a) (s.ctxOf p) a.val rightS [0x05, 0x85]).or ((gCheck g 8 n).map fun c => (c, g)) with
      | some c => s.raise p c.1 c.2
      | none =>
        match s.fetchLocal p (0x38000 + g.toNat) n with
        | .wait l => s.stallFor p l
        | .poisoned o => s.uncorrected p (BitVec.ofNat 64 o)
        | .bytes data => s.sendMessage p t a (t.s d) data

/-- SENDV (R226): the element-order bytes of elements 0 to VL − 1, whatever the mask. -/
def execSendv (d : VReg) (a : RReg) (b : SReg) (s : State) : Res :=
  needLanes s (.sendv d a b) fun p t =>
    let n := t.vec.vl * (t.sewW / 8)
    if 256 < n then s.illegal p (.sendv d a b)
    else
      match checkHead (t.w a) (s.ctxOf p) a.val rightS [0x05, 0x85] with
      | some c => s.raise p c.1 c.2
      | none => s.withResident p t [srcReg d] fun u => s.sendMessage p u a (u.s b) (imageBytes (u.v d) n)

/-- The word that RECV returns of a message (R227). -/
def InboxSlot.word (m : InboxSlot) : Word :=
  BitVec.ofNat 64 (m.payload.length + 2 ^ 9 * m.fromStrand + 2 ^ 12 * m.fromCore + 2 ^ 32 * m.tag)

/-- The oldest message of an inbox for a strand: its slot. -/
def Core.oldestFor (x : Core) (k : Nat) : Option (Nat × InboxSlot) :=
  (sortBy (fun (e : Nat × InboxSlot) => e.2.order) (x.inbox.filter fun e => e.2.strand == k)).head?

/-- A message taken from its slot into G at an offset: the bytes are copied, the slot is freed, the acquire of its path
scope is made (R227, R254). -/
def State.takeMessage (s : State) (p : Place) (slot g : Nat) (m : InboxSlot) : State :=
  (s.modCore p.core fun x => { x.writeLocal (0x38000 + g) m.payload with inbox := mdel x.inbox slot }).acquireEffect p
    m.scope

/-- RECV (R227). -/
def execRecv (d a : SReg) (s : State) : Res :=
  onStrand s fun p t =>
    let g := t.s a
    match gCheck g 8 256 with
    | some c => s.raise p c g
    | none =>
      match (s.core p.core).oldestFor p.strand with
      | none => s.setStrand p (t.await s.now (.recv g.toNat) d)
      | some (k, m) => s.localAccess p (0x38000 + g.toNat) m.payload.length fun s =>
          (s.takeMessage p k g.toNat m).modStrand p fun t => (t.setS d m.word).complete

/-- A message given to a strand that waits in RECV (R311): it completes, or it issues again once the lines it writes are
free (R213). -/
def State.feedRecv (s : State) (p : Place) : State :=
  match (s.strand p).run, (s.strand p).wait with
  | .waiting, .recv g =>
    match (s.core p.core).oldestFor p.strand with
    | none => s
    | some (k, m) =>
      match (s.core p.core).localWait (some p.strand) (0x38000 + g) m.payload.length with
      | some l => s.stall p l
      | none => (s.takeMessage p k g m).modStrand p fun t => t.finish m.word
  | _, _ => s

end Sys2Proof.Machine
end

