-- ==== Sys2Proof/Machine/Arrive.lean ====
section
/-!
DEFINITION. Packets at their targets and answers at their senders (R209 to R211, R219, R222, R226, R234, R260, R261, R273 to R276,
R293, R310, R311, R364, R365, R370, R371, R400).
-/

namespace Sys2Proof.Machine

/-! ### Packets at a target -/

/-- Entries of a die's fault queue (R364). -/
def faultQueueMax : Nat := 256
/-- The period of keep-waiting notices (R364). -/
def keepWaitingClk : Nat := 6000

/-- An arrival parked in its die's fault queue, or NACKed when the queue is full (R364). -/
def State.park (s : State) (id : Nat) (k : Packet) : State :=
  let d := dieOf k.target
  let q := (s.die d).faultQueue
  if faultQueueMax ≤ q.length then s.nackAtTarget id k
  else
    let s1 := (s.dropPacket id).modDie d fun x => { x with faultQueue := q ++ [k] }
    if q.isEmpty then s1.after keepWaitingClk .keepWaitingTimer (.die d) else s1

/-- A packet of this module that waits for the answer that has come (R273): the NI that the answer names holds it under its number,
with the register and SEQ that the answer carries. -/
def State.awaited (s : State) (k : Packet) : Option Outstanding :=
  if k.module' = s.moduleId then
    (mget (s.core k.core).ni.out k.num).filter fun o => o.pkt.wreg == k.wreg && o.pkt.seq == k.seq
  else none

/-- A packet at its target NI, given to what applies it once the checks have passed. -/
def atTarget (s : State) (i : Instr) (f : State → Nat → Packet → State) : Res :=
  onPacket s fun id k =>
    match s.verdict k with
    | .apply => f (s.cacheKey k.target (s.keyCtx k)) id k
    | .refuse r => (s.dropPacket id).answer k (.refusal r) []
    | .discard => (s.dropPacket id).countDamage (dieOf k.target) k
    | .park => s.park id k
    | .wait => s.holdPacket id i
    | .again a payload => (s.dropPacket id).answer k a payload

/-- How many of a sending register's latest SEQs a target remembers (log 67, DESIGN CHOICE). -/
def seenKept : Nat := 2 ^ 16

/-- A packet applied: it leaves the fabric, its SEQs are remembered, and it is answered (R222, R260, R293). -/
def State.applied (s : State) (id : Nat) (k : Packet) (a : PKind) (payload : List Byte) (damage : Nat := 0) : State :=
  let s1 := (s.dropPacket id).modCore k.target fun x => { x with ni := { x.ni with
    seen := k.ids.foldl (fun (m : SMap (List (Nat × PKind × List Byte))) e =>
      mset m (k.senderAt e.1) (((e.2, a, payload) :: mgetD m (k.senderAt e.1) []).take seenKept)) x.ni.seen } }
  s1.answer k a payload damage

/-! ### Remote accesses (R224, R225, R245, R262) -/

/-- The operation that an op code of RAMO selects (R224). -/
def ramoOp (op : Nat) : AmoOp :=
  match op with
  | 0 => .add
  | 1 => .swap
  | 2 => .cas
  | 3 => .min
  | 4 => .max
  | 5 => .and
  | 6 => .or
  | _ => .xor

/-- The local offset of a unit of an endpoint W, A, C or G. -/
def Packet.local' (k : Packet) (u : Nat) : Nat := bufBase (wEndp k.word) + u

/-- REMOTE_ACCESS_ARRIVAL (R274): applied as one event; it waits for locked bays, pending lines and scrubs (R51, R55, R77) (log 70, DEDUCED). -/
def execRemoteAccessArrival (s : State) : Res :=
  atTarget s .remoteAccessArrival fun s id k =>
    let c := k.target
    let x := s.core c
    let b := wBase k.word
    match k.units.findSome? fun e => x.localWait none (k.local' e.1) e.2 with
    | some _ => s.holdPacket id .remoteAccessArrival
    | none =>
      let bad := k.units.any fun e => x.localPoisoned (k.local' e.1) e.2
      match k.kind with
      | .rld off => s.applied id k (.resp 0) (x.readLocal (k.local' (b + off)) 8) (if bad then 2 else 0)
      | .rldv n offs =>
        s.applied id k (.resp 0) (offs.map fun o => x.readLocal (k.local' (b + o)) n).flatten (if bad then 2 else 0)
      | .rst off => (s.modCore c fun x => x.writeLocal (k.local' (b + off)) k.payload).applied id k .ack []
      | .rstf off =>
        ((s.modCore c fun x => x.feFill (b + off) (BitVec.ofNat 64 (leNat k.payload))).applied id k .ack []).feEvent c (b + off)
      | .ramo off op o e =>
        let old := x.readLocal (k.local' (b + off)) 8
        let y := match amoBytes (ramoOp op) 8 old o e with
          | some v => x.writeLocal (k.local' (b + off)) v
          | none => x
        if bad then s.applied id k (.resp 0) old 2 else (s.setCore c y).applied id k (.resp 0) old
      | .rstv n offs =>
        (s.modCore c fun x => (offs.zipIdx).foldl (fun (x : Core) e =>
          x.writeLocal (k.local' (b + e.1)) ((k.payload.drop (n * e.2)).take n)) x).applied id k .ack []
      | .cpy offs _ _ =>
        (s.modCore c fun x => (offs.zip k.payload).foldl (fun (x : Core) e =>
          x.writeLocalByte (k.local' (b + e.1)) e.2) x).applied id k .ack []
      | _ => s

/-! ### Messages (R310, R311) and posted packets (R304) -/

/-- Slots of an inbox (R310). -/
def inboxSlots : Nat := 32

/-- Whether an inbox takes a message for a strand: it is bound, and what stays free keeps two for every other bound strand
(R310). -/
def Core.inboxTakes (x : Core) (k : Nat) : Bool :=
  let owed := ((x.strands.filter fun e => e.1 != k && e.2.run != .unbound).map fun e =>
    2 - (x.inbox.filter fun m => m.2.strand == e.1).length).sum
  (x.strand k).run != .unbound && owed + 1 + x.inbox.length ≤ inboxSlots

/-- The core number that RECV shows of a sender (R227): a fabric manager core stands at (64, 80) of its die. -/
def State.shownCore (s : State) (k : Packet) : Nat :=
  if k.module' ≠ s.moduleId then 0xFFFFF else switchOf k.core

/-- MESSAGE_ARRIVAL (R311). -/
def execMessageArrival (s : State) : Res :=
  atTarget s .messageArrival fun s id k =>
    match k.kind with
    | .send n tag =>
      let x := s.core k.target
      match x.inboxTakes n, mfree x.inbox inboxSlots with
      | true, some slot =>
        let m : InboxSlot :=
          { strand := n, order := x.inboxOrder, payload := k.payload, fromStrand := k.strand, fromCore := s.shownCore k,
            tag := tag, scope := pathScope k.word }
        let p : Place := { core := k.target, strand := n }
        let s1 := s.modCore k.target fun x => { x with inbox := mset x.inbox slot m, inboxOrder := x.inboxOrder + 1 }
        (((s1.setUip p uipMsg).modStrand p Strand.endSleep).feedRecv p).applied id k .ack []
      | _, _ => s.nackAtTarget id k
    | _ => s

/-- The TASKIDs that a manager core's queue serves (R324, R361). -/
def taskLaunch : Nat := 0xFFFFFF00

/-- A packet that reaches a fabric manager core's queue (R324, R361): a launch request joins the launcher of the sending core's die; a page
maintenance request is due; any other is discarded. -/
def State.managerPacket (s : State) (k : Packet) (w : WorkPacket) : State :=
  let d := dieOf (if k.module' = s.moduleId then k.core else k.target)
  let ctx := wOwner k.word
  let g : Given := .maint ctx d k.core (WorkPacket.taskid w) (WorkPacket.arg w 0) (WorkPacket.arg w 1) (WorkPacket.arg w 3)
  match WorkPacket.taskid w with
  | 0xFFFFFF00 =>
    (s.modDie d fun x => { x with
      launches := x.launches ++ [{ ctx := ctx, desc := WorkPacket.entry w, host := none, began := false, fault := none }] }).later .kernelLaunch (.die d)
  | 0xFFFFFF01 => s.later .shootdown g
  | 0xFFFFFF02 => s.later .evict g
  | 0xFFFFFF03 => s.later .destroyKeySlot g
  | 0xFFFFFF04 => s.later .generateKeySlot g
  | 0xFFFFFF05 => s.later .skimPage g
  | _ => s.later .maintRequestDiscard g

/-- TASK_PACKET_ARRIVAL (R304). -/
def execTaskPacketArrival (s : State) : Res :=
  atTarget s .taskPacketArrival fun s id k =>
    let w : WorkPacket := BitVec.ofNat 512 (leNat k.payload)
    if isManager k.target then (s.applied id k .ack []).managerPacket k w
    else
      match mfree (s.core k.target).queue 64 with
      | none => s.nackAtTarget id k
      | some n =>
        if s.foreignCounter k.target (s.core k.target).owner.id w then (s.dropPacket id).answer k (.refusal 2) []
        else (s.applied id k .ack []).enqueue k.target n w (pathScope k.word)

/-- The groups whose root is a core are REVOKED, its barrier port having been revoked (R338). -/
def State.revokeGroups (s : State) (c : Nat) : State :=
  match (s.core c).kern with
  | none => s
  | some k =>
    match mget s.kernels k with
    | none => s
    | some q => { s with kernels := mset s.kernels k { q with
        groups := mmap (fun _ (g : Group) =>
          if (g.members.head?.map (·.core)) = some c then { g with revoked := true } else g) q.groups } }

/-- PORT_GEN_ADVANCE (R219, R275): a closed port stays closed and answers all ones. -/
def execPortGenAdvance (s : State) : Res :=
  atReceiver s fun s id k =>
    match k.kind with
    | .wgen target port =>
      let g := (s.core target).ni.port port
      if g = 0xFFFF then (s.dropPacket id).answer k (.resp 0) (List.replicate 8 0xFF)
      else
        let s1 := (s.dropPacket id).modCore target fun x => { x with ni := { x.ni with ports := mput 0 x.ni.ports port (g + 1) } }
        (if port = 7 then s1.revokeGroups target else s1).answer k (.resp 0) (leBytes 8 (g + 1))
    | _ => s

/-! ### Answers at the sender -/

/-- Elements of a vector register replaced by response bytes. -/
def fillElems (v : VImage) (size : Nat) : List Nat → List Byte → VImage
  | [], _ => v
  | i :: r, b => fillElems (setElem v (8 * size) i (leNat (b.take size))) size r (b.drop size)

/-- A packet at the NI of the strand that waits for it is settled (R209). Of a strand that no longer waits for the operation, a packet
alone is settled, which another packet's refusal has ended (R210). -/
def State.waitsFor (s : State) (p : Place) (op : Nat) : Bool := (s.strand p).wait == .remote op

/-- Every entry of a strand's operation leaves its NI. -/
def State.settleOp (s : State) (c op : Nat) : State :=
  (mkeys ((s.core c).ni.out.filter fun e => e.2.pkt.op == op)).foldl (fun s n => s.settle c n) s

/-- A waiting operation completed once every packet of it has its response (R209, R224, R225, R254). -/
def State.completeRemote (s : State) (p : Place) (op : Nat) : State :=
  let mine := (s.core p.core).ni.out.filter fun e => e.2.pkt.op == op
  if mine.any fun e => e.2.got.isNone then s
  else
    let t := s.strand p
    let s1 := s.settleOp p.core op
    match mine.head? with
    | none => s
    | some (_, o) =>
      match t.wait, o.pkt.kind with
      | .remote n, .rldv size _ =>
        if n ≠ op then s1
        else
          let d : VReg := Fin.ofNat 64 o.dest
          let v := mine.foldl (fun (v : VImage) e => fillElems v size e.2.elems (e.2.got.getD [])) (t.v d)
          s1.setStrand p { (t.wake.setV d v) with vec := t.vec.setVstart 0 0 }.complete
      | .remote n, .ramo .. =>
        if n ≠ op then s1
        else (s1.setStrand p (t.finish (BitVec.ofNat 64 (leNat (o.got.getD []))))).acquireEffect p (pathScope o.pkt.word)
      | .remote n, _ =>
        if n ≠ op then s1 else s1.setStrand p (t.finish (BitVec.ofNat 64 (leNat (o.got.getD []))))
      | _, _ => s1

/-- RESPONSE_ARRIVAL (R209, R219). A response that fails its GCM check is discarded and counted (R371). -/
def execResponseArrival (s : State) : Res :=
  atReceiver s fun s id k =>
    let p : Place := { core := k.core, strand := k.strand }
    let s1 := s.dropPacket id
    if k.word = 0 then
      (let t := s.strand p
       if t.wait = .answer then s1.setStrand p (t.finish (BitVec.ofNat 64 (leNat k.payload))) else s1)
    else
      match s.awaited k with
      | none => s1
      | some o =>
        if s1.waitsFor p o.pkt.op then (s1.modOut k.core k.num fun o => { o with got := some k.payload }).completeRemote p o.pkt.op
        else s1.settle k.core k.num

/-- ACKNOWLEDGEMENT_ARRIVAL (R260): a posted packet is settled; a copy engine's write has landed (R203); a moved task packet
frees its entry (R302). -/
def execAcknowledgementArrival (s : State) : Res :=
  atReceiver s fun s id k =>
    let s1 := s.dropPacket id
    match k.kind with
    | .moveDone n => s1.modCore k.target fun x => { x with
        queue := mfilter (fun m (e : TaskEntry) => !(m == n && e.state == .moving && e.sent)) x.queue }
    | _ =>
      match s.awaited k with
      | none => s1
      | some o =>
        match o.pkt.kind with
        | .cpy _ slot u => (s1.settle k.core k.num).unitLanded k.core slot u true
        | _ => s1.settle k.core k.num

/-- A failure recorded on a route register (R210). -/
def Strand.recordFail (t : Strand) (wreg reason : Nat) : Strand :=
  if t.run = .unbound ∨ wreg = 0 ∨ 16 ≤ wreg then t
  else { t with routeFails := mset t.routeFails wreg (min 0xFFFF ((mgetD t.routeFails wreg (0, 0)).1 + 1), reason) }

/-- A strand changed, if it is bound. -/
def State.modBound (s : State) (p : Place) (f : Strand → Strand) : State :=
  if (s.strand p).run = .unbound then s else s.modStrand p f

/-- A refusal applied at the sender (R210, R273, R297, R339, R343): the record counts it; a waiting operation traps
ROUTE-REVOKED, a posted one sets UIP.ROUTEFAIL, a copy command fails (log 69, DEDUCED). Of a waiting operation of several packets the
first refusal traps, and each is counted. -/
def State.refuseOut (s : State) (c num reason : Nat) : State :=
  match mget (s.core c).ni.out num with
  | none => s
  | some o =>
    let k := o.pkt
    let p : Place := { core := c, strand := k.strand }
    let s1 := s.modBound p fun t => t.recordFail k.wreg reason
    let trap := fun (s : State) => s.raise p causeRouteRevoked (BitVec.ofNat 64 k.wreg)
    match k.kind with
    | .cpy _ slot u => (((s1.settle c num).failCopy c slot 3).unitLanded c slot u false).setUip p uipRoutefail
    | .rld .. | .ramo .. | .rldv .. =>
      let done := mkeys ((s1.core c).ni.out.filter fun e => e.2.pkt.op == k.op && e.2.got.isSome)
      let s2 := (num :: done).foldl (fun s n => s.settle c n) s1
      if s2.waitsFor p k.op then trap s2 else s2
    | .arrive g _ _ =>
      let s2 := (s1.settle c num).modCore c fun x => x.unarrive g k.strand
      match (s2.strand p).run, (s2.strand p).wait with
      | .waiting, .barrier h kind _ => if h = g ∧ kind ≠ 1 then trap s2 else s2.setUip p uipRoutefail
      | _, _ => s2.setUip p uipRoutefail
    | .watch g _ | .withdraw g _ _ =>
      let s2 := s1.settle c num
      match (s2.strand p).run, (s2.strand p).wait with
      | .waiting, .barrier h _ _ => if h = g then trap s2 else s2
      | _, _ => s2
    | .wlease h since =>
      let s2 := s1.settle c num
      match mget (s2.core c).leases h with
      | some l => if l.state = .requested ∧ l.reqNo = since then (s2.endLease c h .expired (some 0)).setUip p uipRoutefail else s2
      | none => s2
    | _ => (s1.settle c num).setUip p uipRoutefail

/-- REFUSAL_ARRIVAL (R273): only the NI that CORE and MODULE name accepts it. The refusal of a packet without a route word, which WGEN
waits for, traps with TVAL 0 (log 20, DESIGN CHOICE). -/
def execRefusalArrival (s : State) : Res :=
  atReceiver s fun s id k =>
    let p : Place := { core := k.core, strand := k.strand }
    let s1 := s.dropPacket id
    if k.word = 0 then (if (s1.strand p).wait = .answer then s1.raise p causeRouteRevoked 0 else s1)
    else
      match k.kind, s.awaited k with
      | .refusal r, some _ => s1.refuseOut k.core k.num r
      | _, _ => s1

/-! ### NACKs (R211, R222) -/

/-- The next remaining member of a sheaf after a register, in register order and wrapping (R222). -/
def nextMember (ms : List (Nat × RouteWord)) (wreg : Nat) : Option (Nat × RouteWord) :=
  let rest := ms.filter fun m => m.1 != wreg
  (rest.find? fun m => wreg < m.1).or rest.head?

/-- The members with one that is dropped replaced by another at its places, so that its chunks go there (R222). -/
def dropMember (ms : List (Nat × RouteWord)) (wreg : Nat) (m : Nat × RouteWord) : List (Nat × RouteWord) :=
  ms.map fun e => if e.1 = wreg then m else e

/-- A chunk that was dealt to a member that is dropped sent on the next remaining one (R222). In an ordered delivery it keeps its number,
and with it its turn (R261); its target knows it by the registers and SEQs that it had (Packet.origins). -/
def State.reDeal (s : State) (c num : Nat) : State :=
  match mget (s.core c).ni.out num with
  | none => s
  | some o =>
    let k := o.pkt
    match nextMember o.members k.wreg with
    | none => s
    | some m =>
      let s1 := s.modCore c fun x => { x with ni := { x.ni with
        out := mmap (fun _ (q : Outstanding) => if q.pkt.op = k.op then { q with members := dropMember q.members k.wreg m } else q)
          (mdel x.ni.out num) } }
      let s2 := match k.kind with
        | .cpy _ slot _ => s1.modCopy c slot fun q => { q with members := dropMember q.members k.wreg m }
        | _ => s1
      s2.sendNumbered { core := c, strand := k.strand } k.op (if k.ordered then num else (s2.core c).ni.serial)
        { word := m.2, wreg := m.1, kind := k.kind, payload := k.payload, chunk := k.chunk, ordered := k.ordered,
          waiting := o.waiting, dest := o.dest, elems := o.elems, members := dropMember o.members k.wreg m, origins := k.ids }

/-- A NACKed chunk of a sheaf, and every later chunk that was dealt to its member, resent on the next remaining member, which from now
on also takes the dropped member's later chunks (R222). The dropped register leaves its sheaf, and its record and UIP.ROUTEFAIL say so;
of a register that has left it already the chunk alone goes on. -/
def State.failOver (s : State) (c num : Nat) (o : Outstanding) (reason : Nat) : State :=
  let k := o.pkt
  let p : Place := { core := c, strand := k.strand }
  let s1 :=
    if mhas (s.strand p).sheaves k.wreg then (s.modBound p fun t => (t.recordFail k.wreg reason).leaveSheaf k.wreg).setUip p uipRoutefail
    else s
  let later := (s1.core c).ni.out.filter fun e =>
    e.2.pkt.strand == k.strand && e.2.pkt.wreg == k.wreg && decide (num ≤ e.1) && e.2.got.isNone && (nextMember e.2.members k.wreg).isSome
  ((mkeys later).foldl (fun s n => s.reDeal c n) s1).releaseHeld c k.strand k.wreg

/-- The back-off before the resend that follows the k-th NACK (R211). -/
def backoff (k : Nat) : Nat := 64 * 2 ^ min (k - 1) 10

/-- A packet that the balancer moves has been NACKed by a link (R287): it goes again after the back-off of R211, and after the 64th NACK
it stays at its source. -/
def State.nackMove (s : State) (c n : Nat) : State :=
  match mget (s.core c).queue n with
  | none => s
  | some e =>
    if e.state ≠ .moving ∨ !e.sent then s
    else
      let k := e.nacks + 1
      let e' : TaskEntry :=
        if 64 ≤ k then { e with state := .eligible, sent := false, dest := 0, nacks := 0 } else { e with sent := false, nacks := k, notBefore := s.now + backoff k }
      let s1 := s.modCore c fun x => { x with queue := mset x.queue n e' }
      if 64 ≤ k then s1.serveTakers c else s1.after (backoff k) .migrationSend (.core c)

/-- NACK_ARRIVAL (R211, R222, R287): NACKs of a target and of narrowed links are counted together, and the 64th gives the reason (log 93,
DESIGN CHOICE). -/
def execNackArrival (s : State) : Res :=
  atReceiver s fun s id k =>
    match k.kind with
    | .moveNacked n => (s.dropPacket id).nackMove k.target n
    | .nack narrowed =>
      let s1 := s.dropPacket id
      match s.awaited k with
      | none => s1
      | some o =>
        let reason := if narrowed then 5 else 4
        match nextMember o.members o.pkt.wreg with
        | some _ => s1.failOver k.core k.num o reason
        | none =>
          let n := o.nacks + 1
          if 64 ≤ n then s1.refuseOut k.core k.num reason
          else
            (s1.modOut k.core k.num fun o => { o with
              nacks := n, narrowed := narrowed, inFlight := false, resendAt := some (s.now + backoff n) }).after (backoff n)
              .nackResend (.item k.core k.num)
    | _ => s

/-- NACK_RESEND (R211): the packet goes again, unless an earlier one has still to wait, and what was held behind it follows. -/
def execNackResend (s : State) : Res :=
  onItem s fun c num =>
    match mget (s.core c).ni.out num with
    | none => s
    | some o =>
      match o.resendAt with
      | none => s
      | some n => if s.now < n then s else s.releaseHeld c o.pkt.strand o.pkt.wreg

/-! ### Waiting for parked packets (R364, R365) -/

/-- KEEP_WAITING_TIMER (R364): a notice to the sender of every parked packet, again after 6,000 clk. -/
def execKeepWaitingTimer (s : State) : Res :=
  match s.given with
  | .die d =>
    .next (
      let q := (s.die d).faultQueue
      if q.isEmpty then s
      else (q.foldl (fun s k => s.answer k .keepWaiting []) s).after keepWaitingClk .keepWaitingTimer (.die d))
  | _ => .fault .stepOperands

/-- KEEP_WAITING_NOTICE (R365): the sender's response timer begins anew. -/
def execKeepWaitingNotice (s : State) : Res :=
  atReceiver s fun s id k =>
    match s.awaited k with
    | none => s.dropPacket id
    | some _ =>
      ((s.dropPacket id).modOut k.core k.num fun o => { o with timerFrom := s.now }).after responseClk .responseTimerExpiry
        (.item k.core k.num)

/-- RESPONSE_TIMER_EXPIRY (R365): the packet is sent again with its SEQ unchanged, after any earlier one of its register that waits to be
resent (R211). -/
def execResponseTimerExpiry (s : State) : Res :=
  onItem s fun c num =>
    match mget (s.core c).ni.out num with
    | none => s
    | some o =>
      if !o.inFlight || o.got.isSome || s.now < o.timerFrom + responseClk then s
      else
        (s.modOut c num fun o => { o with inFlight := false, resendAt := some s.now }).releaseHeld c o.pkt.strand o.pkt.wreg

/-- RECOVERY_SINK_APPLY (R293): the NI takes the first packet of its sink as though it had arrived normally. -/
def execRecoverySinkApply (s : State) : Res :=
  onCore s fun c x =>
    match x.ni.sink with
    | [] => s
    | k :: r => (s.modCore c fun y => { y with ni := { y.ni with sink := r } }).inject k k.kind.arrival

end Sys2Proof.Machine
end

