-- ==== Sys2Proof/Machine/LinkEv.lean ====
section
/-!
DEFINITION. Links that fail (R281, R282, R287 to R289), re-minting (R288), dark channels (R295), and recovery from deadlock
(R290 to R293).
-/

namespace Sys2Proof.Machine

/-- Entries of a link's receive buffer (R282). -/
def linkEntries (l : Nat) : Nat := if 4 * managerBase + 96 ≤ l then 1024 else 32

/-- The places at the ends of a link, near and far; a fibre's far end is on another module. -/
def linkPlaces (l : Nat) : Option (Loc × Loc) :=
  if l < 4 * managerBase then some (.switch (l / 4), .switch (nextSwitch (l / 4) (l % 4 + 1)))
  else if l < 4 * managerBase + 96 then
    (let n := (l - 4 * managerBase) / 2
     let c : Loc := .switch (coreAt (n / 3) (portCol (n % 3)) 0)
     some (if l % 2 = 0 then (c, .gateway) else (.gateway, c)))
  else none

/-- The cores at the ends of a link. -/
def linkEnds (l : Nat) : List Nat :=
  match linkPlaces l with
  | some (a, b) => [a, b].filterMap Loc.core
  | none => []

/-- The time that re-minting takes: 100 µs (R288). -/
def remintClk : Nat := 100 * clkPerUs

/-- A link enters NARROWED or DOWN: Linane will put a detour in place and re-mint the words that cross it (R288). -/
def State.failLink (s : State) (l : Nat) (st : LinkState) : State :=
  { s with links := mset s.links l { s.link l with state := st } }.after remintClk .routeRemint (.link l)

/-- A packet whose flits are in the buffers of a link that goes DOWN is lost (R289): a request is refused. -/
def State.loseOn (s : State) (l : Nat) : State :=
  match linkPlaces l with
  | none => s
  | some (a, b) =>
    (s.packets.filter fun e => e.2.loc == b && e.2.port == some a).foldl (fun s e =>
      (s.dropPacket e.1).refuseDropped e.2) s

/-- A link goes DOWN (R289): a level-2 alarm for each context that owns a core at either end. -/
def State.linkDown (s : State) (l : Nat) : State :=
  let ctxs := ((linkEnds l).map fun c => (s.core c).owner.id).eraseDups.filter (· != 0)
  ((s.failLink l .down).loseOn l).raiseAlarm 2 trigLink ctxs

/-- The state of a link that has so many usable entries (R281). -/
def entryState (left : Nat) : LinkState := if left < 4 then .down else if left < 8 then .narrowed else .up

/-- A buffer entry of a link retired, which may narrow the link or take it down (R281). -/
def State.retireEntry (s : State) (l : Nat) : State :=
  let k := s.link l
  let r := k.retired + 1
  let s1 : State := { s with links := mset s.links l { k with failures := 0, retired := r } }
  match k.state, entryState (linkEntries l - r) with
  | .up, .narrowed => s1.failLink l .narrowed
  | .up, .down | .narrowed, .down => s1.linkDown l
  | _, _ => s1

/-- LINK_RETRY (R282): a flit fails its check and is resent; the sixteenth failure in a row retires the receiving entry. Given a
packet too, SECDED has found an uncorrected error in the entry that holds a flit of it (R281): the entry is retired, the packet
is poisoned, and so is the context that its data belongs to (R373). -/
def execLinkRetry (s : State) : Res :=
  match s.given with
  | .link l =>
    .next (
      let k := s.link l
      if k.failures < 15 then { s with links := mset s.links l { k with failures := k.failures + 1 } } else s.retireEntry l)
  | .item l id =>
    .next (match mget s.packets id with
      | none => s.retireEntry l
      | some k => (({ s with packets := mset s.packets id { k with damage := 2 } }).retireEntry l).poisonContext
          (if k.word = 0 then k.ctx else s.senderCtx k) { core := k.core, strand := k.strand } 0)
  | _ => .fault .stepOperands

/-! ### Re-minting (R288) -/

/-- The links along hops in one direction, and the switch they end at. -/
def hopLinks (d : Nat) : Nat → Nat → List Nat × Nat
  | 0, c => ([], c)
  | n + 1, c =>
    let r := hopLinks d n (nextSwitch c d)
    (meshLink c d :: r.1, r.2)

/-- The mesh links along segments. -/
def segLinks : List (Nat × Nat) → Nat → List Nat
  | [], _ => []
  | (d, n) :: r, c =>
    let h := hopLinks d n c
    h.1 ++ segLinks r h.2

/-- The links along a lead from a switch: in X, and then in Y (R269). -/
def leadLinks (c : Nat) (dx dy : Int) : List Nat :=
  let h := hopLinks (if 0 ≤ dx then 1 else 2) dx.natAbs c
  h.1 ++ (hopLinks (if 0 ≤ dy then 4 else 3) dy.natAbs h.2).1

/-- The links of this module that packets on a PATH cross, from a core (R267, R269, R288): the lead, to the target of the local shape or to
the switch of the GATE port, and what follows it. -/
def pathLinks (c path : Nat) : List Nat :=
  let a := switchOf c
  match liveSegs path with
  | (5, p) :: r =>
    leadLinks a ((portCol p : Int) - xOf a) (0 - (yOf a : Int)) ++ portOutLink (dieOf c) p ::
      (match r with
       | (7, n) :: r => portInLink (n % 16) (bits n 4 2) :: segLinks r (coreAt (n % 16) (portCol (bits n 4 2)) 0)
       | _ => [])
  | _ =>
    match walkPath path 0 with
    | some e => leadLinks a ((pxOf e.core : Int) - pxOf a) ((pyOf e.core : Int) - pyOf a)
    | none => []

/-- Ways of going so many hops along X and Y. -/
def meshForms (dx dy : Int) : List (List (Nat × Nat)) :=
  [horizontal dx ++ vertical dy, vertical dy ++ horizontal dx] ++
  (([1, -1] : List Int).map fun d =>
    [vertical d ++ horizontal dx ++ vertical (dy - d), horizontal d ++ vertical dy ++ horizontal (dx - d)]).flatten

/-- PATHs to where a path leads, from a core. On the module itself the local shape leads there one way, and the gateway shape without FIB
segments others. -/
def pathsTo (c : Nat) (e : PathEnd) : List Nat :=
  let t := switchOf e.core
  let fibs := e.fibs.map fun f => (6, 32 * f.1 + f.2)
  (if fibs.isEmpty then [localPath t] else []) ++
  ((e.gate.toList ++ [gateFor c, 0, 1, 2]).map fun g => (([gateFor t, 0, 1, 2] : List Nat).map fun p =>
    (meshForms ((xOf t : Int) - portCol p) (yOf t)).map fun m =>
      packPath ((5, g) :: fibs ++ (7, dieOf t + 16 * p) :: m)).flatten).flatten

/-- Whether two PATHs lead to the same place over the same fibres. -/
def sameEnd (p q endp : Nat) : Bool :=
  match walkPath p endp, walkPath q endp with
  | some a, some b => a.core == b.core && a.fibs == b.fibs && (a.fibs.isEmpty || a.gate.isSome == b.gate.isSome)
  | _, _ => false

/-- A PATH that replaces a word's and crosses no link that is not UP (R288). -/
def State.pathAround (s : State) (c : Nat) (w : RouteWord) : Option Nat :=
  (walkPath (wPath w) (wEndp w)).bind fun e => (pathsTo c e).find? fun path =>
    sameEnd path (wPath w) (wEndp w) && (pathLinks c path).all fun l => (s.link l).state == .up

/-- The re-minting of a strand's words whose PATH crosses a link: each is due as an event of its own. -/
def State.remintStrand (s : State) (l : Nat) (p : Place) (t : Strand) : State :=
  t.routes.foldl (fun s e =>
    if (pathLinks p.core (wPath e.2)).contains l then
      (match s.pathAround p.core e.2 with
       | some path => s.later .routeRemint (.register p e.1 (BitVec.ofNat 120 path))
       | none => s)
    else s) s

/-- A local-shape word of a context toward a port of a core, with the port's current generation (R277). -/
def State.localWord (s : State) (ctx target endp base len rights flags : Nat) : RouteWord :=
  mint s.fabricKey (rawRoute (localPath target) endp base len rights ((s.core target).ni.port endp) ctx flags)

/-- A word that a supervisor runtime may ask Linane for (R277, R324): toward a core of its context, toward the lease agent, or with right
S alone to the task queue of its die's fabric manager core. -/
def State.mayAsk (s : State) (p : Place) (target endp len rights : Nat) : Bool :=
  len != 0 && ((1 ≤ endp && endp ≤ 7 && (s.core target).owner.id == s.ctxOf p) || endp == 8 ||
    (endp == 0x86 && target == managerBase + dieOf p.core && rights == rightS))

/-- ROUTE_REMINT (R288): around a link, the detour of packets without a route word is put in place, and every word that crosses the
link is re-minted; for one register, only PATH and the TAG over it change, and only toward the same target. Under DUTYMODE.MINT the
host is asked for that word (R278). A request of a context's supervisor runtime is served here too: the word that it asks for is minted
into one of the strand's registers (R277, R324) (log 105, DESIGN CHOICE). -/
def execRouteRemint (s : State) : Res :=
  match s.given with
  | .link l =>
    .next (
      if (s.link l).state = .up then s
      else
        s.cores.foldl (fun s e => e.2.strands.foldl (fun s t => s.remintStrand l { core := e.1, strand := t.1 } t.2) s)
          { s with links := mset s.links l { s.link l with detour := true } })
  | .register p reg path =>
    .next (
      let t := s.strand p
      match mget t.routes reg with
      | none => s
      | some w =>
        let v := sealWord s.fabricKey (putBits w 0 120 path.toNat)
        if !sameEnd path.toNat (wPath w) (wEndp w) then s
        else if bit s.duty 2 then s.askMint p false (reg, v)
        else s.setStrand p { t with routes := mset t.routes reg v })
  | .askRoute p reg target endp base len rights flags =>
    .next (
      if (s.strand p).run = .unbound ∨ reg = 0 ∨ 16 ≤ reg ∨ !s.mayAsk p target endp len rights then s
      else
        let w := s.localWord (s.ctxOf p) target endp base len rights flags
        if bit s.duty 2 then s.askMint p false (reg, w) else s.modStrand p fun t => t.setW (Fin.ofNat 16 reg) w)
  | _ => .fault .stepOperands

/-- LANE_LOSS (R289) (log 60, DESIGN CHOICE). -/
def execLaneLoss (s : State) : Res :=
  match s.given with
  | .link l => .next (s.linkDown l)
  | _ => .fault .stepOperands

/-- CHANNEL_LOCK_LOSS (R281, R295). -/
def execChannelLockLoss (s : State) : Res :=
  match s.given with
  | .channel c => .next { s with dark := mset s.dark c () }
  | _ => .fault .stepOperands

/-! ### The recovery lane -/

/-- The die at which a packet stands; the gateway is one of its own. -/
def Loc.die : Loc → Nat
  | .switch c | .ni c => dieOf c
  | _ => gatewayDie

/-- BLOCKED_HEAD_TIMEOUT (R290). -/
def execBlockedHeadTimeout (s : State) : Res :=
  onPacket s fun id k =>
    if k.vc = 3 ∨ !k.queued ∨ !s.isHead id k ∨ s.now < k.blockedFrom + 4096 then s
    else ({ s with packets := mset s.packets id { k with flagged := true } }).modDie k.loc.die fun x => { x with flagged := true }

/-- Whether a packet that the token sent is still on its way to a sink (R292), on this module or over a fibre. -/
def State.tokenBusy (s : State) : Bool :=
  (match s.tokenPacket with
   | some id => mhas s.packets id
   | none => false) ||
  s.fibreOut.any fun e => e.2.vc == 3 && decide (s.now < e.1.lands)

/-- The position of a switch in the token's walk of its die (R291): west to east on even rows, east to west on odd ones. At the gateway
the packets in its queues come first and then the sinks of the fibre ports by their number (log 95, DESIGN CHOICE). -/
def walkOrder (l : Loc) : Nat :=
  match l with
  | .switch c => 128 * yOf c + (if yOf c % 2 = 0 then xOf c else 127 - xOf c)
  | .gateway | .ni _ => 0
  | .fibreSink f => f

/-- The packet that the token's visit of a die sends: at the first switch of the walk that has one, the packet that has been
blocked longest (R291, R292). -/
def State.tokenChoice (s : State) (d : Nat) : Option (Nat × Packet) :=
  (sortBy (fun (e : Nat × Packet) => walkOrder e.2.loc * 2 ^ 64 + e.2.blockedFrom)
    (s.packets.filter fun e => e.2.flagged && e.2.loc.die == d)).head?

/-- TOKEN_VISIT (R291, R292): at most one flagged packet of the die or of the gateway goes on VC3; the token then moves on (log 66, DESIGN CHOICE). -/
def execTokenVisit (s : State) : Res :=
  match s.given with
  | .die d =>
    .next (
      if s.tokenBusy then s.after 1 .tokenVisit (.die d)
      else
        let s1 := { s with tokenAt := (d + 1) % 17, tokenPacket := none }
        match s1.tokenChoice d with
        | none => s1.modDie d fun x => { x with flagged := false }
        | some (id, k) =>
          let s2 := { s1.modDie d fun x => { x with
            flagged := s.packets.any fun e => e.1 != id && e.2.flagged && e.2.loc.die == d } with tokenPacket := some id }
          match k.loc with
          | .fibreSink _ => s2.advancePacket id { k with vc := 3, loc := .gateway, port := some k.loc } .gatewayHeader
          | _ => { s2 with packets := mset s2.packets id { k with vc := 3, flagged := false } }.nextHead k)
  | _ => .fault .stepOperands

end Sys2Proof.Machine
end

