-- ==== Sys2Proof/Machine/LeaseEv.lean ====
section
/-!
DEFINITION. The lease agent's steps (R295 to R301).
-/

namespace Sys2Proof.Machine

/-- A step for a lease entry. -/
def onLease (s : State) (f : Nat → Nat → State) : Res :=
  match s.given with
  | .lease c h => .next (f c h)
  | _ => .fault .stepOperands

/-- The lease entry of a handle. -/
def State.lease (s : State) (c h : Nat) : Option Lease := mget (s.core c).leases h

/-- LEASE_REQUEST_ARRIVAL (R297): a request that still stands joins its direction's FIFO; the packet is acknowledged (log 58, DEDUCED).
It is the request of the entry's present WLEASE: that of one withdrawn meanwhile has no place in the FIFO. -/
def execLeaseRequestArrival (s : State) : Res :=
  onPacket s fun id k =>
    match k.kind with
    | .wlease h since =>
      let s1 := (s.dropPacket id).answer k .ack []
      match s.lease k.core h with
      | none => s1
      | some l =>
        let q := mgetD s1.fifos l.dir []
        if l.state ≠ .requested ∨ l.reqNo ≠ since ∨ q.contains (k.core, h) then s1
        else ({ s1 with fifos := mset s1.fifos l.dir (q ++ [(k.core, h)]) }).stirFifo l.dir
    | _ => s

/-- A grant of g channels on every fibre of the direction (R297 to R299): the retune to the lessee's index begins. -/
def State.grantLease (s : State) (c h g : Nat) (l : Lease) : State :=
  let n := s.grants + 1
  let chs := s.grantChannels l.dir l.reach g
  let s1 := (s.modLease c h fun l => { l with state := .granted, granted := g, channels := chs, grantNo := n }).leaveFifo c h
  (({ s1 with
    grants := n
    leased := chs.foldl (fun (m : SMap (Nat × Nat × Nat)) ch => mset m ch (16 * c + h, n, 0)) s1.leased }).emptyChannels chs).after
    retuneClk .retuneComplete (.lease c n)

/-- LEASE_GRANT (R297, R298): the head of its FIFO is granted what the rule gives, waits, ends when its index is dark, or is
passed to the host. -/
def execLeaseGrant (s : State) : Res :=
  onLease s fun c h =>
    match s.lease c h with
    | none => s
    | some l =>
      if l.state ≠ .requested ∨ (mgetD s.fifos l.dir []).head? ≠ some (c, h) then s
      else if s.indexAbsent l.dir l.reach then s.endLease c h .expired (some 0)
      else
        let g := s.grantable l.dir l.reach l.asked
        if g = 0 ∨ (s.dutyReqs.any fun e => e.2.isLeaseOf c h) then s
        else if bit s.duty 4 then
          ({ s with dutyReqs := mset s.dutyReqs (mnext s.dutyReqs) (.lease c h l.dir l.reach g (s.core c).owner.id) })
        else s.grantLease c h g l

/-- RETUNE_COMPLETE (R297, R301): a granted lease is ACTIVE and its term starts, or, released meanwhile, retunes back;
channels that have retuned back rejoin their default index, and the FIFO's head is looked at again (R298). -/
def execRetuneComplete (s : State) : Res :=
  onLease s fun c n =>
    let mine := s.leased.filter fun e => e.2.2.1 == n
    match mine.head? with
    | none => s
    | some (ch, who, _, phase) =>
      if phase = 2 then
        ({ s with leased := mfilter (fun _ v => v.2.1 != n) s.leased }).stirFifo (dirOf ch)
      else
        let h := who % 16
        match s.lease c h with
        | none => s.retuneBack c n
        | some l =>
          if l.state = .granted ∧ l.grantNo = n then
            let s1 := s.modLease c h fun l => { l with state := .active, endClk := s.now + l.term * clkPerUs }
            ({ s1 with leased := mmap (fun _ v => if v.2.1 == n then (v.1, n, 1) else v) s1.leased }).after
              (l.term * clkPerUs) .leaseTermExpiry (.lease c h)
          else s.retuneBack c n

/-- LEASE_TERM_EXPIRY (R297). -/
def execLeaseTermExpiry (s : State) : Res :=
  onLease s fun c h =>
    match s.lease c h with
    | none => s
    | some l =>
      if (l.state = .active ∧ l.endClk ≤ s.now) ∨ (l.state = .reclaiming ∧ l.endClk ≤ s.now) then s.endLease c h .expired none
      else s

/-- LEASE_REQUEST_TIMEOUT (R297): the term, counted from the WLEASE, has passed ungranted. -/
def execLeaseRequestTimeout (s : State) : Res :=
  onLease s fun c h =>
    match s.lease c h with
    | none => s
    | some l => if l.state = .requested ∧ l.reqClk + l.term * clkPerUs ≤ s.now then s.endLease c h .expired (some 0) else s

/-- Clk from a reclaim notice to the end of the lease (R297). -/
def reclaimClk : Nat := 2 * clkPerUs

/-- The ACTIVE leases of a direction that hold a channel of an index's default set, the latest granted first (R300). -/
def State.reclaimable (s : State) (dir j : Nat) : List (Nat × Nat × Lease) :=
  let all := (s.cores.map fun e => e.2.leases.map fun l => (e.1, l.1, l.2)).flatten
  (sortBy (fun (e : Nat × Nat × Lease) => e.2.2.grantNo) (all.filter fun e =>
    e.2.2.state == .active && e.2.2.dir == dir && e.2.2.channels.any fun ch => defaultIndex (ch % 32) == j)).reverse

/-- STARVATION_TIMEOUT (R300): the latest granted lease that holds a channel of the starved index enters RECLAIMING, and its
strand has notice; none does while a lease of the direction is RECLAIMING. -/
def execStarvationTimeout (s : State) : Res :=
  match s.given with
  | .starve dir j =>
    .next (
      if s.cores.any fun e => e.2.leases.any fun l => l.2.dir == dir && l.2.state == .reclaiming then s
      else
        match s.reclaimable dir j with
        | [] => s
        | (c, h, l) :: _ =>
          if l.endClk ≤ s.now then s
          else
            ((s.modLease c h fun l => { l with state := .reclaiming, reclaimed := true }).setUip
              { core := c, strand := l.strand } uipLease).after reclaimClk .reclaimExpiry (.lease c l.grantNo))
  | _ => .fault .stepOperands

/-- RECLAIM_EXPIRY (R297), by the number of the grant. -/
def execReclaimExpiry (s : State) : Res :=
  onLease s fun c n =>
    match mfind (fun _ (l : Lease) => l.grantNo == n && l.state == .reclaiming) (s.core c).leases with
    | none => s
    | some (h, _) => s.endLease c h .expired none

end Sys2Proof.Machine
end

