-- ==== Sys2Proof/Machine/QueueEv.lean ====
section
/-!
DEFINITION. Dependence counters (R307 to R309), aging (R306), and the balancer with the packets it moves (R302, R312 to R316).
-/

namespace Sys2Proof.Machine

/-! ### Counters -/

/-- A counter as an object whose steps have an order within a clk (R308): an arm, then SIGNAL, then a set. -/
def counterObject (d n : Nat) : Nat := 4 * (4096 * d + n) + 3

/-- A dependence counter of a die replaced. -/
def State.setCounter (s : State) (d n : Nat) (v : Counter) : State :=
  s.modDie d fun x => { x with counters := mput { value := 0, owner := 0xFFFF } x.counters n v }

/-- Whether a core's queue holds a WAITING packet on a counter (R309). -/
def Core.waitsOn (x : Core) (n : Nat) : Bool :=
  x.queue.any fun e => e.2.state == .waiting && WorkPacket.depctr e.2.packet == n

/-- The zero notices of a counter that has become 0 (R309), with the scope at which a TAKE that they free acquires (R254); the packets of
a suspended core wait in its saved queue. -/
def State.sendNotices (s : State) (d n scope : Nat) : State :=
  (s.cores.filter fun e => dieOf e.1 == d && (s.portCore e.1).waitsOn n).foldl (fun s e =>
    s.later .zeroNotice (.counter d n 0 e.1 scope)) s

/-- A step between a core and the station of a counter (R14) on its fixed path; while a link of that path is not open it is due again a
clk later (R286). -/
def State.viaStation (s : State) (core d n : Nat) (i : Instr) (go : State) : State :=
  if s.stationOpen core d (counterStation n) then go else s.after 1 i s.given

/-- A counter's new value, with the notices that a change from non-zero to 0 sends (R309). -/
def State.writeCounter (s : State) (d n scope : Nat) (old : Counter) (v : Nat) : State :=
  let s1 := s.setCounter d n { old with value := v }
  if old.value ≠ 0 ∧ v = 0 then s1.sendNotices d n scope else s1

/-- COUNTER_ARM (R308, R309): the sum saturates, and the arm is answered with it. -/
def execCounterArm (s : State) : Res :=
  match s.given with
  | .counter d n amount core arm =>
    .next (s.viaStation core d n .counterArm <|
      let c := (s.die d).counter n
      let v := min 0xFFFF (c.value + amount)
      (s.setCounter d n { c with value := v }).later .armAnswer (.counter d n v core arm))
  | _ => .fault .stepOperands

/-- COUNTER_SIGNAL (R235, R308): a counter at 0, or of another context, is left and answers all ones. -/
def execCounterSignal (s : State) : Res :=
  match s.given with
  | .signal d n ctx p answered scope =>
    .next (s.viaStation p.core d n .counterSignal <|
      let c := (s.die d).counter n
      let refused := c.owner ≠ ctx ∨ c.value = 0
      let s1 := if refused then s else s.writeCounter d n scope c (c.value - 1)
      let t := s1.strand p
      if answered ∧ t.wait = .answer then
        s1.setStrand p (t.finish (if refused then BitVec.allOnes 64 else BitVec.ofNat 64 (c.value - 1)))
      else s1)
  | _ => .fault .stepOperands

/-- The entry of a core whose arm of a number is unanswered (R309). -/
def Core.armed (x : Core) (arm : Nat) : Option (Nat × TaskEntry) := mfind (fun _ (e : TaskEntry) => e.arming == some arm) x.queue

/-- ARM_ANSWER (R309): the answer finds its packet by the number of the arm; a packet that a notice has freed already only loses
its unanswered arm. -/
def execArmAnswer (s : State) : Res :=
  match s.given with
  | .counter d n v core arm =>
    .next (s.viaStation core d n .armAnswer <| match (s.portCore core).armed arm with
      | none => s
      | some (entry, e) =>
          let e' := { e with arming := none, state := if e.state = .waiting ∧ v = 0 then TaskState.eligible else e.state }
          (s.modPort core fun x => { x with queue := mset x.queue entry e' }).serveTakers core)
  | _ => .fault .stepOperands

/-- ZERO_NOTICE (R302, R309): the packets that wait on the counter are ELIGIBLE; their TAKE acquires at the notice's scope. -/
def execZeroNotice (s : State) : Res :=
  match s.given with
  | .counter d n _ core scope =>
    .next (s.viaStation core d n .zeroNotice <| (s.modPort core fun x => { x with
      queue := mmap (fun _ (e : TaskEntry) =>
        if e.state = .waiting ∧ WorkPacket.depctr e.packet = n then
          { e with state := .eligible, acquire := max e.acquire scope }
        else e) x.queue }).serveTakers core)
  | _ => .fault .stepOperands

/-- TASK_AGING (R306). -/
def execTaskAging (s : State) : Res :=
  onItem s fun c n =>
    match mget (s.core c).queue n with
    | none => s
    | some e =>
      if e.prio = 0 ∨ s.cycle < e.stamp + agingClk then s
      else if e.state = .moving then s.after 1 .taskAging (.item c n)
      else
        (s.modCore c fun x => { x with
          queue := mset x.queue n { e with prio := e.prio - 1, stamp := s.cycle } }).after agingClk .taskAging (.item c n)

/-! ### The balancer -/

/-- Whether the balancer may move a packet (R312). -/
def TaskEntry.movable (e : TaskEntry) : Bool :=
  e.state == .eligible && !WorkPacket.pin e.packet && !WorkPacket.grpv e.packet

/-- FREE, ELIG and TAKERS of a core's occupancy word (R312). -/
def Core.freeEntries (x : Core) : Nat := 64 - x.queue.length
def Core.eligEntries (x : Core) : Nat := (x.queue.filter fun e => e.2.movable).length
def Core.takers (x : Core) : Nat := (x.strands.filter fun e => e.2.run == .waiting && e.2.wait == .take).length

/-- A core's occupancy word (R312). -/
def Core.occupancy (x : Core) : Nat := x.freeEntries + 2 ^ 8 * x.eligEntries + 2 ^ 16 * x.takers + 2 ^ 20 * x.tag

/-- What a round knows of a plot while it issues commands (R313). -/
structure BalRound where
  elig : List (Nat × Nat)
  cmds : List BalCmd
  stop : Bool
  deriving DecidableEq, Repr

/-- One receiver of a plot served (R313). -/
def BalRound.serve (b : BalRound) (r takers free : Nat) : BalRound :=
  if b.stop then b
  else
    match (sortBy (fun (e : Nat × Nat) => (64 - e.2) * 2 ^ 20 + e.1) b.elig).head? with
    | none => { b with stop := true }
    | some (d, n) =>
      if n < 2 then { b with stop := true }
      else
        let m := min (min (n / 2) takers) free
        if m = 0 then b
        else { b with
          elig := b.elig.map fun e => if e.1 = d then (d, n - m) else e
          cmds := b.cmds ++ [{ src := d, dst := r, n := m }] }

/-- The commands of a round for one plot's cores on a die (R313). -/
def plotCommands (cores : List (Nat × Core)) : List BalCmd :=
  let recv := cores.filter fun e => 0 < e.2.takers && e.2.eligEntries == 0
  let give := (cores.filter fun e => 2 ≤ e.2.eligEntries && e.2.takers == 0).map fun e => (e.1, e.2.eligEntries)
  (recv.foldl (fun (b : BalRound) e => b.serve e.1 e.2.takers e.2.freeEntries) { elig := give, cmds := [], stop := false }).cmds

/-- BALANCER_ROUND (R313, R316): nothing while the host balances. -/
def execBalancerRound (s : State) : Res :=
  match s.given with
  | .die d =>
    .next (
      if bit s.duty 3 then s
      else
        let mine := s.cores.filter fun e => dieOf e.1 == d && e.2.kern.isSome
        let tags := (sortBy id (mine.map fun e => e.2.tag)).eraseDups
        let cmds := ((tags.map fun t => plotCommands (mine.filter fun e => e.2.tag == t)).flatten).take 256
        cmds.foldl (fun s c => s.later .balanceCommand (.command d c)) s)
  | _ => .fault .stepOperands

/-- BALANCE_COMMAND (R314, R316): the movable packets that TAKE would select last become MOVING; a command across plots is
ignored. -/
def execBalanceCommand (s : State) : Res :=
  match s.given with
  | .command _ c =>
    .next (
      let x := s.core c.src
      if x.tag ≠ (s.core c.dst).tag ∨ x.kern.isNone then s
      else
        let order := (sortBy (fun (e : Nat × TaskEntry) => (e.2.prio * 2 ^ 64 + e.2.stamp) * 64 + e.1)
          (x.queue.filter fun e => e.2.movable)).reverse
        let chosen := (order.take c.n).map (·.1)
        if chosen.isEmpty then s
        else
          (s.modCore c.src fun x => { x with
            queue := mmap (fun n (e : TaskEntry) =>
              if chosen.contains n then { e with state := .moving, dest := c.dst, sent := false, nacks := 0, notBefore := 0 } else e) x.queue }).later
            .migrationSend (.core c.src))
  | _ => .fault .stepOperands

/-- MIGRATION_SEND (R314, R315): once the core's stores that came before the enqueue of a selected packet have left its store
buffer, the packets go, with SCOPE at least 3 and
ARM 0 (log 63, DEDUCED). -/
def execMigrationSend (s : State) : Res :=
  onCore s fun c x =>
    let ready := x.queue.filter fun e => e.2.state == .moving && !e.2.sent && e.2.notBefore ≤ s.now
    if ready.isEmpty then s
    else if ready.any fun e => x.drains < e.2.stores then s.after 1 .migrationSend (.core c)
    else
      ready.foldl (fun s e =>
        let w := e.2.packet
        let moved : WorkPacket := WorkPacket.put (WorkPacket.put w 50 3 (max 3 (WorkPacket.scope w))) 488 8 0
        (s.modCore c fun x => { x with queue := mset x.queue e.1 { e.2 with sent := true } }).sendFixed c 0 e.2.dest
          (.move e.2.dest e.1 { e.2 with packet := moved })) s

/-- MIGRATION_ARRIVAL (R302, R314, R315): stored with its PRIO and STAMP in a FREE entry, or refused. -/
def execMigrationArrival (s : State) : Res :=
  atReceiver s fun s id k =>
    match k.kind with
    | .move dst n e =>
      let s1 := s.dropPacket id
      match mfree (s.core dst).queue 64 with
      | none => s1.sendFixed dst 0 k.core (.moveRefused n)
      | some m =>
        let e' := { e with
          state := TaskState.eligible, acquire := max 3 e.acquire, arming := none, sent := false, dest := 0,
          stores := (s.core dst).drains + (s.core dst).sb.length }
        let s2 := (s1.modCore dst fun x => { x with queue := mset x.queue m e' }).ageIn (e.stamp + agingClk - s.cycle) dst m
        (s2.sendFixed dst 0 k.core (.moveDone n)).serveTakers dst
    | _ => s

/-- MIGRATION_REFUSED (R302): the packet is ELIGIBLE again at its source. -/
def execMigrationRefused (s : State) : Res :=
  atReceiver s fun s id k =>
    match k.kind with
    | .moveRefused n =>
      ((s.dropPacket id).modCore k.target fun x => { x with
        queue := mmap (fun m (e : TaskEntry) =>
          if m = n ∧ e.state = .moving then { e with state := .eligible, sent := false, dest := 0 } else e) x.queue }).serveTakers
        k.target
    | _ => s

end Sys2Proof.Machine
end

