-- ==== Sys2Proof/Machine/BarrierEv.lean ====
section
/-!
DEFINITION. Barrier units at their roots and the releases they send (R341 to R346, R348), and the limit of a wait (R345).
-/

namespace Sys2Proof.Machine

/-! ### Reductions (R348) -/

/-- An FP32 value of 32 bits rounded to nearest even from a sum. -/
def fp32Sum (a b : BitVec 32) : BitVec 32 :=
  BitVec.ofNat 32 (fFP32.round 0 (fadd 0 (fFP32.dec a.toNat) (fFP32.dec b.toNat))).1

/-- Two contributions of an operation combined (R232, R348). -/
def redCombine (op : Nat) (a b : BitVec 32) : BitVec 32 :=
  match op with
  | 0 => a + b
  | 1 => if a.toInt ≤ b.toInt then a else b
  | 2 => if a.toInt ≤ b.toInt then b else a
  | 3 => fp32Sum a b
  | 4 => BitVec.ofNat 32 (fminmax fFP32 false a.toNat b.toNat)
  | _ => BitVec.ofNat 32 (fminmax fFP32 true a.toNat b.toNat)

/-- The values of one operation combined one at a time. -/
def redAll (op : Nat) (l : List (BitVec 32)) : Option (BitVec 32) :=
  match l with
  | [] => none
  | v :: r => some (r.foldl (redCombine op) v)

/-- Two contributions, of which either may carry no value. -/
def redBoth (op : Nat) (a b : Option (BitVec 32)) : Option (BitVec 32) :=
  match a, b with
  | some v, some w => some (redCombine op v w)
  | some v, none => some v
  | none, r => r

/-- What an arrival contributes to a reduction: its members' values of that operation, combined as they were merged (R347, R348). -/
def Arrival.value (op : Nat) : Arrival → Option (BitVec 32)
  | .one _ v => v.bind fun v => if v.op = op then some v.value else none
  | .both a b => redBoth op (a.value op) (b.value op)

/-- The operation of an arrival. -/
def Arrival.op (a : Arrival) : Option Nat := a.members.findSome? fun m => m.2.map (·.op)

/-- A reduction's value as its result: any NaN of an FP32 operation is 0x7FC0_0000, also one that a single member gave
(R348). -/
def redResult (op : Nat) (v : BitVec 32) : BitVec 32 :=
  if 3 ≤ op ∧ fFP32.dec v.toNat = .nan then 0x7FC00000#32 else v

/-- The result of the arrivals counted at a root (R348). -/
def Barrier.result (b : Barrier) : Option RedVal :=
  b.op.bind fun op => (redAll op (b.counted.filterMap (Arrival.value op))).map fun v => { op := op, value := redResult op v }

/-- The arrivals that a root has counted in the phase. -/
def Barrier.count (b : Barrier) : Nat := (b.counted.map fun a => a.members.length).sum

/-! ### The root (R342) -/

/-- The member cores of a group, each once. -/
def Group.cores (g : Group) : List Nat := (g.members.map (·.core)).eraseDups

/-- A barrier unit at a root replaced. -/
def State.setBarrier (s : State) (c g : Nat) (b : Barrier) : State :=
  s.modPort c fun x => { x with barriers := mset x.barriers g b }

/-- The release of a phase (R342): to every member core; the unit returns to OPEN when the last flit has left. -/
def State.releaseBarrier (s : State) (c g : Nat) (b : Barrier) : State :=
  let phase := (b.phase + 1) % 2 ^ 32
  let s1 := s.setBarrier c g { b with state := .released, phase := phase }
  let cores := match s.groupOf c g with | some q => q.cores | none => []
  (cores.foldl (fun s m => s.sendFixed c 0 m (.release g phase b.result)) s1).later .barrierReleaseSent (.item c g)

/-- A unit whose count may have come to E (R342). -/
def State.checkBarrier (s : State) (c g : Nat) (b : Barrier) : State :=
  if 1 ≤ b.expected ∧ b.expected ≤ b.count then s.releaseBarrier c g b else s.setBarrier c g b

/-- An arrival counted (R342). -/
def State.countArrival (s : State) (c g : Nat) (b : Barrier) (a : Arrival) : State :=
  s.checkBarrier c g { b with state := .arriving, counted := b.counted ++ [a], op := b.op.or a.op }

/-- The part of an arrival that comes from members of a kind. -/
def Arrival.keep (f : Place → Bool) : Arrival → Option Arrival
  | .one p v => if f p then some (.one p v) else none
  | .both a b =>
    match a.keep f, b.keep f with
    | some x, some y => some (.both x y)
    | some x, none => some x
    | none, r => r

/-- The members whose arrivals in a phase the root has: those it has counted, unless that phase has been released, and those it holds. -/
def Barrier.has (b : Barrier) (phase : Nat) (p : Place) : Bool :=
  ((if b.state = .released ∧ phase = b.phase then b.heldArrivals else b.counted ++ b.heldArrivals).any fun h =>
    h.members.any fun n => n.1 == p)

/-- An arrival applied to a unit (R342): while it is RELEASED, the arrival is for the new phase. An arrival sent again counts once
(R293). -/
def State.arriveRoot (s : State) (c g phase : Nat) (b : Barrier) (a : Arrival) : State :=
  match a.keep fun p => !b.has phase p with
  | none => s
  | some x =>
    if b.state = .released then s.setBarrier c g { b with heldArrivals := b.heldArrivals ++ [x] } else s.countArrival c g b x

/-- The barrier unit of a group at its root, unless the group is REVOKED (R338). -/
def State.rootUnit (s : State) (c g : Nat) : Option Barrier :=
  if (s.groupOf c g).any fun q => q.revoked then none else mget (s.core c).barriers g

/-- BARRIER_ARRIVAL (R338, R342, R343). -/
def execBarrierArrival (s : State) : Res :=
  atTarget s .barrierArrival fun s id k =>
    match k.kind with
    | .arrive g phase a =>
      match s.rootUnit k.target g with
      | none => (s.dropPacket id).answer k (.refusal 1) []
      | some b => (s.applied id k .ack []).arriveRoot k.target g phase b a
    | _ => s

/-- BARRIER_RELEASE_SENT (R342, R344): OPEN again, with the members that left after arriving gone from E, and the arrivals
for the new phase applied. -/
def execBarrierReleaseSent (s : State) : Res :=
  onItem s fun c g =>
    match mget (s.portCore c).barriers g with
    | none => s
    | some b =>
      if b.state ≠ .released then s
      else
        let b' : Barrier := { b with
          state := .opened, counted := [], heldArrivals := [], op := none, expected := b.expected - b.leaving
          leaving := b.leavingNext, leavingNext := 0 }
        b.heldArrivals.foldl (fun s a =>
          match mget (s.portCore c).barriers g with
          | some b => s.arriveRoot c g b.phase b a
          | none => s) (s.setBarrier c g b')

/-! ### Members -/

/-- What a waiting GBAR, GRED or GWAIT writes when a release with this phase and result lands (R231, R232): none where the
wait goes on. A GRED whose operation has no value left, the one that gave it having been withdrawn, writes 0 (log 110, DESIGN CHOICE). -/
def barrierResult (kind : Nat) (since : BitVec 32) (phase : Nat) (r : Option RedVal) : Option Word :=
  match kind with
  | 0 => if phasePast phase since then some (BitVec.ofNat 64 phase) else none
  | 1 => if phasePast phase since then some (BitVec.ofNat 64 phase) else none
  | _ =>
    if phasePast phase since then
      (match r with
       | some v => some (if v.op < 3 then v.value.signExtend 64 else v.value.setWidth 64)
       | none => some 0)
    else none

/-- A release as it lands for one strand: a wait that it satisfies completes (R343). -/
def Strand.released (t : Strand) (g phase : Nat) (r : Option RedVal) : Strand :=
  match t.run, t.wait with
  | .waiting, .barrier h kind since =>
    if h ≠ g then t
    else
      match barrierResult kind since phase r with
      | some v => t.finish v
      | none => t
  | _, _ => t

/-- The arrived bits that stay as a phase comes: those of arrivals in that phase itself. -/
def BarrView.pending (v : BarrView) (phase : Nat) : SMap Nat := mfilter (fun _ n => !phasePast phase (BitVec.ofNat 32 n)) v.arrived

/-- A release as it lands at a core (R343): the local phase, the arrived bits and the waits that end. Each completion is an
acquire at scope plot. -/
def Core.landRelease (x : Core) (g phase : Nat) (r : Option RedVal) : Core :=
  { x with
    views := mset x.views g { phase := phase, arrived := (x.view g).pending phase, releasedSeen := true, held := none,
                              ahead := mfilter (fun _ n => phasePast n (BitVec.ofNat 32 phase)) (x.view g).ahead }
    strands := mmap (fun _ t => t.released g phase r) x.strands }

/-- What the answer to a watch does as a release for one strand (R343): the phase as that strand knows it, and its arrived bit (log 97,
DEDUCED). The core's own copy, which its other strands see, waits for the release. -/
def Core.watched (x : Core) (g phase k : Nat) : Core :=
  let v := x.view g
  let keep := match mget v.arrived k with
    | some n => !phasePast phase (BitVec.ofNat 32 n)
    | none => true
  { x with views := mset x.views g { v with
    ahead := mset v.ahead k phase
    arrived := if keep then v.arrived else mdel v.arrived k } }

/-- BARRIER_RELEASE (R343, R346): for a suspended core it is held until the restore. -/
def execBarrierRelease (s : State) : Res :=
  atReceiver s fun s id k =>
    match k.kind with
    | .release g phase r =>
      let s1 := s.dropPacket id
      if s1.parked k.target then
        s1.modPort k.target fun x => { x with views := mset x.views g { x.view g with held := some (phase, r) } }
      else s1.modCore k.target fun x => x.landRelease g phase r
    | _ => s

/-- WATCH_ARRIVAL (R343): answered at once with the current phase. -/
def execWatchArrival (s : State) : Res :=
  atTarget s .watchArrival fun s id k =>
    match k.kind with
    | .watch g p =>
      match s.rootUnit k.target g with
      | none => (s.dropPacket id).answer k (.refusal 1) []
      | some b => s.applied id k (.watchAns g b.phase p) []
    | _ => s

/-- WATCH_ANSWER (R343): a release for this one strand, if it satisfies its GWAIT: the strand has left the phase, and its arrival no
longer counts at its core (log 97, DEDUCED). -/
def execWatchAnswer (s : State) : Res :=
  atReceiver s fun s id k =>
    match k.kind with
    | .watchAns g phase p =>
      let s1 := (s.dropPacket id).settle k.core k.num
      let t := s1.strand p
      match t.run, t.wait with
      | .waiting, .barrier h kind since =>
        if h = g ∧ kind = 1 ∧ phasePast phase since then
          (s1.setStrand p (t.finish (BitVec.ofNat 64 phase))).modCore p.core fun x => x.watched g phase p.strand
        else s1
      | _, _ => s1
    | _ => s

/-- LEAVE_NOTICE (R342, R344): of a member that had not arrived, E falls now; otherwise from the next phase on. -/
def execLeaveNotice (s : State) : Res :=
  atReceiver s fun s id k =>
    match k.kind with
    | .leave g phase _ arrivedNow =>
      let s1 := s.dropPacket id
      let c := k.target
      match mget (s1.portCore c).barriers g with
      | none => s1
      | some b =>
        let arrived := arrivedNow ∧ phase = b.phase
        if b.state = .released ∧ arrived then s1.setBarrier c g { b with leavingNext := b.leavingNext + 1 }
        else if b.state = .released ∨ arrived then s1.setBarrier c g { b with leaving := b.leaving + 1 }
        else s1.checkBarrier c g { b with expected := b.expected - 1 }
    | _ => s

/-! ### Limits (R345) -/

/-- An arrival list without one member; an arrival without members goes. -/
def withoutMember (l : List Arrival) (p : Place) : List Arrival :=
  l.filterMap (Arrival.keep fun q => q != p)

/-- A unit without one member's arrival (R342): OPEN when none is left. -/
def Barrier.withdraw (b : Barrier) (p : Place) : Barrier :=
  let rest := withoutMember b.counted p
  { b with
    counted := if b.state = .released then b.counted else rest
    heldArrivals := withoutMember b.heldArrivals p
    state := if b.state ≠ .released ∧ rest.isEmpty then .opened else b.state
    op := if b.state ≠ .released ∧ rest.isEmpty then none else b.op }

/-- Whether a unit counts or holds a member's arrival of a phase that it has not released (R345). -/
def Barrier.holds (b : Barrier) (p : Place) : Bool :=
  (b.state != .released && b.counted.any fun a => a.members.any fun m => m.1 == p) ||
    b.heldArrivals.any fun a => a.members.any fun m => m.1 == p

/-- The phase that a strand's GWAIT waits for. -/
def Strand.gwaitSince (t : Strand) : BitVec 32 :=
  match t.wait with
  | .barrier _ _ since => since
  | _ => 0

/-- WITHDRAWAL_ARRIVAL (R345): an arrival not released yet is withdrawn with its value; after the release the withdrawal is
discarded. The root holds no watch, so a GWAIT's withdrawal changes nothing at it. -/
def execWithdrawalArrival (s : State) : Res :=
  atTarget s .withdrawalArrival fun s id k =>
    match k.kind with
    | .withdraw g p isWatch =>
      match s.rootUnit k.target g with
      | none => (s.dropPacket id).answer k (.refusal 1) []
      | some b =>
        if isWatch then s.applied id k (.withdrawAns g p (phasePast b.phase (s.strand p).gwaitSince)) []
        else if b.holds p then (s.applied id k (.withdrawAns g p false) []).setBarrier k.target g (b.withdraw p)
        else s.applied id k (.withdrawAns g p true) []
    | _ => s

/-- WITHDRAWAL_ANSWER (R345): withdrawn, the strand traps BAR-WAIT; released, it waits on for the release. -/
def execWithdrawalAnswer (s : State) : Res :=
  atReceiver s fun s id k =>
    match k.kind with
    | .withdrawAns g p released =>
      let s1 := (s.dropPacket id).settle k.core k.num
      let t := s1.strand p
      match t.run, t.wait with
      | .waiting, .barrier h kind _ =>
        if released ∨ h ≠ g ∨ !t.limited then s1
        else
          (if kind = 1 then s1 else s1.modCore p.core fun x => x.unarrive g p.strand).raise p causeBarWait (BitVec.ofNat 64 g)
      | _, _ => s1
    | _ => s

end Sys2Proof.Machine
end

