-- ==== Sys2Proof/Machine/Branch.lean ====
section
/-!
DEFINITION. Branches and jumps (R128, R129); none of them may stand in a loop body (R132).
-/

namespace Sys2Proof.Machine

/-- A branch (R128). -/
def branchOp (s : State) (i : Instr) (imm : BitVec 13) (c : Strand → Bool) : Res :=
  onStrand s fun p t => outsideBody s i p t
    (s.setStrand p (if c t then t.completeAt (t.pc + (sext64 imm <<< 2)) else t.complete))

/-- BEQ (R128). -/
def execBeq (b a : SReg) (imm : BitVec 13) (s : State) : Res := branchOp s (.beq b a imm) imm fun t => t.s a == t.s b
/-- BNE (R128). -/
def execBne (b a : SReg) (imm : BitVec 13) (s : State) : Res := branchOp s (.bne b a imm) imm fun t => t.s a != t.s b
/-- BLT (R128). -/
def execBlt (b a : SReg) (imm : BitVec 13) (s : State) : Res :=
  branchOp s (.blt b a imm) imm fun t => (t.s a).slt (t.s b)
/-- BGE (R128). -/
def execBge (b a : SReg) (imm : BitVec 13) (s : State) : Res :=
  branchOp s (.bge b a imm) imm fun t => !(t.s a).slt (t.s b)
/-- BLTU (R128). -/
def execBltu (b a : SReg) (imm : BitVec 13) (s : State) : Res :=
  branchOp s (.bltu b a imm) imm fun t => (t.s a).ult (t.s b)
/-- BGEU (R128). -/
def execBgeu (b a : SReg) (imm : BitVec 13) (s : State) : Res :=
  branchOp s (.bgeu b a imm) imm fun t => !(t.s a).ult (t.s b)

/-- JAL (R129). -/
def execJal (d : SReg) (imm : BitVec 19) (s : State) : Res :=
  onStrand s fun p t => outsideBody s (.jal d imm) p t
    (s.setStrand p ((t.setS d (t.pc + 4)).completeAt (t.pc + (sext64 imm <<< 2))))

/-- JALR (R129): sA is read before sD is written; a target that is not a multiple of 4 traps MISALIGN. -/
def execJalr (d a : SReg) (imm : BitVec 13) (s : State) : Res :=
  onStrand s fun p t => outsideBody s (.jalr d a imm) p t
    (let x := t.s a + sext64 imm
     if x.toNat % 4 ≠ 0 then s.raise p causeMisalign x
     else s.setStrand p ((t.setS d (t.pc + 4)).completeAt x))

end Sys2Proof.Machine
end

