-- ==== Sys2Proof/Machine/Device.lean ====
section
/-!
DEFINITION. Units of a die that act for a context: their reads and writes through its translation (R324, R319, R402), the host
queue interfaces' completions (R317, R319, R397), local-shape route words (R277), skims with their scrubs (R53, R55), and the
emptying of queues (R324, R372).
-/

namespace Sys2Proof.Machine

/-! ### Accesses through a context's translation -/

/-- The units that wait at page services: a host queue interface, a launcher, the launcher's record, a kernel's record. -/
def queueUnit (d q : Nat) : Place := { core := managerBase + d, strand := unitBase + q }
def launchUnit (d : Nat) : Place := { core := managerBase + d, strand := 48 }
def failUnit (d : Nat) : Place := { core := managerBase + d, strand := 49 }
def kernelUnit (d k : Nat) : Place := { core := managerBase + d, strand := 64 + k }

/-- A range of bytes cut at the boundaries of 32 KiB pages. -/
def pagePieces : Nat → Nat → Nat → List (Nat × Nat)
  | 0, _, _ => []
  | f + 1, va, n =>
    if n = 0 then []
    else
      let m := min n (32768 - va % 32768)
      (va, m) :: pagePieces f (va + m) (n - m)

/-- Pieces read by a unit; a poisoned line is not readable (R373). -/
def State.readPieces (s : State) (d ctx : Nat) (who : Place) : List (Nat × Nat) → State × Got (List Byte)
  | [] => (s, .ok [])
  | (va, n) :: r =>
    andThen (s.unitXlat d ctx va 0 who) fun s e =>
      if s.physPoisoned (e.pa va) n then (s, .fail)
      else andThen (s.readPieces d ctx who r) fun s1 rest => (s1, .ok (s.physRead d e.key e.gen (e.pa va) n ++ rest))

/-- Bytes read by a unit of a die. -/
def State.unitRead (s : State) (d ctx va n : Nat) (who : Place) : State × Got (List Byte) :=
  s.readPieces d ctx who (pagePieces (n / 32768 + 2) va n)

/-- Several ranges read by a unit. -/
def State.unitReads (s : State) (d ctx : Nat) (who : Place) : List (Nat × Nat) → State × Got (List (List Byte))
  | [] => (s, .ok [])
  | (va, n) :: r =>
    andThen (s.unitRead d ctx va n who) fun s b => andThen (s.unitReads d ctx who r) fun s rest => (s, .ok (b :: rest))

/-- Pieces written by a unit, as stores of the context. -/
def State.writePieces (s : State) (d ctx : Nat) (who : Place) : List (Nat × Nat) → List Byte → State × Got Unit
  | [], _ => (s, .ok ())
  | (va, n) :: r, b =>
    andThen (s.unitXlat d ctx va 1 who) fun s e => andThen (s.writePieces d ctx who r (b.drop n)) fun s _ =>
      (s.physWrite d (managerBase + d) e.key e.gen (e.pa va) (b.take n), .ok ())

/-- Bytes written by a unit of a die. -/
def State.unitWrite (s : State) (d ctx va : Nat) (b : List Byte) (who : Place) : State × Got Unit :=
  s.writePieces d ctx who (pagePieces (b.length / 32768 + 2) va b.length) b

/-! ### Host queue interfaces (R317, R319, R397) -/

/-- An interface at reset (R396): its physical function number and number form its key, and it is assigned to the physical
function itself until the driver assigns it to a virtual function (log 32, DESIGN CHOICE). -/
def HostQueue.reset : HostQueue :=
  { tail := 0, rqbase := 0, k := 0, enable := false, cqbase := 0, head := 0, cqtail := 0, pass := false, fn := 0, todo := [] }

/-- A host queue interface. -/
def State.queue (s : State) (q : Nat) : HostQueue := mgetD s.hostQueues q .reset

/-- The step that executes a request (R318); one with another OP is answered by the first of them (R319, check 1). -/
def requestStep (op : Nat) : Instr :=
  match op with
  | 2 => .hostPost
  | 3 => .counterSet
  | 4 => .balance
  | 5 => .dutyReply
  | 6 => .token
  | 7 => .occupancy
  | _ => .hostLaunch

/-- The bits of a request's doubleword (R318). -/
def reqBits (b : List Byte) (off lo n : Nat) : Nat := bits (leNat ((b.drop off).take 8)) lo n

/-- The next request of an interface's ring is due (R317: in ring order). -/
def State.startRequest (s : State) (q : Nat) : State :=
  match (s.queue q).todo with
  | [] => s
  | (i, b) :: _ => s.later (requestStep (reqBits b 0 0 8)) (.request q i b)

/-- A request completed (R319, R397): its record, its MSI-X vector if it asks for one, and the next request. -/
def State.finishRequest (s : State) (q status result : Nat) : State :=
  let h := s.queue q
  match h.todo with
  | [] => s
  | (i, b) :: r =>
    let n := 2 ^ h.k
    let tag := reqBits b 0 48 16
    let phase := Config.firstPhase q != h.pass
    let s0 := { s with dies := mmap (fun _ x => if x.lost.isEmpty then x else { x with
      lost := x.lost.filter fun e => e.1.strand != unitBase + q }) s.dies }
    let record := leBytes 8 (tag + 2 ^ 16 * status + 2 ^ 32 * result) ++ leBytes 8 (i + 2 ^ 16 * phase.toNat)
    let s1 := s0.rawWrite (hostBase + h.cqbase + 16 * (h.cqtail % n)) record
    ({ s1 with
      hostQueues := mset s1.hostQueues q { h with
        cqtail := (h.cqtail + 1) % 2 ^ 16, pass := h.pass != decide ((h.cqtail + 1) % n = 0), todo := r }
      completions := s1.completions ++ [(q, tag, status, reqBits b 0 8 1)] }).startRequest q

/-! ### Words that Linane mints (R277) -/

/-- The cores of a kernel wait as long as a word that its strands need is not minted (R278). -/
def State.holdFor (s : State) (k : Nat) : State :=
  let left := s.dutyReqs.any fun e => match e.2 with | .mint p _ _ holds => holds && (s.core p.core).kern == some k | .lease .. => false
  { s with cores := mmap (fun _ x => if x.kern = some k then { x with minting := left } else x) s.cores }

/-- Words that Linane has minted for the strands of a kernel's plot. Under DUTYMODE.MINT it passes each to the host instead: its
register is null, and no strand of the kernel issues, until the host has answered (R277, R278). -/
def State.passMints (s : State) (k : Nat) (words : Place → Strand → List (Nat × RouteWord)) : State :=
  if !bit s.duty 2 then s
  else
    ((s.cores.filter fun e => e.2.kern == some k).foldl (fun s e => e.2.strands.foldl (fun s t =>
      let p : Place := { core := e.1, strand := t.1 }
      let ws := words p t.2
      (ws.foldl (fun s w => s.askMint p true w) s).modStrand p fun t => { t with
        routes := mfilter (fun r _ => !(ws.any fun w => w.1 == r)) t.routes
        groupRoutes := mfilter (fun r _ => !(ws.any fun w => w.1 == 16 + r)) t.groupRoutes }) s) s).holdFor k

/-- The hidden group routes of a strand as words to mint. -/
def Strand.groupWords (t : Strand) : List (Nat × RouteWord) := t.groupRoutes.map fun e => (16 + e.1, e.2)

/-- The requests for words of some cores' strands dropped. -/
def State.dropMints (s : State) (cores : List Nat) : State :=
  { s with dutyReqs := mfilter (fun _ r => match r with | .mint p .. => !cores.contains p.core | .lease .. => true) s.dutyReqs }

/-! ### Cores -/

/-- Clk that a scrub of a bay takes (R55). -/
def scrubClk (b : Nat) : Nat := if 56 ≤ b ∧ b < 62 then 128 else 64

/-- Bays of a core skimmed, with the scrubs that this begins (R53, R55). -/
def State.skimCore (s : State) (c : Nat) (bays : List Nat) : State :=
  let wraps := bays.filter fun b => (s.core c).bayGeneration b == 0xFF
  wraps.foldl (fun s b => s.after (scrubClk b) .bayScrubComplete (.item c b)) (s.modCore c fun x => x.skimBays bays)

/-- BAY_SCRUB_COMPLETE (R55). -/
def execBayScrubComplete (s : State) : Res :=
  onItem s fun c b => s.modCore c fun x => { x with scrub := mdel x.scrub b }

/-- Whether a packet that the balancer moves, to or from a core, or the answer to one that the core has sent, loses its end with the
core's queue (R314). -/
def Packet.ofMove (k : Packet) (c : Nat) : Bool :=
  match k.kind with
  | .move .. => k.core == c || k.target == c
  | .moveRefused _ | .moveDone _ | .moveNacked _ => k.target == c
  | _ => false

/-- Whether entry n of a core is on its way to another. -/
def State.onMove (s : State) (src n dst : Nat) : Bool :=
  s.packets.any fun e => e.2.core == src && (match e.2.kind with
    | .move d m _ => d == dst && m == n
    | _ => false)

/-- A core's task queue and inbox emptied (R302, R311, R324): every packet is discarded, and one that is moving from the core with its
copy on the way. One that another core is moving to it is ELIGIBLE there again, unless it has been answered. -/
def State.emptyQueues (s : State) (c : Nat) : State :=
  let back := fun (d n : Nat) (e : TaskEntry) =>
    if e.state = .moving ∧ e.dest = c ∧ (!e.sent ∨ s.onMove d n c) then { e with state := .eligible, sent := false, dest := 0 } else e
  let s1 : State := { s with
    cores := mmap (fun d x => if x.queue.isEmpty then x else { x with queue := mmap (back d) x.queue }) s.cores
    packets := mfilter (fun _ k => !k.ofMove c) s.packets }
  s1.modCore c fun x => { x with queue := [], inbox := [] }

/-- Whether a packet of the barriers is on its way to one of some cores without a route word. -/
def Packet.ofBarriers (k : Packet) (cores : List Nat) : Bool :=
  cores.contains k.target &&
    (match k.kind with
     | .release .. | .watchAns .. | .withdrawAns .. | .leave .. => true
     | _ => false)

/-- The barrier units and the packets between them of some cores discarded (R338, R340, R342). -/
def State.dropBarriers (s : State) (cores : List Nat) : State :=
  { s with
    packets := mfilter (fun _ k => !k.ofBarriers cores) s.packets
    cores := mmap (fun c x => if cores.contains c then { x with barriers := [], views := [] } else x) s.cores }

/-- A port generation advanced; 0xFFFF stays closed (R275). -/
def Ni.advancePort (n : Ni) (endp : Nat) : Ni :=
  if n.port endp = 0xFFFF then n else { n with ports := mput 0 n.ports endp (n.port endp + 1) }

/-- The ports of a core (R266). -/
def portsOf (c : Nat) : List Nat := if isManager c then [0x85, 0x86] else [1, 2, 3, 4, 5, 6, 7, 8]

/-- Every port generation of a core advanced (R275), which revokes the groups rooted there (R338). -/
def State.advancePorts (s : State) (c : Nat) : State :=
  (s.modCore c fun x => { x with ni := (portsOf c).foldl Ni.advancePort x.ni }).revokeGroups c

end Sys2Proof.Machine
end

