-- ==== Sys2Proof/Machine/Descriptor.lean ====
section
/-!
DEFINITION. Kernel descriptors and their tables (R321 to R323, R334, R335, R337): fields, validity, the checks of a launch
(R324, R325), group entries, and route templates.
-/

namespace Sys2Proof.Machine

/-! ### The descriptor (R321) -/

/-- Rectangle k of a descriptor. -/
def descRect (b : List Byte) (k : Nat) : Rect :=
  { x0 := reqBits b (0x80 + 8 * k) 0 10, y0 := reqBits b (0x80 + 8 * k) 16 10,
    x1 := reqBits b (0x80 + 8 * k) 32 10, y1 := reqBits b (0x80 + 8 * k) 48 10 }

/-- The fields of a descriptor's 256 bytes. -/
def Desc.parse (addr : Nat) (b : List Byte) : Desc :=
  { addr := addr, entry := reqBits b 0x08 0 57, tvec := reqBits b 0x10 0 57, strands := reqBits b 0x18 0 4,
    part := reqBits b 0x18 4 2, rings := reqBits b 0x18 6 5, pfmt := reqBits b 0x18 11 5, slot0 := reqBits b 0x20 0 64,
    slot1 := reqBits b 0x28 0 64, inhbays := reqBits b 0x30 0 64, accept := reqBits b 0x38 0 14,
    gtab := reqBits b 0x40 0 57, rtab := reqBits b 0x48 0 57, ctab := reqBits b 0x50 0 57, sect := reqBits b 0x58 0 57,
    cmpl := reqBits b 0x60 0 57, ngroup := reqBits b 0x68 0 9, nroute := reqBits b 0x68 9 4, nctr := reqBits b 0x68 13 12,
    nsect := reqBits b 0x68 25 3,
    done := if reqBits b 0x70 16 1 = 1 then some (reqBits b 0x70 12 4, reqBits b 0x70 0 12) else none
    rects := (List.range (reqBits b 0x18 16 3 + 1)).map (descRect b) }

/-- A group entry's 72 bytes (R334). -/
def GroupEntry.parse (b : List Byte) : GroupEntry :=
  let n := reqBits b 0 0 4
  { nrect := n
    rects := (List.range (min n 8)).map fun k =>
      let o := 8 + 8 * k
      { dx0 := toInt 11 (reqBits b o 0 11), dy0 := toInt 11 (reqBits b o 11 11), dx1 := toInt 11 (reqBits b o 22 11),
        dy1 := toInt 11 (reqBits b o 33 11), smask := reqBits b o 44 8 } }

/-- A template's 16 bytes (R322). -/
def Template.parse (b : List Byte) : Template :=
  { reg := reqBits b 0 0 4, endp := reqBits b 0 4 8, dx := toInt 10 (reqBits b 0 12 10), dy := toInt 11 (reqBits b 0 22 11),
    rights := reqBits b 0 33 8, flags := reqBits b 0 41 2, base := reqBits b 8 0 20, len := reqBits b 8 20 20 }

/-- A counter entry's 8 bytes (R321). -/
def CtabEntry.parse (b : List Byte) : CtabEntry :=
  { counter := reqBits b 0 0 12, die := reqBits b 0 12 4, value := reqBits b 0 16 16 }

/-- Where the tables of a descriptor lie: entry i of a table at its base + i times its entry's size. -/
def tableAt (base size n : Nat) : List (Nat × Nat) := (List.range n).map fun i => (base + size * i, size)

/-- The tables of a descriptor read by a unit, with its section images (R324) (log 72, DEDUCED). -/
def State.readTables (s : State) (d ctx : Nat) (x : Desc) (who : Place) : State × Got Program :=
  andThen (s.unitReads d ctx who (tableAt x.gtab 72 x.ngroup)) fun s gs =>
  andThen (s.unitReads d ctx who (tableAt x.rtab 16 x.nroute)) fun s rs =>
  andThen (s.unitReads d ctx who (tableAt x.ctab 8 x.nctr)) fun s cs =>
  andThen (s.unitReads d ctx who (tableAt x.sect 16 x.nsect)) fun s es =>
  andThen (s.unitReads d ctx who (es.map fun b => (reqBits b 0 0 57, reqBits b 8 18 18))) fun s bs =>
    (s, .ok
      { desc := x, groups := gs.map GroupEntry.parse, templates := rs.map Template.parse,
        counters := cs.map CtabEntry.parse
        sections' := (es.zip bs).map fun e =>
          { src := reqBits e.1 0 0 57, off := reqBits e.1 8 0 18, len := reqBits e.1 8 18 18, bytes := e.2 } })

/-- The descriptor at an address read by a unit. -/
def State.readDesc (s : State) (d ctx addr : Nat) (who : Place) : State × Got Desc :=
  andThen (s.unitRead d ctx addr 256 who) fun s b => (s, .ok (Desc.parse addr b))

/-! ### The plot -/

/-- The cores of a descriptor's rectangles in ascending package order (R324). -/
def Desc.plot (x : Desc) : List Nat := sortBy pkgKey (x.rects.map Rect.cores).flatten

/-- Whether two rectangles share a core. -/
def Rect.meets (a b : Rect) : Bool := !(a.x1 < b.x0 || b.x1 < a.x0 || a.y1 < b.y0 || b.y1 < a.y0)

/-- Whether no two rectangles of a list share a core. -/
def apart : List Rect → Bool
  | [] => true
  | r :: rest => !(rest.any fun q => r.meets q) && apart rest

/-- The package corner that offsets count from: (X0, Y0) of rectangle 0 (R334). -/
def Desc.corner (x : Desc) : Int × Int :=
  match x.rects with
  | [] => (0, 0)
  | r :: _ => ((r.x0 : Int), (r.y0 : Int))

/-! ### Groups (R334 to R337) -/

/-- Whether a group rectangle holds a core, seen from the plot's corner. -/
def GroupRect.has (r : GroupRect) (o : Int × Int) (c : Nat) : Bool :=
  let x := (pxOf c : Int) - o.1
  let y := (pyOf c : Int) - o.2
  r.dx0 ≤ x && x ≤ r.dx1 && r.dy0 ≤ y && y ≤ r.dy1

/-- The member set of an entry in rank order (R335, R336). -/
def Desc.members (x : Desc) (g : GroupEntry) : List Place :=
  (x.plot.map fun c => ((List.range x.strands).filter fun k => g.rects.any fun r => r.has x.corner c && bit r.smask k).map
    fun k => ({ core := c, strand := k } : Place)).flatten

/-- The filled entries of a table: index and members. -/
def Program.filled (p : Program) : List (Nat × List Place) :=
  ((p.groups.zipIdx).filter fun e => e.1.nrect != 0).map fun e => (e.2, p.desc.members e.1)

/-- Whether an entry's rectangles are in order and lie in the plot (R335). -/
def Desc.rectsOk (x : Desc) (g : GroupEntry) : Bool :=
  g.nrect ≤ 8 && g.rects.all fun r =>
    r.dx0 ≤ r.dx1 && r.dy0 ≤ r.dy1 &&
      ((x.plot.filter fun c => r.has x.corner c).length : Int) == (r.dx1 - r.dx0 + 1) * (r.dy1 - r.dy0 + 1)

/-- Whether no member set is a subset of another entry's (R335). -/
def noneNested (gs : List (Nat × List Place)) : Bool :=
  gs.all fun a => gs.all fun b => a.1 == b.1 || !(a.2.all fun m => b.2.contains m)

/-- Whether a group table meets R335. -/
def Program.groupsOk (p : Program) : Bool :=
  let gs := p.filled
  p.groups.all (fun g => p.desc.rectsOk g) && gs.all (fun e => !e.2.isEmpty) && noneNested gs &&
    p.desc.plot.all fun c => (List.range p.desc.strands).all fun k =>
      (gs.filter fun e => e.2.contains { core := c, strand := k }).length ≤ 4

/-! ### Validity (R323) -/

/-- Whether the slot table's handler-reserved entries name strands of the kernel. -/
def Desc.slotsOk (x : Desc) : Bool :=
  (List.range 16).all fun i => [x.slot0, x.slot1].all fun w => !bit w (4 * i + 3) || bits w (4 * i) 3 < x.strands

/-- Whether a section image lies within one buffer and outside the loft. -/
def Section.ok (x : Section) : Bool :=
  [1, 2, 3, 4].any fun b => bufBase b ≤ x.off &&
    x.off + x.len ≤ bufBase b + (if b = 4 then loftBase else bufSize b)

/-- Whether a descriptor's rectangles are in order, in the grid and apart. -/
def Desc.rectanglesOk (x : Desc) : Bool :=
  (x.rects.all fun r => r.x0 ≤ r.x1 && r.x1 < 512 && r.y0 ≤ r.y1 && r.y1 < 640) && apart x.rects

/-- Whether a descriptor is valid (R323). -/
def Program.valid (p : Program) : Bool :=
  let x := p.desc
  x.entry % 4 == 0 && x.tvec % 4 == 0 && x.tvec != 0 && 1 ≤ x.strands && x.strands ≤ 8 && x.rings ≤ 16 && x.slotsOk &&
    x.rectanglesOk && x.ngroup ≤ 256 && x.nsect ≤ 4 && p.sections'.all Section.ok && x.addr % 256 == 0 && x.addr < 2 ^ 48 &&
    x.gtab % 8 == 0 && x.cmpl % 16 == 0 && p.groupsOk

/-! ### Templates (R322) -/

/-- The core that a template leads to from a core; none outside the grid. -/
def Template.target (t : Template) (c : Nat) : Option Nat :=
  let q : Int × Int := ((pxOf c : Int) + t.dx, (pyOf c : Int) + t.dy)
  if inGrid q then some (coreAtPkg q.1.toNat q.2.toNat) else none

/-- Whether the templates of a program are valid for a context (R322). -/
def State.templatesOk (s : State) (ctx : Nat) (p : Program) : Bool :=
  let regs := p.templates.map (·.reg)
  regs.eraseDups.length == regs.length && p.templates.all fun t =>
    t.reg != 0 && t.len != 0 && 1 ≤ t.endp && t.endp ≤ 8 && p.desc.plot.all fun c =>
      match t.target c with
      | some m => t.endp == 8 || (s.core m).owner.id == ctx
      | none => false

/-- Whether a context holds every counter of the counter table (R307). -/
def State.countersOk (s : State) (ctx : Nat) (p : Program) : Bool :=
  p.counters.all fun e => ((s.die e.die).counter e.counter).owner == ctx

/-! ### The checks of a launch (R324, R325) -/

/-- The reasons of R325. -/
def reasonOverlap : Nat := 1
def reasonOutside : Nat := 2
def reasonDescriptor : Nat := 3
def reasonTemplate : Nat := 4
def reasonCounter : Nat := 5
def reasonFetch : Nat := 6
def reasonRecoatDesc : Nat := 7
def reasonTag : Nat := 8

/-- The lowest plot tag that no plot holds (R324). -/
def State.freeTag (s : State) : Option Nat :=
  (List.range 0xFFF).find? fun n => !s.cores.any fun e => e.2.kern.isSome && e.2.tag == n

/-- Whether a context is LOCKED. -/
def State.locked (s : State) (ctx : Nat) : Bool := ((s.context ctx).map Context.state) == some .locked

/-- The first check that a launch fails, in the order of R324; none where it may go on. -/
def State.launchFault (s : State) (ctx : Nat) (p : Program) : Option Nat :=
  if !p.valid then some reasonDescriptor
  else if !s.locked ctx || !p.desc.plot.all fun c => (s.core c).owner.id == ctx then some reasonOutside
  else if p.desc.plot.any fun c => (s.core c).kern.isSome then some reasonOverlap
  else if !s.countersOk ctx p then some reasonCounter
  else if !s.templatesOk ctx p then some reasonTemplate
  else if s.freeTag.isNone then some reasonTag
  else none

end Sys2Proof.Machine
end

