-- ==== Sys2Proof/Machine/KernelEv.lean ====
section
/-!
DEFINITION. Kernel launch (R324, R325), retirement and faults (R327, R328, R402), and the recoat hand-over (R329 to R333).
-/

namespace Sys2Proof.Machine

/-! ### Completion records (R328, R402) -/

/-- A completion record's bytes. -/
def recordBytes (state reason copyFail : Nat) (p : Place) (tval : Word) : List Byte :=
  leBytes 8 (state + 2 ^ 8 * reason + 2 ^ 16 * copyFail + 2 ^ 20 * p.strand + 2 ^ 23 * p.core) ++ leBytes 8 tval.toNat

/-- A completion record written at an address, 0 meaning none; what cannot be written is not (R402). The answer is false while
the page service is at work. -/
def State.writeRecord (s : State) (d ctx cmpl : Nat) (b : List Byte) (who : Place) : State × Bool :=
  if cmpl = 0 then (s, true)
  else
    match s.unitWrite d ctx cmpl b who with
    | (s1, .wait) => (s1, false)
    | (s1, _) => (s1, true)

/-! ### Setting up a plot (R324, R330) -/

/-- The entries of GSLOT of a strand (R337): its groups in ascending index, at most four. -/
def slotsFor (gs : List (Nat × List Place)) (p : Place) : SMap Nat :=
  (((gs.filter fun e => e.2.contains p).map (·.1)).take 4).zipIdx.map fun e => (e.2, e.1)

/-- The hidden group routes of a strand (R339). -/
def State.groupRoutesFor (s : State) (ctx : Nat) (gs : List (Nat × List Place)) (slots : SMap Nat) : SMap RouteWord :=
  slots.filterMap fun e =>
    match (gs.find? fun g => g.1 == e.2).bind fun g => g.2.head? with
    | some root => some (e.1, s.localWord ctx root.core 7 e.2 1 rightS 0)
    | none => none

/-- The route registers that a program's templates mint on a core (R322). -/
def State.templateRoutes (s : State) (ctx c : Nat) (p : Program) : List (Nat × RouteWord) :=
  p.templates.filterMap fun t => (t.target c).map fun m => (t.reg, s.localWord ctx m t.endp t.base t.len t.rights t.flags)

/-- A strand as binding leaves it (R57), with the program's entry, trap vector, groups and routes; TIMER counts from now. -/
def State.boundStrand (s : State) (ctx : Nat) (p : Program) (gs : List (Nat × List Place)) (q : Place) : Strand :=
  let slots := slotsFor gs q
  { Strand.reset with
    run := .ready
    pc := BitVec.ofNat 64 p.desc.entry
    trap := { TrapCsr.reset with tvec := BitVec.ofNat 64 p.desc.tvec }
    time := { TimeCsr.reset with timerOff := 0 - BitVec.ofNat 64 s.now }
    gslots := slots
    groupRoutes := s.groupRoutesFor ctx gs slots
    routes := (s.templateRoutes ctx q.core p).foldl (fun (m : SMap RouteWord) e => mset m e.1 e.2) [] }

/-- The barrier units whose root is a core (R341): OPEN at phase 0, E the member count. -/
def barriersFor (gs : List (Nat × List Place)) (c : Nat) : SMap Barrier :=
  (gs.filter fun e => (e.2.head?.map (·.core)) == some c).map fun e =>
    (e.1, { state := .opened, phase := 0, expected := e.2.length, counted := [], heldArrivals := [], leaving := 0, leavingNext := 0, op := none })

/-- A kernel's group table filled from a program (R334). -/
def groupTable (gs : List (Nat × List Place)) : SMap Group := gs.map fun e => (e.1, { members := e.2, revoked := false })

/-- The section images of a program loaded into a core's buffers (R324). -/
def Core.loadSections (x : Core) (p : Program) : Core := p.sections'.foldl (fun (x : Core) e => x.writeLocal e.off e.bytes) x

/-- The counter table's values applied, each as a set: no arm or SIGNAL of the counter comes after it in this clk (R308). -/
def State.applyCounters (s : State) (p : Program) : State :=
  p.counters.foldl (fun s e =>
    { s.writeCounter e.die e.counter 6 ((s.die e.die).counter e.counter) e.value with
      marks := mset s.marks (counterObject e.die e.counter) 3 }) s

/-- The numbers of a program's strands. -/
def Program.strandNos (p : Program) : List Nat := List.range p.desc.strands

/-- A core of a plot that is launched (R324). -/
def State.launchCore (s : State) (ctx k tag : Nat) (p : Program) (gs : List (Nat × List Place)) (c : Nat) : State :=
  ((s.skimCore c allBays).emptyQueues c).modCore c fun x =>
    { x.loadSections p with
      part := p.desc.part
      slot0 := BitVec.ofNat 64 p.desc.slot0
      slot1 := BitVec.ofNat 64 p.desc.slot1
      kern := some k
      tag := tag
      strands := p.strandNos.map fun n => (n, s.boundStrand ctx p gs { core := c, strand := n })
      locks := []
      lockFrom := []
      barWaiting := []
      quiescent := false
      mtx := .reset
      rings := []
      copies := []
      leases := []
      barriers := barriersFor gs c
      views := [] }

/-- The record of a kernel that runs a program (R320, R321). -/
def runningKernel (ctx d tag : Nat) (p : Program) (gs : List (Nat × List Place)) : Kernel :=
  { state := .running, ctx := ctx, die := d, desc := p.desc.addr, rects := p.desc.rects, tag := tag, cmpl := p.desc.cmpl,
    done := p.desc.done, gtab := p.desc.gtab, strands := p.desc.strands, rendezvous := [], copyFail := 0, cause := 0,
    tval := 0, faultAt := { core := 0, strand := 0 }, groups := groupTable gs, successor := none, recorded := false }

/-- A plot claimed, set up and bound (R324). -/
def State.launchPlot (s : State) (d ctx tag : Nat) (p : Program) : State :=
  let k := mnext s.kernels
  let gs := p.filled
  let s1 := p.desc.plot.foldl (fun s c => s.launchCore ctx k tag p gs c) s
  ({ s1 with kernels := mset s1.kernels k (runningKernel ctx d tag p gs) }.applyCounters p).passMints k fun _ t =>
    t.routes ++ t.groupWords

/-! ### Launch (R324, R325) -/

/-- The launcher's oldest request is served, and the host is told (R318, R325). -/
def State.endLaunch (s : State) (d : Nat) (r : LaunchReq) (status result : Nat) : State :=
  let s1 := s.modDie d fun x => { x with launches := x.launches.drop 1 }
  let s2 := (match r.host with
    | some (q, _) => s1.finishRequest q status result
    | none => s1 : State)
  let s2 := (s2.forgetUnit d (launchUnit d)).forgetUnit d (failUnit d)
  if (s2.die d).launches.isEmpty then s2 else s2.later .kernelLaunch (.die d)

/-- What is left of a launch that failed: its record, where its descriptor names one (R402), and what the host is told (R325). As long
as the record's page is being served, that alone is tried again. -/
def State.recordLaunch (s : State) (d : Nat) (r : LaunchReq) (cmpl : Nat) (b : List Byte) (reason : Nat) : State :=
  match s.writeRecord d r.ctx cmpl b (failUnit d) with
  | (s1, false) =>
    (s1.modDie d fun x => { x with launches := { r with failed := some (cmpl, b, reason) } :: x.launches.drop 1 }).after 1 .kernelLaunch (.die d)
  | (s1, true) => s1.endLaunch d r 6 reason

/-- A launch that failed (R325): its record says so. -/
def State.failLaunch (s : State) (d : Nat) (r : LaunchReq) (cmpl reason : Nat) : State :=
  s.recordLaunch d r cmpl (recordBytes 0 reason 0 { core := 0, strand := 0 } 0) reason

/-- A launch that an uncorrected error in its context has faulted (R320, R328): nothing is claimed yet, and its record carries the
fault; a host request is told the cause as its reason (log 98, DESIGN CHOICE). -/
def State.faultLaunch (s : State) (d : Nat) (r : LaunchReq) (p : Place) (tval : Word) : State :=
  let record := fun (s : State) (cmpl : Nat) =>
    s.recordLaunch d r cmpl (recordBytes KernState.faulted.code causeUncorrected 0 p tval) causeUncorrected
  match s.readDesc d r.ctx r.desc (launchUnit d) with
  | (s1, .wait) => s1.after 1 .kernelLaunch (.die d)
  | (s1, .fail) => record s1 0
  | (s1, .ok x) => record s1 x.cmpl

/-- A launch request served: read, checked, set up. -/
def State.serveLaunch (s : State) (d : Nat) (r : LaunchReq) : State :=
  match s.readDesc d r.ctx r.desc (launchUnit d) with
  | (s1, .wait) => s1.after 1 .kernelLaunch (.die d)
  | (s1, .fail) => s1.failLaunch d r 0 reasonFetch
  | (s1, .ok x) =>
    match s1.readTables d r.ctx x (launchUnit d) with
    | (s2, .wait) => s2.after 1 .kernelLaunch (.die d)
    | (s2, .fail) => s2.failLaunch d r x.cmpl reasonFetch
    | (s2, .ok p) =>
      match s2.launchFault r.ctx p, s2.freeTag with
      | none, some tag => (s2.launchPlot d r.ctx tag p).endLaunch d r 0 tag
      | some n, _ => s2.failLaunch d r x.cmpl n
      | none, none => s2.failLaunch d r x.cmpl reasonTag

/-- KERNEL_LAUNCH (R324): the launcher serves its oldest request. -/
def execKernelLaunch (s : State) : Res :=
  match s.given with
  | .die d => .next (match (s.die d).launches with
    | [] => s
    | r :: rest =>
      match r.failed, r.fault with
      | some (a, b, n), _ => s.recordLaunch d r a b n
      | none, some (p, v) => s.faultLaunch d r p v
      | none, none => (s.modDie d fun x => { x with launches := { r with began := true } :: rest }).serveLaunch d { r with began := true })
  | _ => .fault .stepOperands

/-! ### The end of a kernel (R327, R328) -/

/-- The cores of a kernel's plot. -/
def State.plotOf (s : State) (k : Nat) : List Nat := (s.cores.filter fun e => e.2.kern == some k).map (·.1)

/-- Whether a core has nothing left to drain (R327, R328): stores, remote operations, copy commands. -/
def Core.drained (x : Core) : Bool := x.mtx.busy.isNone && x.sb.isEmpty && x.ni.out.isEmpty && x.copies.all fun e => !e.2.active

/-- A plot's cores freed, its groups ABSENT (R338, R342). -/
def State.freePlot (s : State) (k : Nat) (q : Kernel) (cores : List Nat) : State :=
  (((cores.foldl (fun s c => s.modCore c fun x => { x.unbindAll with kern := none, tag := 0xFFF }) s).dropBarriers cores).dropMints cores).forgetUnit q.die (kernelUnit q.die k)

/-- The decrement of a kernel's DONECTR (R327). -/
def Kernel.doneSignal (q : Kernel) : Option Due :=
  q.done.map fun e => { step := .counterSignal, given := .signal e.1 e.2 q.ctx { core := 0, strand := 0 } false 6 }

/-- What R327 does once a retiring kernel has drained, in this order: the release, the record, the decrement, RETIRED. -/
def State.retireKernel (s : State) (k : Nat) (q : Kernel) (cores : List Nat) : State :=
  let again := fun (s : State) => s.after 1 .kernelRetire (.kernel k)
  if q.recorded then
    (if q.doneSignal.any fun d => s.agenda.contains d then again s
     else { s with kernels := mset s.kernels k { q with state := .retired, groups := [] } }.freePlot k q cores)
  else
    let s1 := (cores.map dieOf).eraseDups.foldl (fun s d => s.writeBackDie d) s
    match s1.writeRecord q.die q.ctx q.cmpl (recordBytes KernState.retired.code 0 q.copyFail { core := 0, strand := 0 } 0)
        (kernelUnit q.die k) with
    | (s2, false) => again s2
    | (s2, true) =>
      let s3 : State := { s2.writeBackDie q.die with kernels := mset s2.kernels k { q with recorded := true } }
      match q.doneSignal with
      | some d => (s3.later d.step d.given).later .kernelRetire (.kernel k)
      | none => s3.later .kernelRetire (.kernel k)

/-- What R328 does once a faulted kernel's packets are answered: the record, then the plot is freed. -/
def State.buryKernel (s : State) (k : Nat) (q : Kernel) (cores : List Nat) : State :=
  match s.writeRecord q.die q.ctx q.cmpl (recordBytes q.state.code q.cause q.copyFail q.faultAt q.tval)
      (kernelUnit q.die k) with
  | (s1, false) => s1.after 1 .kernelRetire (.kernel k)
  | (s1, true) => s1.freePlot k q cores

/-- KERNEL_RETIRE (R327, R328): leases are released; once every strand is UNBOUND and the drain is complete the kernel ends. -/
def execKernelRetire (s : State) : Res :=
  match s.given with
  | .kernel k =>
    .next (match mget s.kernels k with
      | none => s
      | some q =>
        let cores := s.plotOf k
        if cores.isEmpty ∨ !(q.state = .retiring ∨ q.state = .faulted) ∨ (q.state = .retiring ∧ !(s.boundOf k).isEmpty) then s
        else if !(s.boundOf k).isEmpty || !cores.all fun c => (s.core c).drained then s.after 1 .kernelRetire (.kernel k)
        else
          let s1 := cores.foldl (fun s c => s.releaseLeases c) s
          if q.state = .faulted then s1.buryKernel k q cores else s1.retireKernel k q cores)
  | _ => .fault .stepOperands

/-! ### Recoating (R329 to R333) -/

/-- Whether two operand formats are of one kind (R81). -/
def sameKind (a b : Nat) : Bool :=
  match opFmt a, opFmt b with
  | .int .., .int .. => true
  | .flt _, .flt _ => true
  | .rns _, .rns _ => true
  | _, _ => false

/-- Bays of the buffers of bits 6 to 9 of the inheritance mask (R45, R329). -/
def bayRange (item : Nat) : List Nat :=
  match item with
  | 6 => List.range 24
  | 7 => (List.range 16).map (24 + ·)
  | 8 => (List.range 16).map (40 + ·)
  | _ => (List.range 6).map (56 + ·)

/-- The bays that a recoat keeps (R329). -/
def keptBays (want : Nat) (p : Program) : List Nat :=
  ([6, 7, 8, 9].map fun i => if bit want i then (bayRange i).filter fun b => bit p.desc.inhbays b else []).flatten

/-- The items kept on a core after every limit (R329, R332): want is the AND of sB and ACCEPT. -/
def Core.keptItems (x : Core) (want : Nat) (p : Program) : Nat :=
  let planes := [x.mtx.active, x.mtx.shadow].all fun l => !l.loaded || sameKind l.pfmt.toNat p.desc.pfmt
  ((List.range 14).map fun i =>
    let keep :=
      if 1 ≤ i ∧ i ≤ 4 then x.part == p.desc.part
      else if 6 ≤ i ∧ i ≤ 9 then (bayRange i).any fun b => bit p.desc.inhbays b
      else if i = 10 then planes
      else true
    if bit want i && keep then 2 ^ i else 0).sum

/-- The inherit-result word of a core's strands (R332) (log 73, DEDUCED). -/
def inheritWord (items bays : Nat) (p : Program) : Nat :=
  let routes := if bit items 12 then
    ((List.range 15).map fun i => if p.templates.any fun t => t.reg == i + 1 then 0 else 2 ^ (17 + i)).sum else 0
  items + routes + 2 ^ 32 * bays

/-- The vector registers that a recoat keeps (R329). -/
def keptVector (items r : Nat) : Bool := bit items (1 + r / 16)

/-- A successor's strand (R330): as binding leaves it, with what is kept of the predecessor's strand of its number. A
successor never starts in pass mode (R70): registers that the predecessor kept in its save record are placed anew (log 84, DESIGN
CHOICE). -/
def Strand.recoated (new : Strand) (old : Strand) (items : Nat) (templates : List (Nat × RouteWord)) (word : Nat) :
    Strand :=
  let keep := fun (i : Nat) => bit items i
  let scalars := if keep 0 then mfilter (fun r _ => 16 ≤ r) old.scalars else []
  let base : Strand := { new with
    scalars := scalars
    vectors := mfilter (fun r _ => keptVector items r) old.vectors
    loft := mfilter (fun _ r => keptVector items r) old.loft
    inRecord := []
    stamps := mfilter (fun r _ => keptVector items r) old.stamps
    issueNo := old.issueNo
    masks := if keep 5 then old.masks else []
    routes := if keep 12 then old.routes else []
    routeFails := if keep 12 then mfilter (fun r _ => r < 16) old.routeFails else []
    sheaves := if keep 12 then old.sheaves else []
    task := if keep 13 then old.task else .reset
    held := if keep 13 then old.held else none }
  let placed := if old.inRecord.isEmpty then base else base.placeAnew 48 false
  (templates.foldl (fun (t : Strand) e => t.setW (Fin.ofNat 16 e.1) e.2) placed).setS 10 (BitVec.ofNat 64 word)

/-- Whether a copy command has a destination line in a bay that is not kept, or names a ring that is not kept (R330). A WAITING command
that a destination ring is still to give its slot may come to write any of them: every slot of the ring counts (log 111, DESIGN CHOICE). -/
def Core.copyDropped (x : Core) (q : CopySlot) (bays : List Nat) (rings : Nat) : Bool :=
  let lostRing := fun (g : Option Nat) => match g with | some g => rings ≤ g | none => false
  let sp := (x.copySpaces q.desc).2
  let lines := match q.state, q.desc.dring with
    | .waiting, some g =>
      let r := x.ring g
      (List.range (r.slot * r.count)).map (r.base / 64 + ·)
    | .waiting, none => ({ q with dstBase := (q.desc.dst : Int) } : CopySlot).units
    | _, _ => q.units
  lostRing q.desc.sring || lostRing q.desc.dring ||
    (1 ≤ sp && sp ≤ 4 && lines.any fun u => !bays.contains (bayOf (bufBase sp + 64 * u)))

/-- The drain of a recoat (R330, step 1, R340): stores, and every remote operation but the copy engines' packets. -/
def Core.recoatDrained (x : Core) : Bool :=
  x.sb.isEmpty && x.mtx.busy.isNone && x.ni.out.all fun e => match e.2.pkt.kind with | .cpy .. => true | _ => false

/-- A core handed over to the successor (R330, steps 3 to 6). -/
def State.recoatCore (s : State) (ctx tag want k : Nat) (p : Program) (gs : List (Nat × List Place)) (c : Nat) : State :=
  let x := s.core c
  let items := x.keptItems want p
  let bays := keptBays want p
  let rings := if bit items 11 then p.desc.rings else 0
  let vecs := x.strands.any fun e => e.1 < p.desc.strands && e.2.vectors.any fun v => keptVector items v.1
  let gone := allBays.filter fun b => !bays.contains b && !(62 ≤ b && vecs)
  let ts := s.templateRoutes ctx c p
  (s.skimCore c gone).modCore c fun y =>
    { y.loadSections p with
      part := p.desc.part
      slot0 := BitVec.ofNat 64 p.desc.slot0
      slot1 := BitVec.ofNat 64 p.desc.slot1
      kern := some k
      tag := tag
      strands := p.strandNos.map fun n =>
        (n, (s.boundStrand ctx p gs { core := c, strand := n }).recoated (x.strand n) items ts
          (inheritWord items bays.length p))
      locks := []
      lockFrom := []
      barWaiting := []
      quiescent := false
      mtx := if bit items 10 then { y.mtx with busy := none, queue := [] } else .reset
      rings := mfilter (fun g _ => g < rings) y.rings
      barriers := barriersFor gs c
      views := [] }

/-- Whether a successor names the plot's own rectangles. -/
def sameRects (a b : List Rect) : Bool := a.all (fun r => b.contains r) && b.all fun r => a.contains r

/-- The checks of R333 on a successor. -/
def State.successorOk (s : State) (q : Kernel) (p : Program) : Bool :=
  p.valid && sameRects q.rects p.desc.rects && s.countersOk q.ctx p && s.templatesOk q.ctx p

/-- The copy commands of a plot that a recoat cancels (R330, step 2). -/
def State.cancelForRecoat (s : State) (cores : List Nat) (want : Nat) (p : Program) : State :=
  cores.foldl (fun s c =>
    let x := s.core c
    let rings := if bit want 11 then p.desc.rings else 0
    s.cancelCopies c 8 fun _ q => !q.cancelBy.contains 8 && x.copyDropped q (keptBays want p) rings) s

/-- Whether a cancelled command of a plot still has writes in flight. -/
def State.cancelling (s : State) (cores : List Nat) : Bool :=
  cores.any fun c => (s.core c).copies.any fun e => e.2.active && e.2.cancelBy.contains 8

/-- The plot handed over (R330, steps 3 to 6): the predecessor is RETIRED and the successor RUNNING. What copy commands that went on have
reported meanwhile is told to the successor. -/
def State.handOver (s : State) (k : Nat) (q : Kernel) (p : Program) (want : Nat) (cores : List Nat) : State :=
  let gs := p.filled
  let s1 := cores.foldl (fun s c => s.recoatCore q.ctx q.tag want k p gs c) (s.dropBarriers cores)
  let s2 := ({ s1 with kernels := mset s1.kernels k (runningKernel q.ctx q.die q.tag p gs) }.applyCounters p).passMints k fun _ t =>
    mfilter (fun r _ => p.templates.any fun e => e.reg == r) t.routes ++ t.groupWords
  (q.reports.foldl State.tellStrand s2).forgetUnit q.die (kernelUnit q.die k)

/-- A recoat's hand-over, retried until nothing that it waits for is left. -/
def State.againHandover (s : State) (k : Nat) : State := s.after 1 .recoatHandover (.kernel k)

/-- The successor of a recoat read and checked (R333), once, before any copy command is cancelled; one that fails faults the
kernel. -/
def State.checkSuccessor (s : State) (k : Nat) (q : Kernel) (first : Place) (addr : Nat) : State :=
  let bad := fun (s : State) => s.faultKernel k first reasonRecoatDesc 0
  match s.readDesc q.die q.ctx addr (kernelUnit q.die k) with
  | (s1, .wait) => s1.againHandover k
  | (s1, .fail) => bad s1
  | (s1, .ok x) =>
    match s1.readTables q.die q.ctx x (kernelUnit q.die k) with
    | (s2, .wait) => s2.againHandover k
    | (s2, .fail) => bad s2
    | (s2, .ok p) =>
      if !s2.successorOk q p then bad s2
      else { s2 with kernels := mset s2.kernels k { q with successor := some p } }.later .recoatHandover (.kernel k)

/-- What follows the checks of a recoat: the cancellations, the predecessor's record, and the hand-over. A copy failure reported
after its strand ended stays with the predecessor's record (R328). -/
def State.finishRecoat (s : State) (k : Nat) (q : Kernel) (p : Program) (want : Nat) (cores : List Nat) : State :=
  let s1 := s.cancelForRecoat cores want p
  if s1.cancelling cores then s1.againHandover k
  else
    match s1.writeRecord q.die q.ctx q.cmpl (recordBytes KernState.retired.code 0 q.copyFail { core := 0, strand := 0 } 0)
        (kernelUnit q.die k) with
    | (s2, false) => s2.againHandover k
    | (s2, true) => s2.handOver k q p want cores

/-- RECOAT_HANDOVER (R330, R333): the drain, then the checks, then the rest. -/
def execRecoatHandover (s : State) : Res :=
  match s.given with
  | .kernel k =>
    .next (match mget s.kernels k with
      | none => s
      | some q =>
        let cores := s.plotOf k
        match q.state, q.rendezvous.head? with
        | .recoating, some (first, a, b) =>
          if !cores.all fun c => (s.core c).recoatDrained then s.againHandover k
          else
            match q.successor with
            | some p => s.finishRecoat k q p (bits b.toNat 0 14 &&& p.desc.accept) cores
            | none =>
              (if q.spansDies then (cores.map dieOf).eraseDups.foldl (fun s d => s.writeBackDie d) s else s).checkSuccessor k q first
                a.toNat
        | _, _ => s)
  | _ => .fault .stepOperands

end Sys2Proof.Machine
end

