-- ==== Sys2Proof/Machine/HostEv.lean ====
section
/-!
DEFINITION. Host queue interfaces (R317, R396, R397) and their requests (R291, R312, R316, R318, R319).
-/

namespace Sys2Proof.Machine

/-! ### Registers of a notify page (R396, R397) -/

/-- A host write to the notify page of an interface: each of the two physical functions has eight (R317, R396). -/
def onHostWrite (s : State) (f : Nat → Nat → Nat → HostQueue → State) : Res :=
  match s.given with
  | .host pf iface off v => .next (if 2 ≤ pf ∨ 8 ≤ iface then s else f (8 * pf + iface) off v (s.queue (8 * pf + iface)))
  | _ => .fault .stepOperands

/-- The request entries of an interface from HEAD up to TAIL, taken mod 2^K (R317, R397). -/
def State.entriesUpTo (s : State) (h : HostQueue) : List (Nat × List Byte) :=
  let n := 2 ^ h.k
  (List.range ((h.tail % n + n - h.head % n) % n)).map fun j =>
    let i := (h.head + j) % n
    (i, readBytes s.mem (hostBase + h.rqbase + 64 * i) 64)

/-- A running interface fetches the entries up to TAIL (R317); none before a start has passed, and none during one (R391). -/
def State.fetchRequests (s : State) (q : Nat) : State :=
  let h := s.queue q
  if !h.enable || s.holdsCommands then s
  else
    let new := s.entriesUpTo h
    let s1 := { s with hostQueues := mset s.hostQueues q { h with head := (h.head + new.length) % 2 ^ 16, todo := h.todo ++ new } }
    if h.todo.isEmpty then s1.startRequest q else s1

/-- HQ_TAIL_WRITE (R317, R397). -/
def execHqTailWrite (s : State) : Res :=
  onHostWrite s fun q _ v h =>
    ({ s with hostQueues := mset s.hostQueues q { h with tail := v % 2 ^ 16 } }).fetchRequests q

/-- The interface after a write of its K and ENABLE fields (R397): K changes only while ENABLE is 0, and ENABLE is set only
with K in 4 .. 16. -/
def HostQueue.writeEnable (h : HostQueue) (v : Nat) : HostQueue :=
  let k := if h.enable then h.k else bits v 0 5
  { h with k := k, enable := bit v 8 && 4 ≤ k && k ≤ 16 }

/-- HQ_ENABLE_WRITE (R397): a write of the register at 0x010. -/
def execHqEnableWrite (s : State) : Res :=
  onHostWrite s fun q _ v h =>
    ({ s with hostQueues := mset s.hostQueues q (h.writeEnable v) }).fetchRequests q

/-- The interface after a write of RQBASE, K or CQBASE (R396, R397). The driver's assignment of an interface to the physical
function (0) or to one of its 64 virtual functions (R317, R396) is written at 0x1000, just past the notify page: the spec gives no
register for it (log 32, DESIGN CHOICE). -/
def HostQueue.writeReg (h : HostQueue) (off v : Nat) : HostQueue :=
  if off = 0x1000 then (if v ≤ 64 then { h with fn := v } else h)
  else if h.enable then h
  else
    match off with
    | 0x008 => { h with rqbase := bits v 6 58 * 64 }
    | 0x010 => { h with k := bits v 0 5 }
    | 0x018 => { h with cqbase := bits v 4 60 * 16 }
    | _ => h

/-- HQ_REG_WRITE (R397). -/
def execHqRegWrite (s : State) : Res :=
  onHostWrite s fun q off v h => { s with hostQueues := mset s.hostQueues q (h.writeReg off v) }

/-! ### The checks of a request (R319) -/

/-- The contexts that a PASID binds to an interface (R319, R368). -/
def State.pasidOwns (s : State) (pasid ctx : Nat) : Bool :=
  match s.context ctx with
  | some c => c.pasid == pasid && c.state != .free
  | none => false

/-- Whether a PASID is bound to an interface at all (log 33, DEDUCED). -/
def State.pasidBound (s : State) (pasid : Nat) : Bool := s.contexts.any fun e => s.pasidOwns pasid e.1

/-- A request's PASID (R318). -/
def reqPasid (b : List Byte) : Nat := reqBits b 0 16 20

/-- A request that has passed checks 1 to 3 of R319, with what it names in check 2. -/
def onRequest (s : State) (named : Nat → List Byte → Bool) (f : Nat → List Byte → State) : Res :=
  match s.given with
  | .request q _ b =>
    .next (
      let op := reqBits b 0 0 8
      if op = 0 ∨ 7 < op then s.finishRequest q 1 0
      else if !s.pasidBound (reqPasid b) || !named (reqPasid b) b then s.finishRequest q 2 0
      else if 4 ≤ op ∧ (s.queue q).fn ≠ 0 then s.finishRequest q 3 0
      else f q b)
  | _ => .fault .stepOperands

/-- A request that names no context, core or counter. -/
def namesNothing (_ : Nat) (_ : List Byte) : Bool := true

/-- HOST_LAUNCH (R318, R324): the request joins the launcher of die LDIE. -/
def execHostLaunch (s : State) : Res :=
  onRequest s (fun pasid b => s.pasidOwns pasid (reqBits b 0x10 0 16)) fun q b =>
    let d := reqBits b 0x10 16 4
    let r : LaunchReq := { ctx := reqBits b 0x10 0 16, desc := reqBits b 0x08 0 64, host := some (q, 0), began := false, fault := none }
    (s.modDie d fun x => { x with launches := x.launches ++ [r] }).later .kernelLaunch (.die d)

/-- The core that POST names; none where no core stands there. -/
def postCore (b : List Byte) : Option Nat :=
  let y := reqBits b 0x08 16 8
  if y < 160 then some (coreAt (reqBits b 0x08 0 4) (reqBits b 0x08 8 7) y) else none

/-- HOST_POST (R318, R319): stored as a POSTW arrival; the TAKE that selects it acquires at scope system. A foreign counter is
refused as an operand, and a core whose context is SCRUBBING takes no packet (R274) (log 33, DEDUCED). While the core's context is suspended or migrates, the packet waits, as a POSTW arrival
parks (log 90, DESIGN CHOICE). -/
def execHostPost (s : State) : Res :=
  onRequest s (fun pasid b => match postCore b with
      | some c => s.pasidOwns pasid (s.core c).owner.id
      | none => false) fun q b =>
    match postCore b with
    | none => s.finishRequest q 2 0
    | some c =>
      let va := reqBits b 0x10 0 64
      let ctx := (s.core c).owner.id
      if va % 64 ≠ 0 then s.finishRequest q 5 0
      else if ((s.context ctx).map Context.state) = some .scrubbing then s.finishRequest q 2 0
      else if s.parked c then s.after 1 .hostPost s.given
      else
        match mfree (s.core c).queue 64 with
        | none => s.finishRequest q 4 0
        | some n =>
          match s.unitRead (dieOf c) ctx va 64 (queueUnit (dieOf c) q) with
          | (s1, .wait) => s1.after 1 .hostPost s.given
          | (s1, .fail) => s1.finishRequest q 7 0
          | (s1, .ok data) =>
            let w : WorkPacket := BitVec.ofNat 512 (leNat data)
            if s1.foreignCounter c ctx w then s1.finishRequest q 5 0
            else (s1.enqueue c n w 6).finishRequest q 0 n

/-- COUNTER_SET (R308, R318): the result is the old value. -/
def execCounterSet (s : State) : Res :=
  onRequest s (fun pasid b =>
      s.pasidOwns pasid ((s.die (reqBits b 0x08 0 4)).counter (reqBits b 0x08 16 12)).owner) fun q b =>
    let d := reqBits b 0x08 0 4
    let n := reqBits b 0x08 16 12
    let old := (s.die d).counter n
    (s.writeCounter d n 6 old (reqBits b 0x10 0 16)).finishRequest q 0 old.value

/-- The commands of a BALANCE request (R318). -/
def balanceList (b : List Byte) : List BalCmd :=
  ((List.range 6).map fun i =>
    ({ src := reqBits b (8 + 8 * i) 0 20, dst := reqBits b (8 + 8 * i) 20 20, n := reqBits b (8 + 8 * i) 40 7 } : BalCmd)).takeWhile
    fun c => c.n != 0

/-- BALANCE (R316, R318): its cores must lie in the contexts of the PASID. -/
def execBalance (s : State) : Res :=
  onRequest s (fun pasid b => (balanceList b).all fun c =>
      s.pasidOwns pasid (s.core c.src).owner.id && s.pasidOwns pasid (s.core c.dst).owner.id) fun q b =>
    ((balanceList b).foldl (fun s c => s.later .balanceCommand (.command (dieOf c.src) c)) s).finishRequest q 0 0

/-! ### Duty replies (R278, R298) -/

/-- The checks of R277 on a host's template, its target found by walking its PATH: the requesting context as OWNER, a target core of
that context unless ENDP is the lease agent or the word asked for is one to a fabric manager core (R324), no right that was not asked for, and the target port's current generation. A word whose
target lies on another module, which only a migration or a delegation has brought, is given another PATH to the same target. -/
def State.templateFits (s : State) (asked w : RouteWord) : Bool :=
  wOwner w == wOwner asked && mintable w && wRights w &&& wRights asked == wRights w &&
    (match walkPath (wPath w) (wEndp w) with
     | none => false
     | some e =>
       if e.fibs.isEmpty then
         (wEndp w == 8 || (isManager e.core && wEndp w == wEndp asked) || (s.core e.core).owner.id == wOwner asked) && wGen w == (s.core e.core).ni.port (wEndp w)
       else
         (wEndp w == 8 || ((walkPath (wPath asked) (wEndp asked)).any fun a => a.core == e.core && s.farModule a == s.farModule e)) &&
           wGen w == wGen asked)

/-- A lease request answered by the host (R298): 0 denies it, another value is granted as it is. -/
def State.replyLease (s : State) (c h g : Nat) : State :=
  match s.lease c h with
  | none => s
  | some l =>
    if l.state ≠ .requested then s
    else if g = 0 then s.endLease c h .expired (some 0)
    else s.grantLease c h g l

/-- A word minted as the host composed it (R278): its register, or the hidden group route, of a strand still bound. -/
def State.mintReply (s : State) (p : Place) (reg : Nat) (w : RouteWord) : State :=
  let v := mint s.fabricKey w
  let s1 := s.modBound p fun t =>
    if reg < 16 then { t with routes := mset t.routes reg v } else { t with groupRoutes := mset t.groupRoutes (reg - 16) v }
  match (s.core p.core).kern with
  | some k => s1.holdFor k
  | none => s1

/-- DUTY_REPLY (R278, R298, R318): a request still pending is answered. A template that R277 refuses is not minted and the
request stays (log 34, DESIGN CHOICE). -/
def execDutyReply (s : State) : Res :=
  onRequest s namesNothing fun q b =>
    let n := reqBits b 0x08 0 64
    let s1 := { s with dutyReqs := mdel s.dutyReqs n }
    match mget s.dutyReqs n with
    | none => s.finishRequest q 5 0
    | some (.lease c h _ _ g _) =>
      let g' := reqBits b 0x10 0 5
      if g < g' then s.finishRequest q 5 0 else (s1.replyLease c h g').finishRequest q 0 0
    | some (.mint p reg asked _) =>
      let w : RouteWord := BitVec.ofNat 256 (leNat ((b.drop 0x10).take 27))
      if !s.templateFits asked w then s.finishRequest q 5 0 else (s1.mintReply p reg w).finishRequest q 0 0

/-- TOKEN (R291, R318): one visit of the recovery token, for a die or for the gateway. -/
def execToken (s : State) : Res :=
  onRequest s namesNothing fun q b =>
    let d := reqBits b 0x08 0 5
    if 16 < d then s.finishRequest q 5 0 else (s.later .tokenVisit (.die d)).finishRequest q 0 0

/-- Bytes written to host memory in a PASID's address space (R318): on a page that the space does not hold nothing is (log 33, DEDUCED). -/
def State.hostWrite (s : State) (pasid a : Nat) (b : List Byte) : State :=
  ((pagePieces (b.length / 32768 + 2) a b.length).foldl (fun (r : State × List Byte) e =>
    (if Config.hostMaps pasid ((hostBase + e.1) / 32768) then r.1.rawWrite (hostBase + e.1) (r.2.take e.2) else r.1, r.2.drop e.2)) (s, b)).1

/-- OCCUPANCY (R312, R318): the occupancy words of a die's cores, in core order, written to host memory. -/
def execOccupancy (s : State) : Res :=
  onRequest s namesNothing fun q b =>
    let d := reqBits b 0x08 0 4
    let words := (List.range coresPerDie).map fun i => leBytes 4 (s.core (coresPerDie * d + i)).occupancy
    (s.hostWrite (reqPasid b) (reqBits b 0x10 0 64) words.flatten).finishRequest q 0 0

end Sys2Proof.Machine
end

