-- ==== Sys2Proof/Machine/SaveArea.lean ====
section
/-!
DEFINITION. The save area of a suspended context: the strand records of R80 and the core records of R374, and how they are
written (log 21, DESIGN CHOICE).
-/

namespace Sys2Proof.Machine

/-! ### Bytes in one piece -/

/-- Cells of consecutive bytes, in canonical form: a zero byte is not listed. -/
def cellsFrom (a : Nat) : List Byte → List Host.Cell
  | [] => []
  | b :: r => if b = 0 then cellsFrom (a + 1) r else (a, b) :: cellsFrom (a + 1) r

/-- Consecutive bytes of a map replaced, as writeBytes does one at a time. -/
def blit (m : List Host.Cell) (a : Nat) (b : List Byte) : List Host.Cell :=
  mfilter (fun k _ => k < a) m ++ (cellsFrom a b ++ mfilter (fun k _ => a + b.length ≤ k) m)

/-- The bytes and zeros after them, n in all. -/
def padTo (n : Nat) (b : List Byte) : List Byte := (b ++ List.replicate (n - b.length) 0).take n

/-- Zeros up to a multiple of 64 bytes. -/
def padLine (b : List Byte) : List Byte := padTo ((b.length + 63) / 64 * 64) b

/-- Eight bytes of a number. -/
def dword (v : Nat) : List Byte := leBytes 8 v

/-- The sum of the powers of two of a list of bit numbers. -/
def bitMask (l : List Nat) : Nat := (l.map fun k => 2 ^ k).sum

/-! ### Strand records (R80) -/

/-- The state code of a strand record. -/
def Strand.saveState (t : Strand) : Nat :=
  match t.run, t.wait with
  | .stalled, _ => 1
  | .parked, _ => 2
  | .waiting, .sleep => 4
  | .waiting, _ => 3
  | _, _ => 0

/-- The 31 control registers of a strand record, in its order. -/
def savedCsrs : List Nat :=
  [0x000, 0x001, 0x002, 0x003, 0x004, 0x005, 0x006, 0x007, 0x008, 0x009, 0x00A,
   0x010, 0x011, 0x012, 0x013, 0x014, 0x015, 0x016, 0x030, 0x031, 0x032,
   0x040, 0x041, 0x042, 0x043, 0x044, 0x050, 0x051, 0x052, 0x053, 0x055]

/-- The replay buffer of a strand record: the words of the nest's body, from the body of level 0 on. -/
def Strand.saveReplay (t : Strand) : List Byte :=
  let base := match t.loops.getLast? with
    | some l => l.body.toNat
    | none => 0
  ((List.range 32).map fun n => leBytes 4 ((mget t.replay (base + 4 * n)).getD 0).toNat).flatten

/-- A loop-level record: remaining and initial count, body address, valid. -/
def LoopRec.save (l : LoopRec) : List Byte :=
  leBytes 16 (l.remaining + 2 ^ 32 * l.initial + 2 ^ 64 + 2 ^ 66 * bits l.body.toNat 2 55)

/-- The group slots of a strand whose barrier its core has an arrived bit for (R341). -/
def Core.arrivedSlots (x : Core) (k : Nat) (t : Strand) : List Nat :=
  mkeys (mfilter (fun _ g => mhas (x.view g).arrived k) t.gslots)

/-- The word of the held task, the wake token and the arrived bits. -/
def Strand.saveTask (t : Strand) (arrived : List Nat) : Nat :=
  (match t.held with
   | some h => 1 + 2 * h.scope + 16 * h.signal.toNat
   | none => 0) + 32 * t.wakeToken.toNat + 64 * bitMask (arrived.filter (· < 4))

/-- A route entry: the word, the register's failure record, its sheaf. -/
def Strand.saveRoute (t : Strand) (r : Nat) (w : RouteWord) : List Byte :=
  let f := mgetD t.routeFails r (0, 0)
  leBytes 32 w.toNat ++ dword (f.1 + 2 ^ 16 * f.2 + (match mget t.sheaves r with
    | some g => 2 ^ 20 + 2 ^ 21 * g
    | none => 0))

/-- A strand's save record (R80). -/
def State.strandRecord (s : State) (p : Place) (t : Strand) : List Byte :=
  let ls := match t.pass with
    | some l => l
    | none => (s.core p.core).lanes p.strand
  dword t.pc.toNat ++
  dword ((s.core p.core).part + 4 * t.trap.priv.toNat + 8 * t.inUi.toNat + 16 * (t.suspUi || t.suspTrap).toNat +
    2 ^ 8 * t.saveState + 2 ^ 12 * (ls / 2)) ++
  dword (bitMask (mkeys t.scalars)) ++ dword (bitMask (mkeys t.vectors)) ++
  dword (bitMask (mkeys t.masks) + 2 ^ 8 * bitMask (mkeys t.routes)) ++
  (savedCsrs.map fun n => dword (s.csrRead p t n).toNat).flatten ++
  t.saveReplay ++ padTo 96 (t.loops.reverse.map LoopRec.save).flatten ++
  dword (t.saveTask ((s.core p.core).arrivedSlots p.strand t)) ++ List.replicate 24 0 ++
  (t.scalars.map fun e => dword e.2.toNat).flatten ++
  (t.vectors.map fun e => leBytes (32 * ls) e.2.toNat).flatten ++
  (t.masks.map fun e => leBytes 64 e.2.toNat).flatten ++
  (t.routes.map fun e => t.saveRoute e.1 e.2).flatten

/-! ### Core records (R374) -/

/-- A ring descriptor in 16 bytes: the fields of R189 one after another (log 21, DESIGN CHOICE). -/
def Ring.save (r : Ring) : List Byte :=
  leBytes 16 (r.base + 2 ^ 57 * (r.space + 2 ^ 3 * (r.slot + 2 ^ 8 * (r.count + 2 ^ 11 * (r.prod + 2 ^ 10 * (r.cons +
    2 ^ 10 * (r.filled + 2 ^ 11 * (r.thresh + 2 ^ 11 * r.owner))))))))

/-- A copy descriptor in its 192 bytes (R196), reserved bits 0. -/
def CopyDesc.save (d : CopyDesc) : List Byte :=
  let ring := fun (g : Option Nat) => match g with
    | some n => n + 16
    | none => 0
  dword d.src ++ dword d.dst ++
  dword (d.sspace + 2 ^ 3 * d.dspace + 2 ^ 6 * d.droute + 2 ^ 10 * d.dims.length + 2 ^ 14 * Nat.log2 d.esize +
    2 ^ 16 * ring d.sring + 2 ^ 21 * ring d.dring + 2 ^ 26 * d.quiet.toNat + 2 ^ 27 * d.notify.toNat + 2 ^ 28 * d.scope) ++
  dword 0 ++
  padTo 160 (d.dims.map fun k => leBytes 16 (k.count + 2 ^ 32 * ofInt 48 k.sstride + 2 ^ 80 * ofInt 48 k.dstride)).flatten

/-- A task-queue entry's code, in the order of R302. -/
def TaskState.code : TaskState → Nat
  | .waiting => 1
  | .eligible => 2
  | .moving => 3

/-- A task-queue entry: its packet with the PRIO it has now, its STAMP and its state. -/
def TaskEntry.save (e : TaskEntry) : List Byte :=
  leBytes 64 (e.packet.toNat - 2 ^ 48 * bits e.packet.toNat 48 2 + 2 ^ 48 * e.prio) ++
  dword (e.stamp % 2 ^ 48 + 2 ^ 48 * e.state.code)

/-- An inbox slot: its payload, and what RECV returns (R227). -/
def InboxSlot.save (m : InboxSlot) : List Byte :=
  padTo 256 m.payload ++
  leBytes 16 (m.payload.length + 2 ^ 9 * m.fromStrand + 2 ^ 12 * m.fromCore + 2 ^ 32 * m.tag)

/-- The bays that hold a line at their current generation. -/
def Core.presentBays (x : Core) : List Nat :=
  (List.range 64).filter fun b => (List.range 64).any fun l => x.live (64 * b + l)

/-- A plane's tag (R172). -/
def Plane.tag (q : Plane) : Nat := q.loaded.toNat + 2 * q.sparse.toNat + 8 * q.pfmt.toNat

/-- A group's barrier entry: the root's state where the core is the root, whether the core holds a member, the core's own copy, a release
held (R346). -/
def Core.saveBarrier (x : Core) (member : Nat → Bool) (g : Nat) : List Byte :=
  let b := mget x.barriers g
  let v := mget x.views g
  let root := match b with
    | some b => (match b.state with
      | .opened => 0
      | .arriving => 1
      | .released => 2) + 4 + 2 ^ 8 * b.op.getD 0
    | none => 0
  let held := v.bind BarrView.held
  let word := root + 8 * (member g).toNat + 16 * held.isSome.toNat
  (([word, (b.map Barrier.phase).getD 0, (b.map Barrier.count).getD 0, (b.map Barrier.expected).getD 0,
     (((b.bind Barrier.result).map fun r => r.value.toNat).getD 0), (v.map BarrView.phase).getD 0,
     (held.map (·.1)).getD 0, ((held.bind (·.2)).map fun r => r.value.toNat).getD 0]).map (leBytes 4)).flatten

/-- A core's record (R374). -/
def Core.record (x : Core) (member : Nat → Bool) (ctx c : Nat) : List Byte :=
  let slot := fun (k : Nat) => match mget x.copies k with
    | some q => q.state.code + 8 * (q.state == .waiting).toNat
    | none => 0
  dword (ctx + 2 ^ 16 * c + 2 ^ 36 * x.part +
    2 ^ 38 * bitMask ((x.strands.filter fun e => e.2.run != .unbound).map (·.1)) + 2 ^ 46 * x.tag) ++
  dword ((List.range 4).map fun k => slot k * 2 ^ (4 * k)).sum ++ List.replicate 48 0 ++
  dword x.slot0.toNat ++ dword x.slot1.toNat ++
  ((List.range 16).map fun g => (x.ring g).save).flatten ++
  ((List.range 4).map fun k => match mget x.copies k with
    | some q => if q.state = .waiting then q.desc.save else List.replicate 192 0
    | none => List.replicate 192 0).flatten ++
  ((List.range 64).map fun n => match mget x.queue n with
    | some e => e.save
    | none => List.replicate 72 0).flatten ++
  ((List.range 32).map fun n => match mget x.inbox n with
    | some m => m.save
    | none => List.replicate 272 0).flatten ++
  dword (bitMask x.presentBays) ++
  leBytes 512 (bitMask ((mkeys x.full).filter x.isFull)) ++ List.replicate 40 0 ++
  leBytes 256 x.mtx.active.image.toNat ++ leBytes 256 x.mtx.shadow.image.toNat ++
  leBytes 48 x.mtx.active.ext.toNat ++ leBytes 48 x.mtx.shadow.ext.toNat ++
  leBytes 256 x.mtx.active.meta'.toNat ++ leBytes 256 x.mtx.shadow.meta'.toNat ++
  dword (x.mtx.active.tag + 2 ^ 8 * x.mtx.shadow.tag) ++ List.replicate 24 0 ++
  ((List.range 2048).map fun n =>
    let l := mgetD x.mtx.latches n (0, 0, 0)
    leBytes 4 (l.1 + 2 ^ 8 * l.2.1 + 2 ^ 16 * l.2.2)).flatten ++
  ((List.range 256).map fun g => x.saveBarrier member g).flatten ++
  (x.presentBays.map fun b => x.readLocal (4096 * b) 4096).flatten

/-- What a core leaves in the save area: its record, then its bound strands' records, each from a 64-byte boundary on. -/
def State.coreImage (s : State) (ctx c : Nat) : List Byte :=
  let x := s.core c
  padLine (x.record (fun g => (s.groupOf c g).any fun q => q.members.any fun m => m.core == c) ctx c) ++
  ((x.strands.filter fun e => e.2.run != .unbound).map fun e => padLine (s.strandRecord ⟨c, e.1⟩ e.2)).flatten

/-- Bytes that the stations write to device memory under a context's key (R374); no die keeps an older copy. -/
def State.writeUnder (s : State) (key : Key) (pa : Nat) (b : List Byte) : State :=
  let lines := (List.range ((b.length + 63) / 64)).map (pa / 64 + ·)
  { s with
    mem := blit s.mem pa b
    lineKey := lines.foldl (fun m l => mset m l key) s.lineKey
    poisoned := mdelRange s.poisoned pa b.length
    dies := mmap (fun _ x => { x with
      dirty := mdelRange x.dirty pa b.length
      writers := mdelRange x.writers (pa / 64) lines.length }) s.dies }

/-- The save area of a context written: the images of its cores one after another (log 21, DESIGN CHOICE). -/
def State.writeSaveArea (s : State) (ctx : Nat) (x : Context) (cores : List Nat) : State :=
  s.writeUnder x.key x.save (cores.map fun c => s.coreImage ctx c).flatten

end Sys2Proof.Machine
end

