-- ==== Sys2Proof/Machine/ContextEv.lean ====
section
/-!
DEFINITION. Contexts (R366 to R375): locking, unlocking and its scrub, suspension, and restore.
-/

namespace Sys2Proof.Machine

/-! ### Management commands (R398) -/

/-- A message of the security core over the management port. -/
def State.tell (s : State) (m : MgmtMsg) : State := { s with mgmtOut := s.mgmtOut ++ [m] }

/-- The commands of the management port (R398). -/
def isCommand : Instr → Bool
  | .lock | .unlock | .suspend | .restore | .migrate | .warmStart | .setDuty | .fwStage | .fwActivate | .readLog => true
  | _ => false

/-- A step of a context. -/
def onContext (s : State) (f : Nat → Option Context → State) : Res :=
  match s.given with
  | .ctx c => .next (f c (s.context c))
  | _ => .fault .stepOperands

/-- A command that arrives during a start, held until the start ends (R398). -/
def State.orHeldOnly (s : State) (i : Instr) (t : State) : State :=
  if s.starting then { s with heldCmds := s.heldCmds ++ [{ step := i, given := s.given }] } else t

/-- A command for a context: held during a start, and refused while the module has no passed start (R391, R392, R398). -/
def State.orHeld (s : State) (i : Instr) (ctx : Nat) (t : State) : State :=
  s.orHeldOnly i (if s.needsStart then s.tell (.done i ctx false) else t)

/-- A context record replaced. -/
def State.setContext (s : State) (c : Nat) (x : Context) : State := { s with contexts := mset s.contexts c x }

/-- The cores that a context owns. -/
def State.coresOf (s : State) (c : Nat) : List Nat := (s.cores.filter fun e => e.2.owner.id == c).map (·.1)

/-- The kernels of a context that hold a plot and have not ended (R320). -/
def State.activeKernels (s : State) (c : Nat) : List Nat :=
  (s.kernels.filter fun e => e.2.ctx == c && e.2.state != .retired && e.2.state != .faulted).map (·.1)

/-! ### Locking (R368) -/

/-- A FREE core claimed for a context (R367, R368): the owner and its generation, the ports, the skim. -/
def State.claimCore (s : State) (c ctx : Nat) (poison : Bool) : State :=
  ((((s.modCore c fun x => { x with
    owner := { id := ctx, gen := (x.owner.gen + 1) % 2 ^ 16, frozen := false, poison := poison }
    stopping := false
    kern := none
    tag := 0xFFF }).advancePorts c).skimCore c allBays).emptyQueues c)

/-- A core locked for a context: its NI's nonce counter begins at 0, under a key that is new (R370). -/
def State.lockCore (s : State) (c ctx : Nat) : State :=
  (s.claimCore c ctx false).modCore c fun x => { x with ni := { x.ni with nonce := 0 } }

/-- Whether an unlock has freed a core whose context is still SCRUBBING: neither a lock nor a restore takes it (R372). -/
def State.inScrub (s : State) (c : Nat) : Bool := s.contexts.any fun e => e.2.state == .scrubbing && e.2.freed.contains c

/-- Counters given to a context (R307, R368). -/
def State.claimCounters (s : State) (ctx : Nat) (l : List (Nat × Nat)) : State :=
  l.foldl (fun s e => s.setCounter e.1 e.2 { (s.die e.1).counter e.2 with owner := ctx }) s

/-- Whether a lock request may be carried out (R366 to R368): a fresh id, FREE cores, counters that no context holds. -/
def State.lockable (s : State) (id : Nat) (rects : List Rect) (counters : List (Nat × Nat)) : Bool :=
  let cores := (rects.map Rect.cores).flatten
  id != 0 && id < 0xFFFF && (s.context id).isNone && rects.length ≤ 64 &&
    (rects.all fun r => r.x0 ≤ r.x1 && r.x1 < 512 && r.y0 ≤ r.y1 && r.y1 < 640) &&
    (cores.all fun c => (s.core c).owner.id == 0 && !s.inScrub c) &&
    counters.all fun e => ((s.die e.1).counter e.2).owner == 0xFFFF

/-- LOCK (R366, R368): FREE, LOCKING and LOCKED in one event; a request that cannot be met changes nothing. -/
def execLock (s : State) : Res :=
  match s.given with
  | .lock id rects tb save pasid counters =>
    .next (
      s.orHeld .lock id <|
      if !s.lockable id rects counters then s.tell (.done .lock id false)
      else
        let cores := sortBy pkgKey ((rects.map Rect.cores).flatten.eraseDups)
        let s1 := (cores.foldl (fun s c => s.lockCore c id) s).claimCounters id counters
        let x : Context :=
          { state := .locked, rects := rects, tbAddr := tb, tb := s1.readBlock 0 tb, save := save, pasid := pasid,
            counters := counters, key := Config.freshKey s.draws, slots := [], saved := [], origin := s.moduleId }
        (({ s1 with draws := s.draws + 1, gnonces := mdel s1.gnonces (16 + id) }).setContext id x).syncKeys.tell (.done .lock id true))
  | _ => .fault .stepOperands

/-! ### Unlocking (R372) -/

/-- Whether a packet of a core is still on its way in this module. -/
def State.inFlightFrom (s : State) (c : Nat) : Bool :=
  s.packets.any fun e => e.2.core == c && e.2.module' == s.moduleId && e.2.word != 0

/-- Parked packets of a core taken out of the fault queue and given to its NI, in arrival order (R364). -/
def State.unpark (s : State) (c : Nat) : State :=
  let q := (s.die (dieOf c)).faultQueue
  let s1 := s.modDie (dieOf c) fun x => { x with faultQueue := q.filter fun k => k.target != c }
  (q.filter fun k => k.target == c).foldl (fun s k => s.inject { k with loc := .ni c, port := some (.ni c) } k.kind.arrival) s1

/-- A core leaves its context (R372, steps 3 to 6): FREE, with every queue, ring and bay empty and its ports advanced. -/
def State.freeCore (s : State) (c : Nat) : State :=
  let s1 := ((((s.releaseLeases c).emptyQueues c).skimCore c allBays).advancePorts c).dropMints [c]
  (s1.modCore c fun x => { x.unbindAll with
    owner := { id := 0, gen := (x.owner.gen + 1) % 2 ^ 16, frozen := false, poison := false }
    stopping := false
    kern := none
    tag := 0xFFF
    mtx := .reset
    rings := []
    copies := []
    barriers := []
    views := [] }).unpark c

/-- The counters of a context reset (R307, R372). -/
def State.freeCounters (s : State) (ctx : Nat) : State :=
  { s with dies := mmap (fun _ x => { x with counters := mfilter (fun _ v => v.owner != ctx) x.counters }) s.dies }

/-- What a context leaves in the stations dropped: its translations, service records, page requests and shootdowns. -/
def State.forgetPages (s : State) (ctx : Nat) : State :=
  let s1 := s.dropTranslations ctx fun e => e.ctx == ctx
  { s1 with
    dies := mmap (fun _ x => { x with services := x.services.filter fun r => r.ctx != ctx }) s1.dies
    pageReqs := s1.pageReqs.filter fun q => q.ctx != ctx
    shootdowns := s1.shootdowns.filter fun q => q.ctx != ctx }

/-- An unlock begun (R372, steps 1 and 2): SCRUBBING, its kernels FAULTED with cause 0, every strand UNBOUND, copy commands
cancelled, packets that were never sent dropped. -/
def State.beginUnlock (s : State) (ctx : Nat) (x : Context) : State :=
  let s1 := (s.activeKernels ctx).foldl (fun s k => s.faultKernel k { core := 0, strand := 0 } 0 0) s
  let s2 := s1.setContext ctx { x with state := .scrubbing, saved := [] }
  (s2.coresOf ctx).foldl (fun s c => (s.modCore c Core.unbindAll).cancelCopies c 8 fun _ _ => true) s2

/-- Whether an unlock may end its first part: packets sent are applied or refused, stores have drained, plots are free. -/
def State.unlockDrained (s : State) (c : Nat) : Bool :=
  !s.inFlightFrom c && (s.core c).sb.isEmpty && (s.core c).mtx.busy.isNone && (s.core c).kern.isNone

/-- Packets of a core that will not be sent again dropped (log 76, DEDUCED). -/
def State.dropUnsent (s : State) (c : Nat) : State :=
  if s.inFlightFrom c then s
  else s.modCore c fun x => { x with
    ni := { x.ni with out := [] }
    copies := mmap (fun _ q => if q.active then { q with state := .cancelled, sent := [], todo := [] } else q) x.copies }

/-- The rest of an unlock but the frames (R372, steps 3 to 7). -/
def State.endUnlock (s : State) (ctx : Nat) (x : Context) : State :=
  let s1 := (s.coresOf ctx).foldl State.freeCore s
  let s2 := (((s1.freeCounters ctx).forgetPages ctx).setContext ctx { x with key := 0, slots := [], freed := s.coresOf ctx }).syncKeys
  if bit s.duty 6 then s2 else s2.later .scrubComplete (.ctx ctx)

/-- UNLOCK (R366, R372): it waits in SCRUBBING for what has been sent. -/
def execUnlock (s : State) : Res :=
  onContext s fun ctx x? =>
    match x? with
    | none => s.orHeld .unlock ctx (s.tell (.done .unlock ctx false))
    | some x =>
      match x.state with
      | .locked | .suspended | .alarmed => s.orHeld .unlock ctx ((s.beginUnlock ctx x).after 1 .unlock (.ctx ctx))
      | .scrubbing =>
        let s1 := (s.coresOf ctx).foldl State.dropUnsent s
        if (s1.coresOf ctx).all fun c => s1.unlockDrained c then s1.endUnlock ctx x else s1.after 1 .unlock (.ctx ctx)
      | _ => s.orHeld .unlock ctx (s.tell (.done .unlock ctx false))

/-- The leaves of a system-stage table and of the tables under it (R350, R351). -/
def State.tableLeaves (s : State) (d : Nat) : Nat → Nat → List Leaf
  | 0, t => (List.range 4096).filterMap fun i =>
    let e := s.rawNat d (t + 8 * i) 8
    if pteV e then some { pte := e, addr := t + 8 * i, size := 32768 } else none
  | l + 1, t => ((List.range (if l = 2 then 64 else 4096)).map fun i =>
    let e := s.rawNat d (t + 8 * i) 8
    if !pteV e then []
    else if l = 0 && pteLeaf e then [{ pte := e, addr := t + 8 * i, size := 2 ^ 27 }]
    else s.tableLeaves d l (pteFrame e)).flatten

/-- Every device frame that a context's system stage maps scrubbed (R372, step 8); host pages are not. -/
def State.scrubFrames (s : State) (x : Context) : State :=
  ((s.tableLeaves 0 3 x.tb.sroot).filter fun f => !pteHost f.pte).foldl (fun s f =>
    s.scrubRange (pteFrame f.pte / f.size * f.size) f.size) s

/-- SCRUB_COMPLETE (R366, R372): every frame is scrubbed, by the stations or by the host; the context is FREE. -/
def execScrubComplete (s : State) : Res :=
  match s.given with
  | .ctx ctx =>
    .next (match s.context ctx with
      | none => s
      | some x =>
        if x.state ≠ .scrubbing ∨ !(s.coresOf ctx).isEmpty then s
        else ({ s.scrubFrames x with contexts := mdel s.contexts ctx }).tell (.done .unlock ctx true))
  | _ => .fault .stepOperands

/-! ### Suspension (R79, R374) -/

/-- A suspension begun (R79): every strand of the context stops; the drains follow (log 46, DEDUCED). -/
def State.beginSuspend (s : State) (ctx : Nat) : State :=
  ((s.coresOf ctx).foldl (fun s c => s.modCore c fun x => { x with stopping := true }) s).later .suspendComplete (.ctx ctx)

/-- SUSPEND (R79, R366). -/
def execSuspend (s : State) : Res :=
  onContext s fun ctx x? =>
    s.orHeld .suspend ctx <|
    if (x?.map Context.state) ≠ some .locked then s.tell (.done .suspend ctx false) else s.beginSuspend ctx

/-- Whether a strand can be saved: nothing that it waits for is still to come from a packet or a station, no loft move (R35)
is pending, and its kernel has not ended within its instruction (R328). -/
def Strand.stopped (t : Strand) : Bool :=
  !t.ending && match t.run, t.wait with
  | .stalled, .none => t.lack != .loft
  | .stalled, _ => false
  | .parked, .page .. => true
  | .parked, _ => false
  | _, _ => true

/-- Whether a core has drained for its suspension (R79, R374): bay locks, matrix operations, stores, remote operations,
RUNNING copy commands, arms and moves, and no route word is still to be minted (log 74, DEDUCED). -/
def Core.suspendable (x : Core) : Bool :=
  !x.minting && x.locks.isEmpty && x.mtx.busy.isNone && x.sb.isEmpty && x.ni.out.isEmpty && (x.copies.all fun e => e.2.state != .running) &&
    (x.queue.all fun e => e.2.arming.isNone && e.2.state != .moving) && x.strands.all fun e =>
    e.2.stopped && ((e.2.run != .ready && e.2.run != .stalled) || !e.2.ragged (x.laneCount e.1))

/-- A strand as its save record holds it: TIMER by its value, and no limit or walk in progress. -/
def Strand.saved (t : Strand) (now : Nat) : Strand :=
  { t with walked := none, limited := false, time := { t.time with timerOff := t.time.timerOff + BitVec.ofNat 64 now } }

/-- A core's records taken, and the core left without strands and without the state that they hold (R374). -/
def State.saveCore (s : State) (c : Nat) : State :=
  (s.releaseLeases c).modCore c fun x => { x.unbindAll with
    stopping := false
    mtx := .reset
    rings := []
    copies := []
    queue := []
    inbox := []
    barriers := []
    views := [] }

/-- SUSPEND_COMPLETE (R333, R374): once every core has drained and no kernel is RECOATING, the records are written and the
context is SUSPENDED. -/
def execSuspendComplete (s : State) : Res :=
  match s.given with
  | .ctx ctx =>
    .next (match s.context ctx with
      | none => s
      | some x =>
        let cores := s.coresOf ctx
        if x.state ≠ .locked ∨ !cores.all (fun c => (s.core c).stopping) then s
        else if !cores.all (fun c => (s.core c).suspendable) ||
            (s.kernels.any fun e => e.2.ctx == ctx && e.2.state == .recoating) then s.after 1 .suspendComplete (.ctx ctx)
        else
          let save := cores.map fun c =>
            (c, { s.core c with strands := mmap (fun _ t => t.saved s.now) (s.core c).strands })
          let s1 := cores.foldl State.saveCore (s.writeSaveArea ctx x cores)
          (s1.setContext ctx { x with state := .suspended, saved := save }).tell (.done .suspend ctx true))
  | _ => .fault .stepOperands

/-! ### Restore (R375) -/

/-- Where a core's records go, by the rectangles that move (R375). -/
def movedTo (moves : List (Rect × Rect)) (c : Nat) : Nat :=
  match moves.find? fun e => e.1.has c with
  | some (a, b) => coreAtPkg (b.x0 + (pxOf c - a.x0)) (b.y0 + (pyOf c - a.y0))
  | none => c

/-- A place moved with its core. -/
def movePlace (f : Nat → Nat) (p : Place) : Place := { p with core := f p.core }

/-- A rectangle moved with the core at its corner. -/
def Rect.move (r : Rect) (f : Nat → Nat) : Rect :=
  let c := f (coreAtPkg r.x0 r.y0)
  { x0 := pxOf c, y0 := pyOf c, x1 := pxOf c + (r.x1 - r.x0), y1 := pyOf c + (r.y1 - r.y0) }

/-- A kernel's plot moved. A member keeps the rank that it had at the launch, and the root its place at rank 0, wherever their cores go:
the spec does not say that members are ranked anew (log 112, DESIGN CHOICE). -/
def Kernel.move (q : Kernel) (f : Nat → Nat) : Kernel :=
  { q with
    rects := q.rects.map fun r => r.move f
    rendezvous := q.rendezvous.map fun r => (movePlace f r.1, r.2)
    faultAt := movePlace f q.faultAt
    groups := mmap (fun _ (g : Group) => { g with members := g.members.map (movePlace f) }) q.groups }

/-- An arrival's members moved. -/
def Arrival.move (f : Nat → Nat) : Arrival → Arrival
  | .one p v => .one (movePlace f p) v
  | .both a b => .both (a.move f) (b.move f)

/-- The arrivals that a barrier unit counts, moved. -/
def Barrier.move (b : Barrier) (f : Nat → Nat) : Barrier :=
  let go := fun (l : List Arrival) => l.map fun a => a.move f
  { b with counted := go b.counted, heldArrivals := go b.heldArrivals }

/-- A word given another PATH. -/
def State.withPath (s : State) (w : RouteWord) (path : Nat) : RouteWord := sealWord s.fabricKey (putBits w 0 120 path)

/-- A gateway-shape word leaving by the port nearest a core (R277, R278). -/
def State.fromCore (s : State) (c : Nat) (w : RouteWord) : RouteWord :=
  match liveSegs (wPath w) with
  | (5, _) :: r => s.withPath w (packPath ((5, gateFor c) :: r))
  | _ => w

/-- What a restore needs to know of its context to re-mint: the context, its cores as saved, whether they were all unlocked meanwhile,
and the module that its words are written from. -/
structure Removal where
  ctx : Nat
  cores : SMap Core
  anew : Bool
  origin : Nat

/-- A route word in a register of a core restored (R278, R375): one toward a core of the context that has moved, or was unlocked
meanwhile, is minted anew toward its new place; of a context that comes from another module, a word toward a manager core is minted
toward the one here, and any other leads from here to where it led; a gateway-shape word leaves by the port nearest the new core. A
word for the lease agent keeps its FIB segments, which name its fibres. A word keeps its OWNER (R263), and one whose port had been
revoked before the suspension stays revoked (R276) (log 99, DEDUCED). -/
def State.remintWord (s : State) (r : Removal) (f : Nat → Nat) (old : Nat) (w : RouteWord) : RouteWord :=
  let c := f old
  match walkPath (wPath w) (wEndp w) with
  | none => w
  | some e =>
    let m := { s with moduleId := r.origin }.farModule e
    let gone := match mget r.cores e.core with
      | some x => wGen w != x.ni.port (wEndp w)
      | none => false
    let gen := (s.core (f e.core)).ni.port (wEndp w)
    let again := mint s.fabricKey (rawRoute (localPath (f e.core)) (wEndp w) (wBase w) (wLen w) (wRights w)
      (if gone then (gen + 0xFFFF) % 2 ^ 16 else gen) (wOwner w) (wFlags w))
    let moved := c ≠ old ∨ r.origin ≠ s.moduleId
    if wEndp w = 8 then (if moved then s.fromCore c w else w)
    else if m = r.origin ∧ mhas r.cores e.core ∧ (r.anew ∨ f e.core ≠ e.core) then again
    else if r.origin = s.moduleId then (if moved then s.fromCore c w else w)
    else if m = r.origin ∧ isManager e.core then again
    else s.withPath w (if m = s.moduleId then localPath e.core else s.gatewayPath c m e.core)

/-- A strand as it is restored on a core (R69, R80, R375): it executes anew what stalled or parked it, its limits and its YIELD
begin again, and it enters pass mode where its lanes differ. Every wait begins at the restore, so the waiters of a full/empty word
and the strands that wait in TAKE are served in the order of the strand numbers (log 88, DESIGN CHOICE). Its registers are placed anew and their stamps cleared (log
84, DESIGN CHOICE). Where the partition gives it no lanes (L = 0) it keeps the saved lane count and all its vector registers in the
save record, and runs as a scalar strand; a scalar strand (Ls = 0) whose number has lanes here enters no pass mode and is an ordinary
vector strand (log 89, DESIGN CHOICE). -/
def Strand.restored (t : Strand) (now lanes : Nat) (ls : Nat) : Strand :=
  let pass := if lanes = ls ∨ ls = 0 then none else some ls
  let spill := pass.isSome && decide (lanes < ls)
  let u : Strand := { t.placeAnew (if spill then 48 / (ls / lanes) else 48) spill with
    stamps := []
    mid := false
    midMask := none
    waitFrom := now
    yieldEnd := now + 32
    time := { t.time with timerOff := t.time.timerOff - BitVec.ofNat 64 now }
    pass := pass }
  if (u.run = .stalled ∧ u.wait = .none) ∨ u.run = .parked then u.wake else u

/-- The local line of a G word. -/
def gLine (w : Nat) : Nat := lineOf (0x38000 + 8 * w)

/-- The bays of a core as the saved images restore them (R375): every generation has advanced, so that lines outside the images
read zero. -/
def Core.restoreBays (y : Core) (sv : Core) : Core :=
  let buf := mfilter (fun a _ => sv.live (lineOf a)) sv.buf
  let bad := mfilter (fun a _ => sv.live (lineOf a)) sv.bad
  let full := mfilter (fun w _ => sv.live (gLine w)) sv.full
  let lines := ((mkeys buf).map lineOf ++ (mkeys bad).map lineOf ++ (mkeys full).map gLine).eraseDups
  { y with
    buf := buf
    bad := bad
    full := full
    lineGen := lines.foldl (fun (m : SMap Nat) l => mput 0 m l (y.bayGeneration (l / 64))) y.lineGen }

/-- A core's records written back (R375). -/
def State.restoreCore (s : State) (r : Removal) (f : Nat → Nat) (part : Option Nat) (old : Nat) (sv : Core) : State :=
  let c := f old
  let p := part.getD sv.part
  let fix := s.remintWord r f old
  (s.skimCore c allBays).modCore c fun y =>
    { y.restoreBays sv with
      part := p
      slot0 := sv.slot0
      slot1 := sv.slot1
      kern := sv.kern
      tag := sv.tag
      strands := mmap (fun k t =>
        let u := t.restored s.now (({ y with part := p } : Core).lanes k) (sv.laneCount k)
        { u with routes := mmap (fun _ w => fix w) u.routes }) sv.strands
      barWaiting := sv.barWaiting
      quiescent := sv.quiescent
      mtx := { sv.mtx with queue := [] }
      rings := sv.rings
      copies := mmap (fun _ q => { q with members := q.members.map fun m => (m.1, fix m.2) }) sv.copies
      copySerial := sv.copySerial
      drains := sv.drains
      arms := max y.arms sv.arms
      queue := sv.queue
      inbox := sv.inbox
      inboxOrder := sv.inboxOrder
      barriers := mmap (fun _ b => b.move f) sv.barriers
      views := sv.views }

/-- The group routes of a restored core's strands minted toward the new roots (R339). -/
def State.remintGroups (s : State) (ctx c : Nat) : State :=
  let routes := fun (t : Strand) => t.gslots.filterMap fun e =>
    ((s.groupOf c e.2).bind fun g => g.members.head?).map fun root => (e.1, s.localWord ctx root.core 7 e.2 1 rightS 0)
  s.modCore c fun x => { x with strands := mmap (fun _ t => { t with groupRoutes := routes t }) x.strands }

/-- A packet WAITING on a counter that has become 0 meanwhile is ELIGIBLE (R309). -/
def State.recheckQueue (s : State) (c : Nat) : State :=
  s.modCore c fun x => { x with queue := mmap (fun _ (e : TaskEntry) =>
    if e.state = .waiting ∧ ((s.die (dieOf c)).counter (WorkPacket.depctr e.packet)).value = 0 then
      { e with state := .eligible, acquire := 6 } else e) x.queue }

/-- What a restored core takes up again: aging, YIELDs, held releases (R346), a release being sent, takers, copy commands. -/
def State.resumeCore (s : State) (c : Nat) : State :=
  let x := s.core c
  let s1 := x.queue.foldl (fun s e => s.ageIn (e.2.stamp + agingClk - s.cycle) c e.1) s
  let s2 := x.strands.foldl (fun s e =>
    if e.2.wait = .yield then s.after 32 .yieldExpiry (.place { core := c, strand := e.1 }) else s) s1
  let s3 := x.views.foldl (fun s e => match e.2.held with
    | some (phase, r) => s.modCore c fun y => y.landRelease e.1 phase r
    | none => s) s2
  let s4 := x.barriers.foldl (fun s e => if e.2.state = .released then s.later .barrierReleaseSent (.item c e.1) else s) s3
  ((s4.recheckQueue c).serveTakers c).stirCopies c

/-- Whether the records of a context may go where a restore puts them: onto cores that it owns, or that are FREE, each one once. -/
def State.restorable (s : State) (ctx : Nat) (x : Context) (f : Nat → Nat) : Bool :=
  let new := (mkeys x.saved).map f
  new.eraseDups.length == new.length && new.all fun c =>
    !isManager c && c < managerBase && ((s.core c).owner.id == ctx || ((s.core c).owner.id == 0 && !s.inScrub c))

/-- Whether one rectangle lies in another, and whether two have no core in common. -/
def Rect.within (a b : Rect) : Bool := b.x0 ≤ a.x0 && a.x1 ≤ b.x1 && b.y0 ≤ a.y0 && a.y1 ≤ b.y1
def Rect.apart (a b : Rect) : Bool := a.x1 < b.x0 || b.x1 < a.x0 || a.y1 < b.y0 || b.y1 < a.y0

/-- Whether a restore moves whole plot rectangles (R375): each keeps its size, and splits no rectangle of a plot. -/
def State.movesWhole (s : State) (ctx : Nat) (moves : List (Rect × Rect)) : Bool :=
  moves.all fun e =>
    e.1.x1 - e.1.x0 == e.2.x1 - e.2.x0 && e.1.y1 - e.1.y0 == e.2.y1 - e.2.y0 &&
      (s.activeKernels ctx).all fun k =>
        ((mget s.kernels k).map Kernel.rects).all fun l => l.all fun r => r.within e.1 || r.apart e.1

/-- The plot tag of a kernel that comes back: its own, or another where it has been taken (R324). -/
def State.retag (s : State) (k : Nat) (q : Kernel) : State :=
  if s.cores.any fun e => e.2.kern.isSome && e.2.kern != some k && e.2.tag == q.tag then
    let t := s.freeTag.getD q.tag
    { s with
      kernels := mset s.kernels k { q with tag := t }
      cores := mmap (fun _ x => if x.kern = some k then { x with tag := t } else x) s.cores }
  else s

/-- The words of a restored strand that have been minted anew: those that differ from the saved ones, and its group routes. -/
def Context.newWords (x : Context) (f : Nat → Nat) (stays : Bool) (p : Place) (t : Strand) : List (Nat × RouteWord) :=
  let sv : Core := ((mfind (fun c _ => f c == p.core) x.saved).map (·.2)).getD .reset
  (t.routes.filter fun w => mget (sv.strand p.strand).routes w.1 != some w.2) ++ (if stays then [] else t.groupWords)

/-- A SUSPENDED context written back (R375): cores left behind are unlocked, cores taken are locked, then every record, the kernels'
places, the routes, and last the parked arrivals. -/
def State.restoreContext (s : State) (ctx : Nat) (x : Context) (f : Nat → Nat) (moves : List (Rect × Rect)) (part : Option Nat) :
    State :=
  let new := (mkeys x.saved).map f
  let left := (s.coresOf ctx).filter fun c => !new.contains c
  let s1 := left.foldl State.freeCore s
  let s2 := (new.filter fun c => (s1.core c).owner.id != ctx).foldl (fun s c => s.claimCore c ctx (x.saved.any fun e => e.2.owner.poison)) s1
  let ks := s.kernels.filter fun e => e.2.ctx == ctx && (x.saved.any fun c => c.2.kern == some e.1)
  let s3 := ks.foldl (fun s e => { s with kernels := mset s.kernels e.1 (e.2.move f) }) s2
  let r : Removal := { ctx := ctx, cores := x.saved, anew := (s.coresOf ctx).isEmpty, origin := x.origin }
  let s4 := x.saved.foldl (fun s e => s.restoreCore r f part e.1 e.2) s3
  let stays := new == mkeys x.saved && !r.anew
  let s5 := if stays then s4 else new.foldl (fun s c => s.remintGroups ctx c) s4
  let s6 := ks.foldl (fun s e => match mget s.kernels e.1 with | some q => s.retag e.1 q | none => s) s5
  let s7 := (ks.foldl (fun s e => s.passMints e.1 (x.newWords f stays)) s6).setContext ctx { x with
    state := .locked, saved := [], rects := x.rects ++ moves.map (·.2), origin := s.moduleId }
  let s7 := s7.syncKeys
  new.foldl (fun s c => s.unpark c) (new.foldl State.resumeCore s7)

/-- RESTORE (R366, R375): onto the saved cores, or with whole rectangles moved; part sets the partition of the cores, where it is
not the saved one (R69) (log 75, DESIGN CHOICE). -/
def execRestore (s : State) : Res :=
  match s.given with
  | .restore ctx moves part =>
    .next (
      s.orHeld .restore ctx <|
        match s.context ctx with
        | none => s.tell (.done .restore ctx false)
        | some x =>
          let f := movedTo moves
          if x.state ≠ .suspended ∨ !s.restorable ctx x f ∨ !s.movesWhole ctx moves then s.tell (.done .restore ctx false)
          else (s.restoreContext ctx x f moves part).tell (.done .restore ctx true))
  | _ => .fault .stepOperands

end Sys2Proof.Machine
end

