-- ==== Sys2Proof/Machine/Loop.lean ====
section
/-!
DEFINITION. LOOP and LOOPI (R130, R134).
-/

namespace Sys2Proof.Machine

/-- The effect of a LOOP word at the PC with its count known (R130). With a count of 0 the PC goes past the body (log 43, DEDUCED). -/
def loopEnter (s : State) (i : Instr) (p : Place) (t : Strand) (level : Nat) (len : BitVec 5) (n : Nat) : State :=
  let b0 := t.pc + 4
  let b1 := t.pc + BitVec.ofNat 64 (4 * (len.toNat + 1))
  let refuse := s.raise p causeLoop (wordOf i)
  if t.suspended then refuse
  else if level ≠ t.loops.length then refuse
  else if (match t.loops with | [] => false | r :: _ => r.last.ult b1) then refuse
  else if n = 0 then s.setStrand p (t.completeAt (b1 + 4))
  else
    let r : LoopRec := { remaining := n, initial := n, body := b0, len := len.toNat }
    s.setStrand p { t.completeAt b0 with
      loops := r :: t.loops, replay := if t.loops.isEmpty then [] else t.replay }

/-- LOOPI (R130). -/
def execLoopi (level : Fin 6) (len : BitVec 5) (count : BitVec 16) (s : State) : Res :=
  onStrand s fun p t => loopEnter s (.loopi level len count) p t level.val len count.toNat

/-- LOOP (R130): a count of 2^32 or more traps LOOP. -/
def execLoop (level : Fin 6) (len : BitVec 5) (a : SReg) (s : State) : Res :=
  onStrand s fun p t =>
    if 2 ^ 32 ≤ (t.s a).toNat then s.raise p causeLoop (wordOf (.loop level len a))
    else loopEnter s (.loop level len a) p t level.val len (t.s a).toNat

end Sys2Proof.Machine
end

