-- ==== Sys2Proof/Machine/Mem.lean ====
section
/-!
DEFINITION. Scalar loads and stores (R124 to R127).
-/

namespace Sys2Proof.Machine

/-- A loaded value extended to 64 bits (R125). -/
def extend (signed : Bool) (n : Nat) (b : List Byte) : Word :=
  if signed then BitVec.ofInt 64 (toInt (8 * n) (leNat b)) else BitVec.ofNat 64 (leNat b)

/-- What a read answered, applied to the strand: the value and completion, a stall, or UNCORRECTED. -/
def State.finishLoad (s : State) (p : Place) (t : Strand) (d : SReg) (signed : Bool) (n : Nat) (r : Fetched) : State :=
  match r with
  | .bytes b => s.complete p (t.setS d (extend signed n b))
  | .wait l => s.stallFor p l
  | .poisoned a => s.uncorrected p (BitVec.ofNat 64 a)

/-- A load of n bytes (R124, R125, R127). -/
def loadOp (s : State) (d a : SReg) (imm : BitVec 13) (n : Nat) (signed : Bool) : Res :=
  onStrand s fun p t =>
    let x := effAddr t a imm
    match s.target p t x n 0 with
    | .trap c => s.raise p c x
    | .walk => s.askWalk p x.toNat 0
    | .buffer off => s.finishLoad p t d signed n (s.fetchLocal p off n)
    | .phys pa e => (s.cacheHostLine (dieOf p.core) pa).finishLoad p t d signed n (s.fetchPhys p e pa n)

/-- A store of the n low bytes of a register (R124, R126, R127). -/
def storeOp (s : State) (b a : SReg) (imm : BitVec 13) (n : Nat) : Res :=
  onStrand s fun p t =>
    let x := effAddr t a imm
    let data := leBytes n (t.s b).toNat
    match s.target p t x n 1 with
    | .trap c => s.raise p c x
    | .walk => s.askWalk p x.toNat 1
    | .buffer off => s.localAccess p off n fun s =>
        (s.modCore p.core fun y => y.writeLocal off data).complete p t
    | .phys pa e =>
      if 16 ≤ (s.core p.core).sb.length then s.stall p .bufferSpace
      else
        let entry : SbEntry := { strand := p.strand, pa := pa, bytes := data, key := e.key, gen := e.gen }
        ((s.modCore p.core fun y => { y with sb := y.sb ++ [entry] }).complete p t).later .storeBufferDrain
          (.core p.core)

/-- LDB (R125). -/
def execLdb (d a : SReg) (imm : BitVec 13) (s : State) : Res := loadOp s d a imm 1 true
/-- LDBU (R125). -/
def execLdbu (d a : SReg) (imm : BitVec 13) (s : State) : Res := loadOp s d a imm 1 false
/-- LDH (R125). -/
def execLdh (d a : SReg) (imm : BitVec 13) (s : State) : Res := loadOp s d a imm 2 true
/-- LDHU (R125). -/
def execLdhu (d a : SReg) (imm : BitVec 13) (s : State) : Res := loadOp s d a imm 2 false
/-- LDW (R125). -/
def execLdw (d a : SReg) (imm : BitVec 13) (s : State) : Res := loadOp s d a imm 4 true
/-- LDWU (R125). -/
def execLdwu (d a : SReg) (imm : BitVec 13) (s : State) : Res := loadOp s d a imm 4 false
/-- LDD (R125). -/
def execLdd (d a : SReg) (imm : BitVec 13) (s : State) : Res := loadOp s d a imm 8 false
/-- STB (R126). -/
def execStb (b a : SReg) (imm : BitVec 13) (s : State) : Res := storeOp s b a imm 1
/-- STH (R126). -/
def execSth (b a : SReg) (imm : BitVec 13) (s : State) : Res := storeOp s b a imm 2
/-- STW (R126). -/
def execStw (b a : SReg) (imm : BitVec 13) (s : State) : Res := storeOp s b a imm 4
/-- STD (R126). -/
def execStd (b a : SReg) (imm : BitVec 13) (s : State) : Res := storeOp s b a imm 8

end Sys2Proof.Machine
end

