-- ==== Sys2Proof/Machine/MigrateEv.lean ====
section
/-!
DEFINITION. Migration between modules (R376, R377), alarms of levels 2 and 3 and what raises them (R378 to R380, R399).
-/

namespace Sys2Proof.Machine

/-! ### The source (R376) -/

/-- The bytes of a context's save area: its core and strand records (R374). -/
def State.savedBytes (s : State) (ctx : Nat) (x : Context) : List Byte :=
  readBytes s.mem x.save ((mkeys x.saved).map fun c => (({ s with cores := x.saved } : State).coreImage ctx c).length).sum

/-- What the chunks of a migration hold (R376), one after another: the core and strand records, the counters' values, the key slots with
their epochs, the translation block and the context key (log 77, DESIGN CHOICE). -/
def State.stream (s : State) (ctx : Nat) (x : Context) : List Byte :=
  s.savedBytes ctx x ++
  (x.counters.map fun e => leBytes 2 ((s.die e.1).counter e.2).value).flatten ++
  ((List.range 64).map fun n =>
    let k := mgetD x.slots n { key := none, epoch := 0 }
    leBytes 2 (k.epoch + 2 ^ 8 * k.key.isSome.toNat) ++ leBytes 32 ((k.key.map BitVec.toNat).getD 0)).flatten ++
  dword x.tb.croot ++ dword x.tb.poolbase ++ leBytes 2 x.tb.poolcnt ++ leBytes 2 x.tb.poolhead ++ leBytes 32 x.key.toNat

/-- What travels with a context: its bytes, and what they stand for: its record, its counters' values, its kernels. -/
def State.parcel (s : State) (ctx : Nat) (x : Context) : Parcel :=
  { context := x, values := x.counters.map fun e => ((s.die e.1).counter e.2).value
    kernels := s.kernels.filter fun e => e.2.ctx == ctx && (x.saved.any fun c => c.2.kern == some e.1)
    bytes := s.stream ctx x }

/-- Bytes cut into chunks of 64 KiB (R376). -/
def chunksOfBytes : Nat → List Byte → List (List Byte)
  | 0, _ => []
  | n + 1, b => if b.isEmpty then [] else b.take 65536 :: chunksOfBytes n (b.drop 65536)

/-- The nonce of a chunk: its number (R376). -/
def chunkNonce (no : Nat) : List Nat := (leBytes 12 no).map BitVec.toNat

/-- A manifest (R376): the number of chunks, and a digest over their tags in order. -/
def manifestBytes (tags : List (List Nat)) : List Nat :=
  (leBytes 8 tags.length).map BitVec.toNat ++ (leBytes 32 (Sha.digest tags.flatten)).map BitVec.toNat

/-- One chunk sealed under a transfer key and sent; the answer is its tag. -/
def State.sendChunk (s : State) (ctx no : Nat) (key : Key) (last : Bool) (plain : List Nat) (body : Option Parcel) : State × List Nat :=
  let c := Gcm.crypt key (chunkNonce no) plain
  let t := Gcm.tag key (chunkNonce no) [] c
  (s.tell (.chunk ctx no last c t body), t)

/-- The chunks of a migration sent (R376), and then the manifest, with what the model reads the bytes as. -/
def State.sendChunks (s : State) (ctx : Nat) (key : Key) (b : Parcel) : State :=
  let parts := chunksOfBytes (b.bytes.length + 1) b.bytes
  let r := parts.zipIdx.foldl (fun (r : State × List (List Nat)) e =>
    let q := r.1.sendChunk ctx (e.2 + 1) key false (e.1.map BitVec.toNat) none
    (q.1, r.2 ++ [q.2])) (s, [])
  (r.1.sendChunk ctx (parts.length + 1) key true (manifestBytes r.2) (some b)).1

/-- A step with a context and another module. -/
def onPeer (s : State) (f : Nat → Nat → State) : Res :=
  match s.given with
  | .peer c m => .next (f c m)
  | _ => .fault .stepOperands

/-- MIGRATE (R366, R376): only from SUSPENDED, and with a transfer key agreed. -/
def execMigrate (s : State) : Res :=
  onPeer s fun ctx m =>
    s.orHeld .migrate ctx <|
    match s.context ctx, mget s.transfer m with
    | some x, some key =>
      if x.state ≠ .suspended then s.tell (.done .migrate ctx false)
      else
        let g : Migration :=
          { outgoing := true, peer := m, chunks := [], count := none, verified := false, confirmed := false,
            lastClk := s.now, parcel := none }
        (({ s with migrations := mset s.migrations ctx g }).setContext ctx { x with
          state := .migratingOut }).sendChunks ctx key (s.parcel ctx x)
    | _, _ => s.tell (.done .migrate ctx false)

/-- CONFIRM (R376): accepted, the source zeroises its copy, unlocks, and acknowledges. -/
def execConfirm (s : State) : Res :=
  onContext s fun ctx x? =>
    match x?, mget s.migrations ctx with
    | some x, some g =>
      if x.state ≠ .migratingOut then s
      else
        let s1 := { s with migrations := mset s.migrations ctx { g with confirmed := true } }
        ((s1.beginUnlock ctx x).after 1 .unlock (.ctx ctx)).tell (.ack ctx)
    | _, _ => s

/-- What the destination has received discarded (R366). -/
def State.discardIncoming (s : State) (ctx : Nat) : State :=
  { s with migrations := mdel s.migrations ctx, contexts := mdel s.contexts ctx }

/-- MIGRATION_ABORT (R366, R377): the source goes back to SUSPENDED where no CONFIRM had been accepted, and otherwise the context is lost;
a destination discards what it has received. -/
def execMigrationAbort (s : State) : Res :=
  onContext s fun ctx x? =>
    match x?, mget s.migrations ctx with
    | some x, some g =>
      if x.state = .migratingOut then
        ({ s with migrations := mdel s.migrations ctx }).setContext ctx { x with state := .suspended }
      else if g.outgoing && g.confirmed then ({ s with migrations := mdel s.migrations ctx }).tell (.lost ctx)
      else if x.state = .migratingIn ∧ !g.outgoing then s.discardIncoming ctx
      else s
    | none, some g =>
      if g.outgoing && g.confirmed then ({ s with migrations := mdel s.migrations ctx }).tell (.lost ctx) else s
    | _, _ => s

/-! ### The destination (R376, R377) -/

/-- A context that receives a migration: nothing of it is there yet but what this module's host has given, the save area that is
reserved, the translation block with the system stage, and the PASID (R366, R376). -/
def incomingContext (save tb pasid : Nat) : Context :=
  { state := .migratingIn, rects := [], tbAddr := tb, tb := { croot := 0, sroot := 0, poolbase := 0, poolcnt := 0, poolhead := 0 }, save := save,
    pasid := pasid, counters := [], key := 0, slots := [], saved := [], origin := 0 }

/-- MIGRATION_OFFER (R366): accepted where the context is FREE here and a transfer key is agreed; the save area is reserved. -/
def execMigrationOffer (s : State) : Res :=
  match s.given with
  | .offer ctx m save tb pasid =>
    .next (
    if s.needsStart ∨ s.starting ∨ ctx = 0 ∨ 0xFFFF ≤ ctx ∨ (s.context ctx).isSome ∨ !mhas s.transfer m then s.tell (.done .migrationOffer ctx false)
    else
      let g : Migration :=
        { outgoing := false, peer := m, chunks := [], count := none, verified := false, confirmed := false,
          lastClk := s.now, parcel := none }
      (({ s with migrations := mset s.migrations ctx g }).setContext ctx (incomingContext save tb pasid)).tell (.done .migrationOffer ctx true))
  | _ => .fault .stepOperands

/-- Kernels of a migrated context under numbers that are free here: the new number of each. -/
def renumber (next : Nat) (ks : SMap Kernel) : List (Nat × Nat) := (mkeys ks).zipIdx.map fun e => (e.1, next + e.2)

/-- The destination commits (R376): the context is SUSPENDED here, with its counters, keys and kernels; its records stand in the save
area reserved here, and its translation block has this host's own system stage (log 77, DESIGN CHOICE). -/
def State.commitMigration (s : State) (ctx : Nat) (g : Migration) : State :=
  match g.parcel, s.context ctx with
  | some b, some x =>
    let n := (b.bytes.length - (2 * b.context.counters.length + 64 * 34 + 52))
    let tb : TransBlock := { b.context.tb with sroot := (s.readBlock 0 x.tbAddr).sroot }
    let nums := renumber (mnext s.kernels) b.kernels
    let num := fun (k : Nat) => ((nums.find? fun e => e.1 == k).map (·.2)).getD k
    let kernels := b.kernels.foldl (fun (m : SMap Kernel) e => mset m (num e.1) e.2) s.kernels
    let saved := mmap (fun _ (x : Core) => { x with kern := x.kern.map num }) b.context.saved
    let s1 := { s with migrations := mdel s.migrations ctx, kernels := kernels }.setContext ctx { b.context with
      state := .suspended, saved := saved, save := x.save, tbAddr := x.tbAddr, tb := tb, pasid := x.pasid, freed := [] }
    let s2 := ((s1.writeUnder b.context.key x.save (b.bytes.take n)).rawWrite x.tbAddr (dword tb.croot)).rawWrite (x.tbAddr + 16)
      (dword tb.poolbase ++ leBytes 2 tb.poolcnt ++ leBytes 2 tb.poolhead)
    ((b.context.counters.zip b.values).foldl (fun s e =>
      s.setCounter e.1.1 e.1.2 { value := e.2, owner := ctx }) s2).syncKeys
  | _, _ => s

/-- 10 ms at 1.5 GHz (R377). -/
def commitClk : Nat := 10 * clkPerMs

/-- Whether a manifest fits the chunks before it (R376): it gives their number and the digest over their tags; and the bytes are those of
the parcel that they stand for. -/
def Migration.complete (g : Migration) (no : Nat) (plain : List Nat) (body : Option Parcel) : Bool :=
  let got := (List.range (no - 1)).filterMap fun i => mget g.chunks (i + 1)
  got.length == no - 1 && plain == manifestBytes (got.map (·.1)) &&
    (match body with
     | some b => b.bytes.map BitVec.toNat == (got.map (·.2)).flatten
     | none => false)

/-- A chunk that verified, at the destination (R376): the manifest is held against every chunk before it, and is answered with
CONFIRM. -/
def State.takeChunk (s : State) (ctx : Nat) (g : Migration) (no : Nat) (last : Bool) (tag plain : List Nat) (body : Option Parcel) : State :=
  if !last then { s with migrations := mset s.migrations ctx { g with chunks := mset g.chunks no (tag, plain), lastClk := s.now } }
  else if !g.complete no plain body then (s.discardIncoming ctx).tell (.abort ctx)
  else
    (({ s with migrations := mset s.migrations ctx { g with
        count := some (no - 1), lastClk := s.now, parcel := body, verified := true, confirmed := true } }).tell
      (.confirm ctx)).after commitClk .migrationCommitTimeout (.ctx ctx)

/-- MIGRATION_CHUNK (R376, R377): a chunk is opened under the transfer key; a chunk or manifest that fails verification ends the
migration. -/
def execMigrationChunk (s : State) : Res :=
  match s.given with
  | .chunk ctx no last c tag body =>
    .next (match s.context ctx, mget s.migrations ctx with
      | some x, some g =>
        if x.state ≠ .migratingIn ∨ g.outgoing ∨ g.verified then s
        else
          match mget s.transfer g.peer with
          | none => (s.discardIncoming ctx).tell (.abort ctx)
          | some key =>
            if Gcm.tag key (chunkNonce no) [] c ≠ tag then (s.discardIncoming ctx).tell (.abort ctx)
            else s.takeChunk ctx g no last tag (Gcm.crypt key (chunkNonce no) c) body
      | _, _ => s)
  | _ => .fault .stepOperands

/-- A step at the destination of a migration. -/
def onIncoming (s : State) (f : Nat → Migration → State) : Res :=
  match s.given with
  | .ctx ctx =>
    .next (match s.context ctx, mget s.migrations ctx with
      | some x, some g => if x.state ≠ .migratingIn ∨ g.outgoing then s else f ctx g
      | _, _ => s)
  | _ => .fault .stepOperands

/-- MIGRATION_ACK (R376). -/
def execMigrationAck (s : State) : Res :=
  onIncoming s fun ctx g => if g.verified then s.commitMigration ctx g else s

/-- MIGRATION_COMMIT_TIMEOUT (R377): 10 ms after CONFIRM without source traffic. -/
def execMigrationCommitTimeout (s : State) : Res :=
  onIncoming s fun ctx g =>
    if g.confirmed && g.verified then
      (if g.lastClk + commitClk ≤ s.now then s.commitMigration ctx g
       else s.after (g.lastClk + commitClk - s.now) .migrationCommitTimeout (.ctx ctx))
    else s

/-- ALARM_NOTICE (R377): with every chunk and the manifest verified the destination commits alone; otherwise the context is
reported lost. -/
def execAlarmNotice (s : State) : Res :=
  onIncoming s fun ctx g =>
    if g.verified then s.commitMigration ctx g else (s.discardIncoming ctx).tell (.lost ctx)

/-! ### Alarms (R378 to R380, R399) -/

/-- A context frozen by a level-2 alarm (R366, R379): what is parked for it is refused, as its ports have advanced; one that is being
received is discarded, and its source told (R377). -/
def State.freezeContext (s : State) (ctx : Nat) : State :=
  match s.context ctx with
  | none => s
  | some x =>
    let frozen := ((s.coresOf ctx).foldl (fun s c =>
      (((s.releaseLeases c).cancelCopies c 8 fun _ _ => true).modCore c fun y => { y with
        owner := { y.owner with frozen := true }, stopping := false }).advancePorts c) s).setContext ctx { x with state := .alarmed }
    match x.state with
    | .locked | .suspended | .migratingOut => (s.coresOf ctx).foldl State.unpark frozen
    | .migratingIn => (({ s with migrations := mdel s.migrations ctx }).setContext ctx { x with
        state := .alarmed, saved := [] }).tell (.abort ctx)
    | _ => s

/-- ALARM_LEVEL2 (R379): every affected context is frozen. -/
def execAlarmLevel2 (s : State) : Res :=
  match s.given with
  | .alarm _ ctxs => .next (ctxs.foldl State.freezeContext s)
  | _ => .fault .stepOperands

/-- What a level-3 alarm makes of a migration (R377): a source sends its notice and reports the context lost, unless it has accepted
CONFIRM; a destination tells the source. -/
def State.tellPeer (s : State) (ctx : Nat) (g : Migration) : State :=
  if g.outgoing then (if g.confirmed then s else (s.tell (.notice ctx)).tell (.lost ctx)) else s.tell (.abort ctx)

/-- A core without a key (R380): its NI's cache, and what its TLB and its store buffer hold of them, are zeroised. -/
def Core.zeroised (x : Core) : Core :=
  { x with
    ni := { x.ni with keys := [] }
    tlb := x.tlb.map fun e => { e with key := 0 }
    sb := x.sb.map fun e => { e with key := 0 } }

/-- ALARM_LEVEL3 (R380): every derived key is zeroised in the security core, the key stores, the NIs and the gateway, every context is
ALARMED, every switch drops every packet, and the module requires a cold start (log 78, DEDUCED). -/
def execAlarmLevel3 (s : State) : Res :=
  match s.given with
  | .alarm _ _ =>
    .next (
      let s1 := s.migrations.foldl (fun s e => s.tellPeer e.1 e.2) s
      { s1 with
        fabricKey := 0
        linkKeys := []
        moduleKey := 0
        transportKey := 0
        transfer := []
        contexts := mmap (fun _ x => { x with
          state := .alarmed, key := 0, slots := [], saved := mmap (fun _ y => y.zeroised) x.saved }) s1.contexts
        cores := mmap (fun _ x => if x.owner.id = 0 then x.zeroised else { x.zeroised with owner := { x.owner with frozen := true } }) s1.cores
        dies := mmap (fun _ x => { x with keys := [], tcache := x.tcache.map fun e => { e with key := 0 } }) s1.dies
        migrations := []
        level3 := true
        needsStart := true
        starting := false })
  | _ => .fault .stepOperands

/-- The contexts with a core on a die (R378). -/
def State.contextsOn (s : State) (d : Nat) : List Nat :=
  ((s.cores.filter fun e => dieOf e.1 == d).map fun e => e.2.owner.id).eraseDups.filter (· != 0)

/-- The junction limits in °C: above the first a warning, above the others alarms of levels 2 and 3 (R399). -/
def warnLimit : Int := 95
def operatingLimit : Int := 105
def damageLimit : Int := 115

/-- The alarm level of a value against two ranges, the operating one and the one beyond which there is damage (R378). -/
def rangeLevel (v opLo opHi dmgLo dmgHi : Nat) : Nat := if v < dmgLo ∨ dmgHi < v then 3 else if v < opLo ∨ opHi < v then 2 else 0

/-- The alarm level of a reading (R378, R399). The spec gives no limits of voltage and clock (log 113, DESIGN CHOICE). -/
def Reading.level : Reading → Nat
  | .temperature c => if damageLimit < c then 3 else if operatingLimit < c then 2 else if warnLimit < c then 1 else 0
  | .voltage v => rangeLevel v (Config.sensorLimit 0) (Config.sensorLimit 1) (Config.sensorLimit 2) (Config.sensorLimit 3)
  | .clock f => rangeLevel f (Config.sensorLimit 4) (Config.sensorLimit 5) (Config.sensorLimit 6) (Config.sensorLimit 7)

/-- SENSOR_LIMIT (R378, R399): a temperature, voltage or clock of a die, which raises the alarm of its level, if it has one. -/
def execSensorLimit (s : State) : Res :=
  match s.given with
  | .sensor d v => .next (if v.level = 0 then s else s.raiseAlarm v.level trigSensor (if v.level = 2 then s.contextsOn d else []))
  | _ => .fault .stepOperands

/-- TAMPER_MESH (R378). -/
def execTamperMesh (s : State) : Res := .next (s.raiseAlarm 3 trigTamper [])

end Sys2Proof.Machine
end

