-- ==== Sys2Proof/Machine/Ring.lean ====
section
/-!
DEFINITION. The ring instructions (R190 to R194).
-/

namespace Sys2Proof.Machine

/-- The ring that sA names (R190). -/
def ringNo (a : Word) : Nat := bits a.toNat 0 4

/-- RINGCFG (R191): commands that name the ring end with reason RING-RESET, and the strand is STALLED until those have, as CPYCAN's
is. -/
def execRingcfg (a b : SReg) (s : State) : Res :=
  onStrand s fun p t =>
    let g := bits (t.s b).toNat 0 4
    let space := bits (t.s b).toNat 4 3
    let slot := bits (t.s b).toNat 8 8
    let count := bits (t.s b).toNat 16 10 + 1
    let base := (t.s a).toNat
    let size := 64 * slot * count
    let named := fun (q : CopySlot) => q.active && (q.names g true || q.names g false)
    let finish :=
      let hit := (s.core p.core).copies.filter fun e => named e.2
      if hit.isEmpty then (s.complete p t).setRing p.core g (ringOf (t.s a) (t.s b) p.strand)
      else (hit.foldl (fun s e => s.failCopy p.core e.1 5) s).modStrand p fun t =>
        t.hold s.now (.ringcfg (hit.map fun e => e.2.serial) (t.s a) (t.s b)) 0
    if 5 ≤ space then s.illegal p (.ringcfg a b)
    else if slot = 0 then finish
    else if base % 64 ≠ 0 then s.raise p causeMisalign (t.s a)
    else if space ≠ 0 && !inBuffer space base size then s.raise p causeSpace (t.s a)
    else if space = 0 ∧ 2 ^ 57 ≤ base then s.raise p causeSpace (t.s a)
    else finish

/-- RWAITF and RWAITE (R192). -/
def ringWait (s : State) (d a b : SReg) (filled : Bool) : Res :=
  onStrand s fun p t =>
    let g := ringNo (t.s a)
    let r := (s.core p.core).ring g
    let n := (t.s b).toNat
    if r.slot = 0 ∨ r.count < n then s.raise p causeSpace (t.s a)
    else if n ≤ r.waitCount filled then
      (s.complete p (t.setS d (BitVec.ofNat 64 (r.waitCount filled)))).acquireEffect p t.vec.scope
    else s.setStrand p (t.await s.now (.ring g filled n) d)

/-- RWAITF (R192). -/
def execRwaitf (d a b : SReg) (s : State) : Res := ringWait s d a b true
/-- RWAITE (R192). -/
def execRwaite (d a b : SReg) (s : State) : Res := ringWait s d a b false

/-- RADVH (R193): an acquire at VCFG.SCOPE (R254). -/
def execRadvh (d a b : SReg) (s : State) : Res :=
  onStrand s fun p t =>
    let g := ringNo (t.s a)
    let r := (s.core p.core).ring g
    let n := (t.s b).toNat
    if r.slot = 0 ∨ r.filled < n then s.raise p causeSpace (t.s a)
    else
      ((s.complete p (t.setS d (BitVec.ofNat 64 (r.filled - n)))).acquireEffect p t.vec.scope).setRing p.core g
        (r.consume n)

/-- RADVT (R193): a release at VCFG.SCOPE (R254). -/
def execRadvt (d a b : SReg) (s : State) : Res :=
  onStrand s fun p t =>
    let g := ringNo (t.s a)
    let r := (s.core p.core).ring g
    let n := (t.s b).toNat
    if r.slot = 0 ∨ r.count - r.filled < n then s.raise p causeSpace (t.s a)
    else s.release p t.vec.scope fun s =>
      (s.complete p (t.setS d (BitVec.ofNat 64 (r.filled + n)))).setRing p.core g (r.produce n)

/-- RSTAT (R194). -/
def execRstat (d a : SReg) (s : State) : Res :=
  onStrand s fun p t =>
    let r := (s.core p.core).ring (ringNo (t.s a))
    let v := if r.slot = 0 then 0 else
      r.filled + 2 ^ 16 * r.prod + 2 ^ 32 * r.cons + 2 ^ 48 * r.space + 2 ^ 63
    s.complete p (t.setS d (BitVec.ofNat 64 v))

end Sys2Proof.Machine
end

