-- ==== Sys2Proof/Machine/StartEv.lean ====
section
/-!
DEFINITION. Starts (R391, R392), duty modes (R395), firmware, measurements, logs and key agreement (R393, R394, R398).
-/

namespace Sys2Proof.Machine

/-! ### Starts (R391, R392) -/

/-- The number of the recovery slot; slots A and B are 0 and 1 (R393). -/
def recoverySlot : Nat := 2

/-- Whether the image of the slot that a start boots is valid: step 6 of R391. -/
def State.imageOk (s : State) (slot : Nat) : Bool := ((mget s.fwSlots slot).map FwImage.valid).getD false

/-- The slot that the next start boots: after three failed cold starts in a row the recovery slot (R392). -/
def State.bootSlot (s : State) : Nat := if 3 ≤ s.failedStarts then recoverySlot else s.fwActive

/-- The links as training leaves them (R281): those that have entries retired, which the repair map lists, entry e of link l as
1024·l + e, and those whose training has failed; every other link is UP (log 100, DESIGN CHOICE). -/
def trainedLinks (repair untrained : NSet) : SMap Link :=
  ((mkeys repair).map (· / 1024) ++ mkeys untrained).foldl (fun (m : SMap Link) l =>
    let n := ((mkeys repair).filter fun e => e / 1024 == l).length
    mset m l { state := if mhas untrained l then .down else entryState (linkEntries l - n), failures := 0, retired := n, detour := false })
    []

/-- After a start Linane reports the links that training has left DOWN (R281), and begins to put a detour in place around every link that
is not UP (R288). -/
def State.detourLinks (s : State) : State :=
  let down := mkeys (mfilter (fun _ (k : Link) => k.state == .down) s.links)
  let s1 := if down.isEmpty then s else s.tell (.linksDown down)
  s.links.foldl (fun s e => if e.2.state = .up then s else s.after remintClk .routeRemint (.link e.1)) s1

/-- The commands that wait for the end of a start, in the order of their arrival (R398): those held, then those not yet taken. -/
def State.heldCommands (s : State) : List Due := s.heldCmds ++ s.agenda.filter fun d => isCommand d.step && d.given != .resume

/-- The translation of a fabric manager core: device memory as it is, under the module's own key. The spec gives Linane's cores no
context and no tables (log 105, DESIGN CHOICE). -/
def linaneEntry (key : Key) : TlbEntry :=
  { ctx := 0, vbase := 0, size := deviceSize, pbase := 0, r := true, w := true, x := true, cow := false, dirty := true, key := key, gen := 0 }

/-- Linane begins to run on the fabric manager cores (R18): its image stands in device memory, and strand 0 of each runs it from its
first byte at supervisor privilege (log 105, DESIGN CHOICE). -/
def State.bindLinane (s : State) (linane : Option (Nat × List Byte)) : State :=
  match linane with
  | none => s
  | some (a, image) =>
    let t : Strand := { Strand.reset with
      run := .ready, pc := BitVec.ofNat 64 a, trap := { TrapCsr.reset with priv := true },
      time := { TimeCsr.reset with timerOff := 0 - BitVec.ofNat 64 s.now } }
    (List.range 16).foldl (fun s d => s.modCore (managerBase + d) fun x => { x with
      strands := [(0, t)], tlb := [linaneEntry s.moduleKey] }) (s.writeUnder s.moduleKey a image)

/-- What step 3 of a start leaves (R391): the temperatures at which each die's device memory was trained last. A warm start trains a die
again where its temperature differs from the saved one by 10 °C or more. -/
def trainedTemps (saved temps : SMap Int) (warm : Bool) : SMap Int :=
  temps.foldl (fun (m : SMap Int) e =>
    match mget saved e.1 with
    | some t => if warm && decide ((e.2 - t).natAbs < 10) then m else mset m e.1 e.2
    | none => mset m e.1 e.2) (if warm then saved else [])

/-- The module after a successful cold start (R391): as at reset, with the firmware, the repair map, the logs, the host's memory,
the module's place in the torus and the commands that it holds as they were; the keys are derived again, from the same seed (log 79,
DEDUCED). -/
def State.coldStarted (s : State) (repair untrained absent : NSet) (temps : SMap Int) : State :=
  State.detourLinks { State.reset with
    now := s.now
    startClk := s.now
    starts := s.starts + 1
    mem := mfilter (fun a _ => isHost a) s.mem
    trainedAt := trainedTemps s.trainedAt temps false
    manifests := s.manifests
    repairMap := repair
    links := trainedLinks repair untrained
    absent := absent
    fwSlots := s.fwSlots
    fwActive := s.bootSlot
    staged := s.staged
    alarms := s.alarms
    errors := s.errors
    completions := s.completions
    mgmtOut := s.mgmtOut
    fibreOut := s.fibreOut
    moduleId := s.moduleId
    torusC := s.torusC
    torusD := s.torusD
    draws := s.draws
    agenda := s.heldCommands }

/-- The module after a cold start that failed (R391, R392): nothing runs, no key is held, and only a start leaves this state. -/
def State.coldFailed (s : State) : State :=
  { s.coldStarted s.repairMap [] s.absent s.trainedAt with
    fabricKey := 0, linkKeys := [], moduleKey := 0, transportKey := 0, fwActive := s.fwActive, failedStarts := s.failedStarts + 1, needsStart := true }

/-- A cold start (R391, R392): one that fails is counted, and a failure of the recovery slot leaves only management. -/
def State.coldStart (s : State) (ok : Bool) (repair untrained absent : NSet) (temps : SMap Int) (linane : Option (Nat × List Byte)) :
    State :=
  if ok && s.imageOk s.bootSlot then (s.coldStarted repair untrained absent temps).bindLinane linane
  else if s.bootSlot = recoverySlot then ({ s.coldFailed with recoveryFailed := true }).tell .recoveryFailed
  else s.coldFailed

/-- COLD_START (R391). -/
def execColdStart (s : State) : Res :=
  match s.given with
  | .start ok repair untrained absent temps _ linane => .next (s.coldStart ok repair untrained absent temps linane)
  | _ => .fault .stepOperands

/-- A context's valid leaves (R350, R351). -/
def State.ctxLeaves (s : State) (ctx sroot : Nat) : Nat → Nat → List Leaf
  | l, ia => ((List.range (if l = 3 then 64 else 4096)).map fun i =>
    match s.sysWalk 0 ctx (ia + 8 * i) 3 sroot with
    | .error _ => []
    | .ok f =>
      let p := leafPa f (ia + 8 * i)
      let e := s.rawNat 0 p 8
      match l with
      | 0 => if pteV e then [{ pte := e, addr := p, size := 32768 }] else []
      | l + 1 =>
        if !pteV e then []
        else if l = 0 && pteLeaf e then [{ pte := e, addr := p, size := 2 ^ 27 }]
        else s.ctxLeaves ctx sroot l (pteFrame e)).flatten

/-- One page's generation advanced (R362): a page whose generation wraps is scrubbed. -/
def State.advancePage (s : State) (ctx : Nat) (f : Leaf) : State :=
  (if pteGen f.pte = 0x3FF then s.scrubPage 0 ctx f else s).rawWrite f.addr (leBytes 8 (ptePut f.pte 18 10 (pteGen f.pte + 1)))

/-- Every page generation that a context has in use advanced (R391, R362). -/
def State.advancePages (s : State) (ctx : Nat) (x : Context) : State :=
  (s.ctxLeaves ctx x.tb.sroot 3 x.tb.croot).foldl (fun s f => s.advancePage ctx f) s

/-- A core after a warm start (R391): nothing runs, every bay skimmed, keys and port generations kept. -/
def Core.warm (x : Core) : Core :=
  { (x.unbindAll.skimBays allBays) with
    stopping := false, scrub := [], sb := [], drains := x.drains + x.sb.length, dcache := [], icache := [], tlb := [], pend := [], ni := { x.ni with out := [], sink := [] } }

/-- The module after a successful warm start (R391, R392): memory keeps its contents, keys and slots are kept, links train, and parked
arrivals stay parked (R364). -/
def State.warmStarted (s : State) (untrained absent : NSet) (temps : SMap Int) : State :=
  let s1 := (mkeys s.dies).foldl (fun s d => s.writeBackDie d) s
  let s2 := s1.contexts.foldl (fun s e => s.advancePages e.1 e.2) s1
  State.detourLinks { s2 with
    startClk := s.now
    starts := s.starts + 1
    cores := mmap (fun _ x => x.warm) s2.cores
    dies := mmap (fun _ x => { x with
      hostLines := [], tcache := [], levels := [], services := [], flagged := false, launches := [], lost := [] }) s2.dies
    pageReqs := []
    packets := []
    links := trainedLinks s.repairMap untrained
    absent := absent
    dark := []
    fifos := []
    leased := []
    lastChannel := []
    starve := []
    dutyReqs := []
    tokenPacket := none
    owned := []
    needsStart := false
    starting := false
    startGiven := .none
    heldCmds := []
    trainedAt := trainedTemps s.trainedAt temps true
    agenda := s.heldCommands
    timers := s.dies.filterMap fun e =>
      if e.2.faultQueue.isEmpty then none else some (s.now + keepWaitingClk, { step := .keepWaitingTimer, given := .die e.1 }) }

/-- The requests of the host interfaces that are not completed begun again (R317). -/
def State.resumeRequests (s : State) : State := (mkeys s.hostQueues).foldl State.startRequest s

/-- Contexts whose suspension has not begun suspended (R392). -/
def State.suspendAll (s : State) (l : List Nat) : State :=
  l.foldl (fun (s : State) c => let l := s.coresOf c; if !l.isEmpty && l.all (fun k => (s.core k).stopping) then s else s.beginSuspend c) s

/-- What WARM_START does with the operands of the start that it has begun (R392): LOCKED contexts are suspended first, and other work
on contexts and shootdowns is waited for; step 6 holds the firmware's hash against the signed manifest (R391). One that fails continues as
a cold start. -/
def State.warmStart (s : State) (g : Given) : State :=
  match g with
  | .start ok repair untrained absent temps hash linane =>
    let locked := (s.contexts.filter fun e => e.2.state == .locked).map (·.1)
    let again := fun (s : State) => { s with starting := true, startGiven := g }.after 1 .warmStart .resume
    if s.contexts.any fun e => e.2.state == .alarmed then
      { s with starting := false, startGiven := .none, heldCmds := [], agenda := s.agenda ++ s.heldCmds }.tell (.done .warmStart 0 false)
    else if !locked.isEmpty then again (s.suspendAll locked)
    else if (s.contexts.any fun e => e.2.state != .suspended) || !s.shootdowns.isEmpty then again s
    else if ok && mget s.manifests s.fwActive == some hash then
      (((s.warmStarted untrained absent temps).bindLinane linane).tell (.done .warmStart 0 true)).resumeRequests
    else s.coldStart (Config.startPasses s.starts) repair untrained absent temps linane
  | _ => s

/-- WARM_START (R392): after a level-3 alarm, or while the module has no passed start, it runs as a cold start; one that arrives during
a start is held (R398). -/
def execWarmStart (s : State) : Res :=
  match s.given with
  | .start ok repair untrained absent temps _ linane =>
    .next (s.orHeldOnly .warmStart
      (if s.level3 || s.needsStart then s.coldStart ok repair untrained absent temps linane else s.warmStart s.given))
  | .resume => .next (if s.starting then s.warmStart s.startGiven else s)
  | _ => .fault .stepOperands

/-! ### Management (R393 to R395, R398) -/

/-- SET_DUTY (R43, R395): every core reads the new setting; services already begun end in the mode in which they began. -/
def execSetDuty (s : State) : Res :=
  match s.given with
  | .duty mask => .next (s.orHeldOnly .setDuty { s with duty := mask % 256 })
  | _ => .fault .stepOperands

/-- The firmware slot that a live update writes: the inactive one of A and B (R393). -/
def State.inactiveSlot (s : State) : Nat := if s.fwActive = 0 then 1 else 0

/-- FW_STAGE (R393): the image is written to the inactive slot; verified, it is staged there, and the security core holds its signed
manifest. -/
def execFwStage (s : State) : Res :=
  match s.given with
  | .firmware _ version digest ok =>
    .next (s.orHeldOnly .fwStage <|
      let i : FwImage := { version := version, digest := digest, valid := ok }
      { s with
        fwSlots := mset s.fwSlots s.inactiveSlot i
        staged := if ok then some (s.inactiveSlot, i) else none
        manifests := if ok then mset s.manifests s.inactiveSlot digest else s.manifests })
  | _ => .fault .stepOperands

/-- FW_ACTIVATE (R393): the switch to the slot of the staged image, as one event; it waits for no context. -/
def execFwActivate (s : State) : Res :=
  .next (s.orHeldOnly .fwActivate <| match s.staged with
    | none => s
    | some (slot, _) => { s with fwActive := slot, staged := none })

/-- READ_LOG (R378, R398). -/
def execReadLog (s : State) : Res := .next (s.orHeldOnly .readLog (s.tell (.log s.alarms s.errors)))

/-- GET_MEASUREMENTS (R394, R395): of the active slot, with ACTIVATION-PENDING while an image is staged, signed with the attestation
key. -/
def execGetMeasurements (s : State) : Res :=
  .next (
    let i := mgetD s.fwSlots s.fwActive FwImage.reset
    s.tell (.measured [i.version, i.digest] s.staged.isSome (bit s.duty 7)
      (Config.signature s.attestKey [i.version, i.digest, s.staged.isSome.toNat])))

/-- A transfer key with a module lost (R366): what is migrating to it, not confirmed, is SUSPENDED again. -/
def State.loseTransfer (s : State) (m : Nat) : State :=
  let out := mfilter (fun _ (g : Migration) => g.outgoing && g.peer == m && !g.confirmed) s.migrations
  { s with
    transfer := mdel s.transfer m
    migrations := mfilter (fun _ (g : Migration) => !(g.outgoing && g.peer == m && !g.confirmed)) s.migrations
    contexts := mmap (fun c x => if mhas out c && x.state == .migratingOut then { x with state := .suspended } else x) s.contexts }

/-- KEY_EXCHANGE (R376, R394): a transfer key agreed with another module, where both sides' LMS signatures verify, or none, and the
key that there was is lost (log 8, DESIGN CHOICE). -/
def execKeyExchange (s : State) : Res :=
  match s.given with
  | .exchange m ok =>
    .next (if ok then ({ s with draws := s.draws + 1, transfer := mset s.transfer m (Config.freshKey s.draws) }).tell (.keyAgreed m)
      else (s.loseTransfer m).tell (.keyLost m))
  | _ => .fault .stepOperands

end Sys2Proof.Machine
end

