-- ==== Sys2Proof/Machine/Sync.lean ====
section
/-!
DEFINITION. Fences and WFEV (R239 to R241, R252, R255).
-/

namespace Sys2Proof.Machine

/-- FENCE (R255): a release and an acquire. -/
def execFence (scope : Fin 7) (s : State) : Res :=
  onStrand s fun p t => s.release p scope.val fun s => (s.complete p t).acquireEffect p scope.val

/-- FENCEACQ (R255): earlier loads have their values already. -/
def execFenceacq (scope : Fin 7) (s : State) : Res :=
  onStrand s fun p t => (s.complete p t).acquireEffect p scope.val

/-- FENCEREL (R255). -/
def execFencerel (scope : Fin 7) (s : State) : Res :=
  onStrand s fun p t => s.release p scope.val fun s => s.complete p t

/-- FENCEENG (R240): the strand's stores leave the store buffer, its copy commands end, then FENCE. -/
def execFenceeng (scope : Fin 7) (s : State) : Res :=
  onStrand s fun p t =>
    if (s.core p.core).sbOf p.strand then s.stall p .bufferStrand
    else if (s.core p.core).copies.any fun e => e.2.active && e.2.strand == p.strand then s.stall p .copies
    else s.release p scope.val fun s => (s.complete p t).acquireEffect p scope.val

/-- WFEV (R241): of what came before, only the wake token ends it. -/
def execWfev (scope : Fin 7) (s : State) : Res :=
  onStrand s fun p t =>
    if t.wakeToken then (s.complete p { t with wakeToken := false }).acquireEffect p scope.val
    else s.setStrand p (t.await s.now (.wfev scope.val) 0)

end Sys2Proof.Machine
end

