-- ==== Sys2Proof/Machine/VFlt.lean ====
section
/-!
DEFINITION. Floating vector instructions and conversions (R155 to R157).
-/

namespace Sys2Proof.Machine

/-- The format and rounding mode in force. -/
def Strand.fmt (t : Strand) : FFmt := vfmtOf t.vec.vfmt

/-- A two-source floating instruction, by the format, the mode and the codes of a, b and d. -/
def vfltOp (s : State) (i : Instr) (d a : VReg) (b : VSrc) (f : FFmt → Nat → Nat → Nat → Nat → ElemRes) : Res :=
  vecOp s i (srcReg a :: srcOf b ++ [dstReg d]) d fun t n =>
    f t.fmt t.vec.rnd (elem (t.v a) t.sewW n) (srcElem t t.sewW b n) (elem (t.v d) t.sewW n)

/-- A one-source floating instruction. -/
def vflt1Op (s : State) (i : Instr) (d a : VReg) (f : FFmt → Nat → Nat → Nat → ElemRes) : Res :=
  vecOp s i [srcReg a, dstReg d] d fun t n => f t.fmt t.vec.rnd t.sewW (elem (t.v a) t.sewW n)

/-- VFADD. -/
def execVfadd (c : Bool) (d a : VReg) (b : VSrc) (s : State) : Res :=
  vfltOp s (.vfadd c d a b) d a b fun f r x y _ => f.round r (fadd r (f.dec x) (f.dec y))
/-- VFSUB. -/
def execVfsub (c : Bool) (d a : VReg) (b : VSrc) (s : State) : Res :=
  vfltOp s (.vfsub c d a b) d a b fun f r x y _ => f.round r (fadd r (f.dec x) (f.dec y).negate)
/-- VFMUL. -/
def execVfmul (c : Bool) (d a : VReg) (b : VSrc) (s : State) : Res :=
  vfltOp s (.vfmul c d a b) d a b fun f r x y _ => f.round r (fmul (f.dec x) (f.dec y))
/-- VFMA: a · b + d. -/
def execVfma (c : Bool) (d a : VReg) (b : VSrc) (s : State) : Res :=
  vfltOp s (.vfma c d a b) d a b fun f r x y z => f.round r (ffma r (f.dec x) (f.dec y) (f.dec z))
/-- VFMS: a · b − d. -/
def execVfms (c : Bool) (d a : VReg) (b : VSrc) (s : State) : Res :=
  vfltOp s (.vfms c d a b) d a b fun f r x y z => f.round r (ffma r (f.dec x) (f.dec y) (f.dec z).negate)
/-- VFNMA: −(a · b) + d. -/
def execVfnma (c : Bool) (d a : VReg) (b : VSrc) (s : State) : Res :=
  vfltOp s (.vfnma c d a b) d a b fun f r x y z => f.round r (ffma r (f.dec x).negate (f.dec y) (f.dec z))
/-- VFDIV. -/
def execVfdiv (c : Bool) (d a : VReg) (b : VSrc) (s : State) : Res :=
  vfltOp s (.vfdiv c d a b) d a b fun f r x y _ => fdiv f r (f.dec x) (f.dec y)
/-- VFSQRT. -/
def execVfsqrt (c : Bool) (d a : VReg) (s : State) : Res :=
  vflt1Op s (.vfsqrt c d a) d a fun f r _ x => fsqrt f r (f.dec x)
/-- VFMIN. -/
def execVfmin (c : Bool) (d a : VReg) (b : VSrc) (s : State) : Res :=
  vfltOp s (.vfmin c d a b) d a b fun f _ x y _ => (fminmax f false x y, 0)
/-- VFMAX. -/
def execVfmax (c : Bool) (d a : VReg) (b : VSrc) (s : State) : Res :=
  vfltOp s (.vfmax c d a b) d a b fun f _ x y _ => (fminmax f true x y, 0)
/-- VFABS. -/
def execVfabs (c : Bool) (d a : VReg) (s : State) : Res :=
  vflt1Op s (.vfabs c d a) d a fun f _ _ x => (if f.dec x = .nan then f.nanCode else x % f.signW, 0)
/-- VFNEG. -/
def execVfneg (c : Bool) (d a : VReg) (s : State) : Res :=
  vflt1Op s (.vfneg c d a) d a fun f _ _ x => (if f.dec x = .nan then f.nanCode else x ^^^ f.signW, 0)

/-- VFCVT (R157): element i goes to container i of the destination's bit image. -/
def execVfcvt (c : Bool) (d a : VReg) (f : Fin 32) (s : State) : Res :=
  vecGate s (.vfcvt c d a f) fun p t => s.withResident p t [srcReg a, dstReg d] fun u =>
    let r := computeElems (u.v d) (containerBits f.val) (s.actives p u (s.maskOf p t)) fun n =>
      convContainer f.val u.vec.rnd (u.fmt.dec (elem (u.v a) u.sewW n))
    s.complete p (s.endVstart p ((u.setV d r.1).addFlags true r.2))

/-- VFCVTI (R157). -/
def execVfcvti (c : Bool) (d a : VReg) (s : State) : Res :=
  vflt1Op s (.vfcvti c d a) d a fun f r w x =>
    let v := intConv r (-(2 ^ (w - 1) : Nat)) ((2 ^ (w - 1) : Nat) - 1) 0 (f.dec x)
    (ofInt w v.1, v.2)
/-- VICVTF (R157). -/
def execVicvtf (c : Bool) (d a : VReg) (s : State) : Res :=
  vflt1Op s (.vicvtf c d a) d a fun f r w x => f.conv r (ofScaled (toInt w x) 0)
/-- VFCLASS. -/
def execVfclass (c : Bool) (d a : VReg) (s : State) : Res :=
  vflt1Op s (.vfclass c d a) d a fun f _ _ x => (fclass f x, 0)

end Sys2Proof.Machine
end

