-- ==== Sys2Proof/Machine/VCmp.lean ====
section
/-!
DEFINITION. Vector comparisons (R164).
-/

namespace Sys2Proof.Machine

/-- A comparison: bit n of md for each active element, and flags. -/
def vcmpOp (s : State) (i : Instr) (d : MReg) (a : VReg) (b : VSrc) (f : Strand → Nat → Nat → Bool × BitVec 8) : Res :=
  vecGate s i fun p t => s.withResident p t (srcReg a :: srcOf b) fun u =>
    let r := (s.actives p u (s.maskOf p t)).foldl (fun (r : MImage × BitVec 8) n =>
      let v := f u (elem (u.v a) u.sewW n) (srcElem u u.sewW b n)
      (setMaskBit r.1 n v.1, r.2 ||| v.2)) (u.m d, 0)
    s.complete p (s.endVstart p ((u.setM d r.1).addFlags true r.2))

/-- An integer comparison: at a width, of two element values. -/
def vicmpOp (s : State) (i : Instr) (d : MReg) (a : VReg) (b : VSrc) (f : Nat → Nat → Nat → Bool) : Res :=
  vcmpOp s i d a b fun t x y => (f t.sewW x y, 0)

/-- VCEQ. -/
def execVceq (c : Bool) (d : MReg) (a : VReg) (b : VSrc) (s : State) : Res :=
  vicmpOp s (.vceq c d a b) d a b fun _ x y => x == y
/-- VCNE. -/
def execVcne (c : Bool) (d : MReg) (a : VReg) (b : VSrc) (s : State) : Res :=
  vicmpOp s (.vcne c d a b) d a b fun _ x y => x != y
/-- VCLT. -/
def execVclt (c : Bool) (d : MReg) (a : VReg) (b : VSrc) (s : State) : Res :=
  vicmpOp s (.vclt c d a b) d a b fun w x y => toInt w x < toInt w y
/-- VCLTU. -/
def execVcltu (c : Bool) (d : MReg) (a : VReg) (b : VSrc) (s : State) : Res :=
  vicmpOp s (.vcltu c d a b) d a b fun _ x y => x < y
/-- VCLE. -/
def execVcle (c : Bool) (d : MReg) (a : VReg) (b : VSrc) (s : State) : Res :=
  vicmpOp s (.vcle c d a b) d a b fun w x y => toInt w x ≤ toInt w y
/-- VCLEU. -/
def execVcleu (c : Bool) (d : MReg) (a : VReg) (b : VSrc) (s : State) : Res :=
  vicmpOp s (.vcleu c d a b) d a b fun _ x y => x ≤ y
/-- VCGT. -/
def execVcgt (c : Bool) (d : MReg) (a : VReg) (b : VSrc) (s : State) : Res :=
  vicmpOp s (.vcgt c d a b) d a b fun w x y => toInt w x > toInt w y
/-- VCGTU. -/
def execVcgtu (c : Bool) (d : MReg) (a : VReg) (b : VSrc) (s : State) : Res :=
  vicmpOp s (.vcgtu c d a b) d a b fun _ x y => x > y

/-- Whether either operand of a floating comparison is NaN. -/
def eitherNan (t : Strand) (x y : Nat) : Bool := t.fmt.dec x == .nan || t.fmt.dec y == .nan

/-- VFCEQ. -/
def execVfceq (c : Bool) (d : MReg) (a : VReg) (b : VSrc) (s : State) : Res :=
  vcmpOp s (.vfceq c d a b) d a b fun t x y =>
    (!eitherNan t x y && fcmp (t.fmt.dec x) (t.fmt.dec y) == .eq, 0)
/-- VFCLT. -/
def execVfclt (c : Bool) (d : MReg) (a : VReg) (b : VSrc) (s : State) : Res :=
  vcmpOp s (.vfclt c d a b) d a b fun t x y =>
    (!eitherNan t x y && fcmp (t.fmt.dec x) (t.fmt.dec y) == .lt, if eitherNan t x y then flagNV else 0)
/-- VFCLE. -/
def execVfcle (c : Bool) (d : MReg) (a : VReg) (b : VSrc) (s : State) : Res :=
  vcmpOp s (.vfcle c d a b) d a b fun t x y =>
    (!eitherNan t x y && fcmp (t.fmt.dec x) (t.fmt.dec y) != .gt, if eitherNan t x y then flagNV else 0)
/-- VFCUN. -/
def execVfcun (c : Bool) (d : MReg) (a : VReg) (b : VSrc) (s : State) : Res :=
  vcmpOp s (.vfcun c d a b) d a b fun t x y => (eitherNan t x y, 0)

end Sys2Proof.Machine
end

