-- ==== Sys2Proof/Machine/VInt.lean ====
section
/-!
DEFINITION. Integer vector instructions (R153, R154).
-/

namespace Sys2Proof.Machine

/-- A two-source integer instruction: element values as numbers of w bits. -/
def vintOp (s : State) (i : Instr) (d a : VReg) (b : VSrc) (f : Nat → Nat → Nat → Nat → ElemRes) : Res :=
  vecOp s i (srcReg a :: srcOf b ++ [dstReg d]) d fun t n =>
    f t.sewW (elem (t.v a) t.sewW n) (srcElem t t.sewW b n) (elem (t.v d) t.sewW n)

/-- A one-source integer instruction. -/
def vint1Op (s : State) (i : Instr) (d a : VReg) (f : Nat → Nat → ElemRes) : Res :=
  vecOp s i [srcReg a, dstReg d] d fun t n => f t.sewW (elem (t.v a) t.sewW n)

/-- A result without flags. -/
def plain (v : Nat) : ElemRes := (v, 0)

/-- A result given as an integer; the element keeps its low bits (R9). -/
def plainInt (w : Nat) (v : Int) : ElemRes := (ofInt w v, 0)

/-- VADD. -/
def execVadd (c : Bool) (d a : VReg) (b : VSrc) (s : State) : Res :=
  vintOp s (.vadd c d a b) d a b fun _ x y _ => plain (x + y)
/-- VSUB. -/
def execVsub (c : Bool) (d a : VReg) (b : VSrc) (s : State) : Res :=
  vintOp s (.vsub c d a b) d a b fun w x y _ => plainInt w ((x : Int) - y)
/-- VRSUB. -/
def execVrsub (c : Bool) (d a : VReg) (b : VSrc) (s : State) : Res :=
  vintOp s (.vrsub c d a b) d a b fun w x y _ => plainInt w ((y : Int) - x)
/-- VMUL. -/
def execVmul (c : Bool) (d a : VReg) (b : VSrc) (s : State) : Res :=
  vintOp s (.vmul c d a b) d a b fun _ x y _ => plain (x * y)
/-- VMULH. -/
def execVmulh (c : Bool) (d a : VReg) (b : VSrc) (s : State) : Res :=
  vintOp s (.vmulh c d a b) d a b fun w x y _ => plainInt w (toInt w x * toInt w y / (2 ^ w : Nat))
/-- VMULHU. -/
def execVmulhu (c : Bool) (d a : VReg) (b : VSrc) (s : State) : Res :=
  vintOp s (.vmulhu c d a b) d a b fun w x y _ => plain (x * y / 2 ^ w)
/-- VMADD: d + a · b. -/
def execVmadd (c : Bool) (d a : VReg) (b : VSrc) (s : State) : Res :=
  vintOp s (.vmadd c d a b) d a b fun _ x y z => plain (z + x * y)
/-- VMSUB: d − a · b. -/
def execVmsub (c : Bool) (d a : VReg) (b : VSrc) (s : State) : Res :=
  vintOp s (.vmsub c d a b) d a b fun w x y z => plainInt w ((z : Int) - x * y)

/-- The quotient of a division at width w, with its flag (R154). -/
def vquot (r : Division w) : ElemRes := (r.q.toNat, r.flags)
/-- The remainder. -/
def vrem (r : Division w) : ElemRes := (r.r.toNat, r.flags)

/-- VDIV. -/
def execVdiv (c : Bool) (d a : VReg) (b : VSrc) (s : State) : Res :=
  vintOp s (.vdiv c d a b) d a b fun w x y _ => vquot (divSigned (BitVec.ofNat w x) (BitVec.ofNat w y))
/-- VDIVU. -/
def execVdivu (c : Bool) (d a : VReg) (b : VSrc) (s : State) : Res :=
  vintOp s (.vdivu c d a b) d a b fun w x y _ => vquot (divUnsigned (BitVec.ofNat w x) (BitVec.ofNat w y))
/-- VREM. -/
def execVrem (c : Bool) (d a : VReg) (b : VSrc) (s : State) : Res :=
  vintOp s (.vrem c d a b) d a b fun w x y _ => vrem (divSigned (BitVec.ofNat w x) (BitVec.ofNat w y))
/-- VREMU. -/
def execVremu (c : Bool) (d a : VReg) (b : VSrc) (s : State) : Res :=
  vintOp s (.vremu c d a b) d a b fun w x y _ => vrem (divUnsigned (BitVec.ofNat w x) (BitVec.ofNat w y))

/-- VMIN. -/
def execVmin (c : Bool) (d a : VReg) (b : VSrc) (s : State) : Res :=
  vintOp s (.vmin c d a b) d a b fun w x y _ => plain (if toInt w x < toInt w y then x else y)
/-- VMAX. -/
def execVmax (c : Bool) (d a : VReg) (b : VSrc) (s : State) : Res :=
  vintOp s (.vmax c d a b) d a b fun w x y _ => plain (if toInt w x > toInt w y then x else y)
/-- VMINU. -/
def execVminu (c : Bool) (d a : VReg) (b : VSrc) (s : State) : Res :=
  vintOp s (.vminu c d a b) d a b fun _ x y _ => plain (min x y)
/-- VMAXU. -/
def execVmaxu (c : Bool) (d a : VReg) (b : VSrc) (s : State) : Res :=
  vintOp s (.vmaxu c d a b) d a b fun _ x y _ => plain (max x y)
/-- VAND. -/
def execVand (c : Bool) (d a : VReg) (b : VSrc) (s : State) : Res :=
  vintOp s (.vand c d a b) d a b fun _ x y _ => plain (x &&& y)
/-- VOR. -/
def execVor (c : Bool) (d a : VReg) (b : VSrc) (s : State) : Res :=
  vintOp s (.vor c d a b) d a b fun _ x y _ => plain (x ||| y)
/-- VXOR. -/
def execVxor (c : Bool) (d a : VReg) (b : VSrc) (s : State) : Res :=
  vintOp s (.vxor c d a b) d a b fun _ x y _ => plain (x ^^^ y)
/-- VSLL: sh is b modulo SEW. -/
def execVsll (c : Bool) (d a : VReg) (b : VSrc) (s : State) : Res :=
  vintOp s (.vsll c d a b) d a b fun w x y _ => plain (x * 2 ^ (y % w))
/-- VSRL. -/
def execVsrl (c : Bool) (d a : VReg) (b : VSrc) (s : State) : Res :=
  vintOp s (.vsrl c d a b) d a b fun w x y _ => plain (x / 2 ^ (y % w))
/-- VSRA. -/
def execVsra (c : Bool) (d a : VReg) (b : VSrc) (s : State) : Res :=
  vintOp s (.vsra c d a b) d a b fun w x y _ => plainInt w (toInt w x / (2 ^ (y % w) : Nat))

/-- A result clamped to a range, with SAT when it was outside (R154). -/
def saturate (w : Nat) (lo hi v : Int) : ElemRes :=
  if hi < v then (ofInt w hi, flagSAT) else if v < lo then (ofInt w lo, flagSAT) else (ofInt w v, 0)
/-- The signed and unsigned ranges of a width. -/
def saturateS (w : Nat) (v : Int) : ElemRes := saturate w (-(2 ^ (w - 1) : Nat)) ((2 ^ (w - 1) : Nat) - 1) v
def saturateU (w : Nat) (v : Int) : ElemRes := saturate w 0 ((2 ^ w : Nat) - 1) v

/-- VSADD. -/
def execVsadd (c : Bool) (d a : VReg) (b : VSrc) (s : State) : Res :=
  vintOp s (.vsadd c d a b) d a b fun w x y _ => saturateS w (toInt w x + toInt w y)
/-- VSADDU. -/
def execVsaddu (c : Bool) (d a : VReg) (b : VSrc) (s : State) : Res :=
  vintOp s (.vsaddu c d a b) d a b fun w x y _ => saturateU w ((x : Int) + y)
/-- VSSUB. -/
def execVssub (c : Bool) (d a : VReg) (b : VSrc) (s : State) : Res :=
  vintOp s (.vssub c d a b) d a b fun w x y _ => saturateS w (toInt w x - toInt w y)
/-- VSSUBU. -/
def execVssubu (c : Bool) (d a : VReg) (b : VSrc) (s : State) : Res :=
  vintOp s (.vssubu c d a b) d a b fun w x y _ => saturateU w ((x : Int) - y)

/-- VMERGE: every element from VSTARTk to VL − 1; the mask only chooses the source. -/
def execVmerge (c : Bool) (d a : VReg) (b : VSrc) (s : State) : Res :=
  needLanes s (.vmerge c d a b) fun p t =>
    let m := s.maskOf p t
    vecRun s p t (srcReg a :: srcOf b ++ [dstReg d]) d (BitVec.allOnes 512) fun u n =>
      plain (if m.getLsbD n then elem (u.v a) u.sewW n else srcElem u u.sewW b n)
/-- VMV. -/
def execVmv (c : Bool) (d : VReg) (b : VSrc) (s : State) : Res :=
  vecOp s (.vmv c d b) (srcOf b ++ [dstReg d]) d fun t n => plain (srcElem t t.sewW b n)
/-- VABS: MIN gives MIN. -/
def execVabs (c : Bool) (d a : VReg) (s : State) : Res :=
  vint1Op s (.vabs c d a) d a fun w x => plainInt w (toInt w x).natAbs
/-- VCLZ. -/
def execVclz (c : Bool) (d a : VReg) (s : State) : Res :=
  vint1Op s (.vclz c d a) d a fun w x => plain (clzFrom w x)
/-- VPOPC. -/
def execVpopc (c : Bool) (d a : VReg) (s : State) : Res :=
  vint1Op s (.vpopc c d a) d a fun w x => plain (popcFrom w x)

end Sys2Proof.Machine
end

