-- ==== Sys2Proof/Machine/VMask.lean ====
section
/-!
DEFINITION. Mask instructions (R165). They ignore the mask in force; only MFROMV and MTOV name a vector register.
-/

namespace Sys2Proof.Machine

/-- The elements a mask instruction processes: from VSTARTk up to VL or to the stop. -/
def State.maskActives (s : State) (p : Place) (t : Strand) : List Nat := s.actives p t (BitVec.allOnes 512)

/-- A mask with some bits computed. -/
def computeBits (m : MImage) (is : List Nat) (f : Nat → Bool) : MImage :=
  is.foldl (fun (r : MImage) n => setMaskBit r n (f n)) m

/-- A bitwise mask instruction. -/
def maskOp (s : State) (d : MReg) (f : Strand → Nat → Bool) : Res :=
  onStrand s fun p t =>
    s.complete p (s.endVstart p (t.setM d (computeBits (t.m d) (s.maskActives p t) (f t))))

/-- MAND. -/
def execMand (_c : Bool) (d a b : MReg) (s : State) : Res :=
  maskOp s d fun t n => (t.m a).getLsbD n && (t.m b).getLsbD n
/-- MOR. -/
def execMor (_c : Bool) (d a b : MReg) (s : State) : Res :=
  maskOp s d fun t n => (t.m a).getLsbD n || (t.m b).getLsbD n
/-- MXOR. -/
def execMxor (_c : Bool) (d a b : MReg) (s : State) : Res :=
  maskOp s d fun t n => (t.m a).getLsbD n != (t.m b).getLsbD n
/-- MANDN. -/
def execMandn (_c : Bool) (d a b : MReg) (s : State) : Res :=
  maskOp s d fun t n => (t.m a).getLsbD n && !(t.m b).getLsbD n
/-- MNOT. -/
def execMnot (_c : Bool) (d a : MReg) (s : State) : Res := maskOp s d fun t n => !(t.m a).getLsbD n

/-- An unsplit mask instruction (R149): one that completed earlier in its convoy keeps its destination. The written bit
of a mask register that a skipped instruction names is set (R146); that of a scalar one stays as it was (log 102, DESIGN CHOICE). -/
def maskUnsplit (s : State) (keep f : Strand → Strand) : Res :=
  onStrand s fun p t => s.complete p (s.endVstart p (if s.unsplitDone p t then keep t else f t))

/-- The first 1 of a mask below VL. -/
def firstBit (t : Strand) (a : MReg) : Option Nat := (List.range t.vec.vl).find? fun n => (t.m a).getLsbD n

/-- MPOPC. -/
def execMpopc (_c : Bool) (d : SReg) (a : MReg) (s : State) : Res :=
  maskUnsplit s id fun t => t.setS d (BitVec.ofNat 64 (popcFrom t.vec.vl (t.m a).toNat))
/-- MFIRST. -/
def execMfirst (_c : Bool) (d : SReg) (a : MReg) (s : State) : Res :=
  maskUnsplit s id fun t => t.setS d (match firstBit t a with
    | some n => BitVec.ofNat 64 n
    | none => BitVec.allOnes 64)
/-- MSKFT. -/
def execMskft (_c : Bool) (d a : MReg) (s : State) : Res :=
  maskUnsplit s (fun t => t.setM d (t.m d)) fun t => t.setM d (computeBits (t.m d) (List.range t.vec.vl) fun n => match firstBit t a with
    | some f => n ≤ f
    | none => true)
/-- MSKBF. -/
def execMskbf (_c : Bool) (d a : MReg) (s : State) : Res :=
  maskUnsplit s (fun t => t.setM d (t.m d)) fun t => t.setM d (computeBits (t.m d) (List.range t.vec.vl) fun n => match firstBit t a with
    | some f => n < f
    | none => true)
/-- MFROMV. -/
def execMfromv (c : Bool) (d : MReg) (a : VReg) (s : State) : Res :=
  vecGate s (.mfromv c d a) fun p t => s.withResident p t [srcReg a] fun u =>
    s.complete p (s.endVstart p (u.setM d (computeBits (u.m d) (s.maskActives p u) fun n =>
      elem (u.v a) u.sewW n != 0)))
/-- MTOV. -/
def execMtov (c : Bool) (d : VReg) (a : MReg) (s : State) : Res :=
  vecGate s (.mtov c d a) fun p t =>
    vecRun s p t [dstReg d] d (BitVec.allOnes 512) fun u n => (((u.m a).getLsbD n).toNat, 0)

end Sys2Proof.Machine
end

