-- ==== Sys2Proof/Machine/VMem.lean ====
section
/-!
DEFINITION. Vector memory instructions (R166 to R171): the addresses of the elements, the checks of R167, the commit of the
elements below a faulting one, and what the fault does.
-/

namespace Sys2Proof.Machine

/-- Where an element's bytes lie. -/
inductive VLoc where
  | buffer (off : Nat)
  | phys (pa : Nat) (e : TlbEntry)
  deriving DecidableEq, Repr

/-- What is wrong with a faulting element: a trap, a fault that the page service can satisfy, or a table entry in a poisoned line
(R373). -/
inductive VFail where
  | trap (cause : Nat) (x : Word)
  | page (x : Word) (kind : Nat) (why : Xlat)
  | spoilt (pa : Word)
  deriving DecidableEq, Repr

/-- A vector access before its elements are looked at: element bytes, space, access kind, and the byte range that a
ring's slot allows as first byte and size. -/
structure VAccess where
  size : Nat
  space : Nat
  kind : Nat
  slot : Option (Int × Nat)
  deriving DecidableEq, Repr

/-- The low 64 bits of an address, as TVAL holds it. -/
def tvalOf (x : Int) : Word := BitVec.ofInt 64 x

/-- The checks of R167 and of R169 on one element. -/
def State.vlocate (s : State) (p : Place) (t : Strand) (a : VAccess) (x : Int) : State × Except VFail VLoc :=
  let outside := match a.slot with
    | some (b, n) => decide (x < b) || decide (b + n ≤ x)
    | none => false
  if outside then (s, .error (.trap causeSpace (tvalOf x)))
  else if a.space = 0 then
    let v := tvalOf x
    if v.toNat % a.size ≠ 0 then (s, .error (.trap causeMisalign v))
    else if 2 ^ 57 ≤ v.toNat then (s, .error (.trap (pageCause a.kind) v))
    else
      let r := s.translate p.core v.toNat a.kind
      match r.2 with
      | .ok e => (r.1, .ok (.phys (e.pa v.toNat) e))
      | .error why =>
        match why with
        | .spoilt pa => (r.1, .error (.spoilt (BitVec.ofNat 64 pa)))
        | _ =>
          if why.satisfiable && t.walked != some (v.toNat, a.kind) then (r.1, .error (.page v a.kind why))
          else (r.1, .error (.trap (pageCause a.kind) v))
  else if x % (a.size : Int) ≠ 0 then (s, .error (.trap causeMisalign (tvalOf x)))
  else if 0 ≤ x && inBuffer a.space x.toNat a.size then (s, .ok (.buffer (bufBase a.space + x.toNat)))
  else (s, .error (.trap causeSpace (tvalOf x)))

/-- Why an access goes no further than an element: a fault, or a resource that the element waits for. -/
inductive VStop where
  | fail (f : VFail)
  | wait (l : Lack)
  deriving DecidableEq, Repr

/-- Whether an access goes no further because it waits. -/
def VStop.isWait : VStop → Bool
  | .wait _ => true
  | .fail _ => false

/-- What one element waits for (R51, R55, R77, R170, R257) (log 40, DEDUCED). -/
def State.vwait (s : State) (p : Place) (a : VAccess) : VLoc → Option Lack
  | .buffer off => (s.core p.core).localWait (some p.strand) off a.size
  | .phys pa _ =>
    if a.kind = 1 then
      if (s.core p.core).sbOf p.strand then some .bufferStrand else s.lineWait p.core pa
    else if (s.core p.core).sb.any fun e => e.overlaps pa a.size then some (.bufferBytes pa a.size)
    else s.lineWait p.core pa

/-- What an access's elements came to: the places of those it reaches, and the first that it does not, with the reason. -/
structure VScan where
  st : State
  good : List (Nat × VLoc)
  stop : Option (Nat × VStop)

/-- The elements of an access in ascending order, up to the first that faults or waits (R167, R170). -/
def State.vscan (s : State) (p : Place) (t : Strand) (a : VAccess) (addr : Nat → Int) : List Nat → VScan
  | [] => { st := s, good := [], stop := none }
  | i :: r =>
    let l := s.vlocate p t a (addr i)
    match l.2 with
    | .error f => { st := l.1, good := [], stop := some (i, .fail f) }
    | .ok v =>
      match l.1.vwait p a v with
      | some k => { st := l.1, good := [], stop := some (i, .wait k) }
      | none =>
        let rest := l.1.vscan p t a addr r
        { rest with good := (i, v) :: rest.good }

/-- Whether an element that is loaded lies in a poisoned line (R373) (log 59, DEDUCED). -/
def State.vpoisoned (s : State) (p : Place) (a : VAccess) : VLoc → Bool
  | .buffer off => (s.core p.core).localPoisoned off a.size
  | .phys pa _ => s.physPoisoned pa a.size

/-- The local offset or physical address that an uncorrected error is reported at. -/
def VLoc.at' : VLoc → Nat
  | .buffer off => off
  | .phys pa _ => pa

/-- The value of one element loaded. -/
def State.vread (s : State) (p : Place) (a : VAccess) : VLoc → Nat
  | .buffer off => leNat ((s.core p.core).readLocal off a.size)
  | .phys pa e => leNat (s.physRead (dieOf p.core) e.key e.gen pa a.size)

/-- The state after one element is stored. -/
def State.vwrite (s : State) (p : Place) (a : VAccess) (v : Nat) : VLoc → State
  | .buffer off => s.modCore p.core fun x => x.writeLocal off (leBytes a.size v)
  | .phys pa e => s.physWrite (dieOf p.core) p.core e.key e.gen pa (leBytes a.size v)

/-- The granary's copy of the host lines that are read (R251). -/
def State.vcache (s : State) (p : Place) (good : List (Nat × VLoc)) : State :=
  good.foldl (fun s e => match e.2 with
    | .buffer _ => s
    | .phys pa _ => s.cacheHostLine (dieOf p.core) pa) s

/-- A strand parked on a page fault (R56, R356): attached to its service, or STALLED while the station has no record. Its vector
instruction has begun and is executed anew. -/
def State.parkOn (s : State) (p : Place) (x : Word) (kind : Nat) (why : Xlat) : State :=
  let d := dieOf p.core
  let s1 := s.openService d (s.core p.core).owner.id why x.toNat (storesKind kind) (some p)
  let on := s1.attached p
  s1.modStrand p fun t =>
    if on then { t.begun none with run := .parked, lack := .none, wait := .page x.toNat kind }
    else (t.begun none).stall (.service x.toNat kind)

/-- What a faulting element does once the elements below it are committed (R167). -/
def State.vfail (s : State) (p : Place) (f : VFail) : State :=
  match f with
  | .trap c x => s.raise p c x
  | .page x kind why => s.parkOn p x kind why
  | .spoilt pa => s.uncorrected p pa

/-- The strand's progress at an element (R167). -/
def Strand.progress (t : Strand) (k e : Nat) : Strand := { t with vec := t.vec.setVstart k e }

/-- An access that goes no further than element e, its strand as the elements below e leave it (R167, R170): a fault, or a wait
with the instruction in progress. An access whose first element waits has not begun. -/
def State.vstop (s : State) (p : Place) (t : Strand) (began : Bool) (m : MImage) (e : Nat) (why : VStop) : State :=
  match why with
  | .fail f => (s.setStrand p (t.progress (s.member p) e)).vfail p f
  | .wait l =>
    if began then (s.setStrand p ((t.progress (s.member p) e).begun (some m))).stall p l
    else s.stall p l

/-- What an instruction's elements are: their access and addresses, or the ring's slot (R166, R169). -/
structure VForm where
  acc : VAccess
  addr : Nat → Int

/-- The access of a vector memory instruction with a base register and perhaps an index register (R166) (log 41, DEDUCED). -/
def vform (t : Strand) (a : SReg) (idx : Option VReg) (bcast : Bool) (kind : Nat) : VForm :=
  { acc := { size := t.sewW / 8, space := t.vec.space, kind := kind, slot := none }
    addr := fun i => ((t.s a).toNat : Int) + (match idx with
      | some r => (elem (t.v r) t.sewW i : Nat)
      | none => if bcast then 0 else (i : Int) * t.vec.vstride.toInt) }

/-- The access of VLDQ and VSTQ (R169). -/
def vringForm (x : Core) (t : Strand) (a : SReg) (store : Bool) : VForm :=
  let o := ringOperand (t.s a)
  let r := x.ring o.1
  let k := ((if store then r.prod else r.cons) + o.2.1) % r.count
  let b : Int := ((r.base + 64 * r.slot * k : Nat) : Int)
  { acc := { size := t.sewW / 8, space := r.space, kind := if store then 1 else 0, slot := some (b, 64 * r.slot) }
    addr := fun i => b + (o.2.2 : Int) + (i : Int) * t.vec.vstride.toInt }

/-- A vector load (R167, R170); ff is VLDFF's rule (R168), bcast VLDBC's single access. A VLDFF that has waited or paused behind its
first active element goes on as one that has passed it: a later failure shortens VL. Once a suspension has stopped it, R168 begins
anew at VSTART0 (log 86, DESIGN CHOICE). -/
def vloadRun (s : State) (p : Place) (u : Strand) (d : VReg) (f : VForm) (ff bcast : Bool) : State :=
  let mask := s.maskOf p u
  let is := s.actives p u mask
  let c := s.vscan p u f.acc f.addr (if bcast then is.take 1 else is)
  match c.good.find? fun e => c.st.vpoisoned p f.acc e.2 with
  | some e => c.st.uncorrected p (BitVec.ofNat 64 e.2.at')
  | none =>
    let s1 := c.st.vcache p c.good
    let w := 8 * f.acc.size
    let put := fun (m : VImage) (e : Nat × VLoc) => setElem m w e.1 (s1.vread p f.acc e.2)
    let img :=
      if bcast then
        (match c.good with
         | [] => u.v d
         | e :: _ => is.foldl (fun (m : VImage) i => setElem m w i (s1.vread p f.acc e.2)) (u.v d))
      else c.good.foldl put (u.v d)
    let t1 := u.setV d img
    match c.stop with
    | none =>
      let s2 := s1.acquireEffect p u.vec.scope
      s2.complete p (s2.endVstart p t1)
    | some (e, why) =>
      let isFail := match why with
        | .fail (.spoilt _) => false
        | .fail _ => true
        | .wait _ => false
      if isFail && ff && (is.head? != some e || u.midMask.isSome) then
        let s2 := s1.acquireEffect p u.vec.scope
        s2.complete p (s2.endVstart p { t1 with vec := { t1.vec with vl := e } })
      else if c.good.isEmpty && why.isWait then s1.vstop p u false mask e why
      else (s1.acquireEffect p u.vec.scope).vstop p t1 true mask e why

/-- A vector store (R167, R170): elements in ascending index, after the release that VCFG.SCOPE asks for. -/
def vstoreRun (s : State) (p : Place) (u : Strand) (d : VReg) (f : VForm) : State :=
  s.release p u.vec.scope fun s =>
    let mask := s.maskOf p u
    let c := s.vscan p u f.acc f.addr (s.actives p u mask)
    let s1 := c.good.foldl (fun s e => s.vwrite p f.acc (elem (u.v d) u.sewW e.1) e.2) c.st
    match c.stop with
    | none => s1.complete p (s1.endVstart p u)
    | some (e, why) => s1.vstop p u (!c.good.isEmpty) mask e why

/-- The register numbers a vector memory instruction names. -/
def idxNeeds (idx : Option VReg) : List (Nat × Bool) := (idx.map srcReg).toList

/-- A vector load with a base register. -/
def vldOp (s : State) (i : Instr) (d : VReg) (a : SReg) (idx : Option VReg) (ff bcast : Bool) : Res :=
  vecGate s i fun p t => s.withResident p t (idxNeeds idx ++ [dstReg d]) fun u =>
    vloadRun s p u d (vform u a idx bcast 0) ff bcast

/-- A vector store with a base register; D names the data register. -/
def vstOp (s : State) (i : Instr) (d : VReg) (a : SReg) (idx : Option VReg) : Res :=
  vecGate s i fun p t => s.withResident p t (idxNeeds idx ++ [srcReg d]) fun u =>
    vstoreRun s p u d (vform u a idx false 1)

/-- VLD. -/
def execVld (c : Bool) (d : VReg) (a : SReg) (s : State) : Res := vldOp s (.vld c d a) d a none false false
/-- VLDFF (R168). -/
def execVldff (c : Bool) (d : VReg) (a : SReg) (s : State) : Res := vldOp s (.vldff c d a) d a none true false
/-- VLDX. -/
def execVldx (c : Bool) (d : VReg) (a : SReg) (b : VReg) (s : State) : Res :=
  vldOp s (.vldx c d a b) d a (some b) false false
/-- VST. -/
def execVst (c : Bool) (d : VReg) (a : SReg) (s : State) : Res := vstOp s (.vst c d a) d a none
/-- VSTX. -/
def execVstx (c : Bool) (d : VReg) (a : SReg) (b : VReg) (s : State) : Res := vstOp s (.vstx c d a b) d a (some b)
/-- VLDQ (R169). -/
def execVldq (c : Bool) (d : VReg) (a : SReg) (s : State) : Res :=
  vecGate s (.vldq c d a) fun p t => s.withResident p t [dstReg d] fun u =>
    vloadRun s p u d (vringForm (s.core p.core) u a false) false false
/-- VSTQ (R169). -/
def execVstq (c : Bool) (d : VReg) (a : SReg) (s : State) : Res :=
  vecGate s (.vstq c d a) fun p t => s.withResident p t [srcReg d] fun u =>
    vstoreRun s p u d (vringForm (s.core p.core) u a true)
/-- VLDBC. -/
def execVldbc (c : Bool) (d : VReg) (a : SReg) (s : State) : Res := vldOp s (.vldbc c d a) d a none false true

/-- The element at which a vector memory member would go no further in a state, why, and whether it would have begun (R68): what a
convoy's driver asks. -/
def State.vmemStop (s : State) (p : Place) (i : Instr) : Option (Nat × VStop × Bool) :=
  let u := s.strand p
  let is := s.actives p u (s.maskOf p u)
  let scan := fun (f : VForm) (is : List Nat) =>
    let c := s.vscan p u f.acc f.addr is
    c.stop.map fun e => (e.1, e.2, !c.good.isEmpty)
  let store := fun (f : VForm) =>
    match s.releaseWait p u.vec.scope with
    | some l => some (u.vec.vstart (s.member p), VStop.wait l, false)
    | none => scan f is
  match i with
  | .vld _ _ a => scan (vform u a none false 0) is
  | .vldff _ _ a =>
    match scan (vform u a none false 0) is with
    | some (e, .fail (.spoilt a), began) => some (e, .fail (.spoilt a), began)
    | some (e, .fail f, began) => if is.head? != some e || u.midMask.isSome then none else some (e, .fail f, began)
    | r => r
  | .vldx _ _ a b => scan (vform u a (some b) false 0) is
  | .vst _ _ a => store (vform u a none false 1)
  | .vstx _ _ a b => store (vform u a (some b) false 1)
  | .vldq _ _ a => scan (vringForm (s.core p.core) u a false) is
  | .vstq _ _ a => store (vringForm (s.core p.core) u a true)
  | .vldbc _ _ a => scan (vform u a none true 0) (is.take 1)
  | _ => none

end Sys2Proof.Machine
end

