-- ==== Sys2Proof/Machine/VPerm.lean ====
section
/-!
DEFINITION. Permutations and reductions (R159 to R163); all but VSCAN are unsplit (R149).
-/

namespace Sys2Proof.Machine

/-- A vector register whose written bit is set, whatever it holds (R27, R146). -/
def Strand.touchV (t : Strand) (d : Nat) : Strand := { t with vectors := mset t.vectors d (mgetD t.vectors d 0) }

/-- An unsplit instruction: registers resident, its effect unless it has completed earlier in its convoy (R149), the
written bit of the destination (R146), VSTARTk and completion. -/
def unsplitRun (s : State) (p : Place) (t : Strand) (needs : List (Nat × Bool)) (f : Strand → Strand) : State :=
  s.withResident p t needs fun u => s.complete p (s.endVstart p
    (if s.unsplitDone p u then (needs.filter (·.2)).foldl (fun (u : Strand) n => u.touchV n.1) u else f u))

/-- The active elements of an unsplit instruction: of 0 to VL − 1. -/
def State.allActive (s : State) (p : Place) (t : Strand) : List Nat := activeIn (s.maskOf p t) 0 t.vec.vl

/-- A source element; one at or above VLMAXS reads as 0 (R160). -/
def Strand.elemAt (t : Strand) (a : VReg) (n : Nat) : Nat := if n < t.vec.vlmaxs then elem (t.v a) t.sewW n else 0

/-- A permutation that gives each active element a value, or leaves it. -/
def permOp (s : State) (i : Instr) (needs : List (Nat × Bool)) (d : VReg) (f : Strand → Nat → Option Nat) : Res :=
  vecGate s i fun p t => unsplitRun s p t needs fun u =>
    let img := (s.allActive p u).foldl (fun (m : VImage) n => match f u n with
      | some v => setElem m u.sewW n v
      | none => m) (u.v d)
    u.setV d img

/-- VXCHG (R160). -/
def execVxchg (c : Bool) (d a : VReg) (k : Fin 9) (s : State) : Res :=
  permOp s (.vxchg c d a k) [srcReg a, dstReg d] d fun t n => some (t.elemAt a (n ^^^ 2 ^ k.val))
/-- VSLIDEUP (R160). -/
def execVslideup (c : Bool) (d a : VReg) (b : SReg) (s : State) : Res :=
  permOp s (.vslideup c d a b) [srcReg a, dstReg d] d fun t n =>
    if (t.s b).toNat ≤ n then some (t.elemAt a (n - (t.s b).toNat)) else none
/-- VSLIDEDN (R160). -/
def execVslidedn (c : Bool) (d a : VReg) (b : SReg) (s : State) : Res :=
  permOp s (.vslidedn c d a b) [srcReg a, dstReg d] d fun t n => some (t.elemAt a (n + (t.s b).toNat))
/-- VSLIDE1UP (R160). -/
def execVslide1up (c : Bool) (d a : VReg) (b : SReg) (s : State) : Res :=
  permOp s (.vslide1up c d a b) [srcReg a, dstReg d] d fun t n =>
    some (if n = 0 then (t.s b).toNat else t.elemAt a (n - 1))
/-- VSLIDE1DN (R160). -/
def execVslide1dn (c : Bool) (d a : VReg) (b : SReg) (s : State) : Res :=
  permOp s (.vslide1dn c d a b) [srcReg a, dstReg d] d fun t n =>
    some (if n + 1 = t.vec.vl then (t.s b).toNat else t.elemAt a (n + 1))
/-- VGATHER (R160): the index is vB[n], or sB[SEW−1:0] for every element (R147). -/
def execVgather (c : Bool) (d a : VReg) (b : VSrc) (s : State) : Res :=
  permOp s (.vgather c d a b) (srcReg a :: srcOf b ++ [dstReg d]) d fun t n =>
    some (t.elemAt a (match b with
      | .v r => elem (t.v r) t.sewW n
      | .s r => (t.s r).toNat % 2 ^ t.sewW))

/-- VCOMPRESS (R161). -/
def execVcompress (c : Bool) (d a : VReg) (s : State) : Res :=
  vecGate s (.vcompress c d a) fun p t => unsplitRun s p t [srcReg a, dstReg d] fun u =>
    let img := ((s.allActive p u).zipIdx).foldl (fun (m : VImage) (e : Nat × Nat) =>
      setElem m u.sewW e.2 (elem (u.v a) u.sewW e.1)) (u.v d)
    u.setV d img
/-- VEXTR (R161). -/
def execVextr (c : Bool) (d : SReg) (a : VReg) (b : SReg) (s : State) : Res :=
  vecGate s (.vextr c d a b) fun p t => unsplitRun s p t [srcReg a] fun u =>
    let n := (u.s b).toNat
    u.setS d (if n < u.vec.vlmaxs then BitVec.ofInt 64 (toInt u.sewW (elem (u.v a) u.sewW n)) else 0)
/-- VINSR (R161). -/
def execVinsr (c : Bool) (d : VReg) (a b : SReg) (s : State) : Res :=
  vecGate s (.vinsr c d a b) fun p t => unsplitRun s p t [dstReg d] fun u =>
    let n := (u.s b).toNat
    u.setV d (if n < u.vec.vlmaxs then setElem (u.v d) u.sewW n (u.s a).toNat else u.v d)
/-- VIOTA (R161). -/
def execViota (c : Bool) (d : VReg) (s : State) : Res :=
  vecGate s (.viota c d) fun p t => unsplitRun s p t [dstReg d] fun u =>
    let img := ((s.allActive p u).zipIdx).foldl (fun (m : VImage) (e : Nat × Nat) => setElem m u.sewW e.1 e.2) (u.v d)
    u.setV d img

/-- The start operand of a reduction (R162). -/
def startOf (t : Strand) (b : VSrc) : Nat := srcElem t t.sewW b 0

/-- An integer reduction (R162): with no active element, vd[0] is not written. -/
def redOp (s : State) (i : Instr) (d a : VReg) (b : VSrc) (f : Nat → Nat → Nat → Nat) : Res :=
  vecGate s i fun p t => unsplitRun s p t (srcReg a :: srcOf b ++ [dstReg d]) fun u =>
    let w := u.sewW
    u.setV d (match (s.allActive p u).map fun n => elem (u.v a) w n with
      | [] => u.v d
      | x :: r => setElem (u.v d) w 0 (f w (r.foldl (f w) x) (startOf u b)))

/-- VREDSUM. -/
def execVredsum (c : Bool) (d a : VReg) (b : VSrc) (s : State) : Res :=
  redOp s (.vredsum c d a b) d a b fun w x y => (x + y) % 2 ^ w
/-- VREDMIN. -/
def execVredmin (c : Bool) (d a : VReg) (b : VSrc) (s : State) : Res :=
  redOp s (.vredmin c d a b) d a b fun w x y => if toInt w x < toInt w y then x else y
/-- VREDMAX. -/
def execVredmax (c : Bool) (d a : VReg) (b : VSrc) (s : State) : Res :=
  redOp s (.vredmax c d a b) d a b fun w x y => if toInt w x > toInt w y then x else y
/-- VREDMINU. -/
def execVredminu (c : Bool) (d a : VReg) (b : VSrc) (s : State) : Res :=
  redOp s (.vredminu c d a b) d a b fun _ x y => min x y
/-- VREDMAXU. -/
def execVredmaxu (c : Bool) (d a : VReg) (b : VSrc) (s : State) : Res :=
  redOp s (.vredmaxu c d a b) d a b fun _ x y => max x y
/-- VREDAND. -/
def execVredand (c : Bool) (d a : VReg) (b : VSrc) (s : State) : Res :=
  redOp s (.vredand c d a b) d a b fun _ x y => x &&& y
/-- VREDOR. -/
def execVredor (c : Bool) (d a : VReg) (b : VSrc) (s : State) : Res :=
  redOp s (.vredor c d a b) d a b fun _ x y => x ||| y
/-- VREDXOR. -/
def execVredxor (c : Bool) (d a : VReg) (b : VSrc) (s : State) : Res :=
  redOp s (.vredxor c d a b) d a b fun _ x y => x ^^^ y

/-- A rounded sum of two codes. -/
def fsum (f : FFmt) (r : Nat) (a b : Nat) : ElemRes := f.round r (fadd r (f.dec a) (f.dec b))

/-- Two partial sums joined (R99): nothing with y gives y. -/
def fjoin (f : FFmt) (r : Nat) (a b : Option Nat × BitVec 8) : Option Nat × BitVec 8 :=
  match a.1, b.1 with
  | none, _ => (b.1, a.2 ||| b.2)
  | _, none => (a.1, a.2 ||| b.2)
  | some x, some y => let v := fsum f r x y; (some v.1, a.2 ||| b.2 ||| v.2)

/-- One level of the pairwise tree over lanes (R99). -/
def fpairs (f : FFmt) (r : Nat) : List (Option Nat × BitVec 8) → List (Option Nat × BitVec 8)
  | a :: b :: rest => fjoin f r a b :: fpairs f r rest
  | rest => rest

/-- The tree: a number of levels. -/
def ftree (f : FFmt) (r : Nat) : Nat → List (Option Nat × BitVec 8) → List (Option Nat × BitVec 8)
  | 0, l => l
  | n + 1, l => ftree f r n (fpairs f r l)

/-- The lane of element i (R64). -/
def laneOf (lanes w i : Nat) : Nat := i % (lanes * (32 / w)) / (32 / w)

/-- The fixed-order sum of a floating reduction (R99). -/
def freduce (f : FFmt) (r lanes w : Nat) (xs : List (Nat × Nat)) : Option Nat × BitVec 8 :=
  let lane := fun l => (xs.filter fun e => laneOf lanes w e.1 == l).foldl
    (fun (acc : Option Nat × BitVec 8) (e : Nat × Nat) => fjoin f r acc (some e.2, 0)) (none, 0)
  ((ftree f r (Nat.log2 lanes) ((List.range lanes).map lane)).head?).getD (none, 0)

/-- VFREDSUM (R162). -/
def execVfredsum (c : Bool) (d a : VReg) (b : VSrc) (s : State) : Res :=
  vecGate s (.vfredsum c d a b) fun p t => unsplitRun s p t (srcReg a :: srcOf b ++ [dstReg d]) fun u =>
    let xs := (s.allActive p u).map fun n => (n, elem (u.v a) u.sewW n)
    let r := freduce u.fmt u.vec.rnd (s.laneCount p) u.sewW xs
    match r.1 with
    | none => u.setV d (u.v d)
    | some x =>
      let v := fsum u.fmt u.vec.rnd (startOf u b) x
      (u.setV d (setElem (u.v d) u.sewW 0 v.1)).addFlags true (r.2 ||| v.2)

/-- The running sums of VSCAN over the active elements, from a carry: the image and the last sum (R163). -/
def scanFrom (t : Strand) (a : VReg) (is : List Nat) (img : VImage) (c : Nat) : VImage × Nat :=
  is.foldl (fun (r : VImage × Nat) n =>
    let v := (r.2 + elem (t.v a) t.sewW n) % 2 ^ t.sewW
    (setElem r.1 t.sewW n v, v)) (img, c)

/-- VSCAN (R163): a stop keeps the running sum in SCANCARRY. -/
def execVscan (c : Bool) (d a : VReg) (s : State) : Res :=
  vecGate s (.vscan c d a) fun p t => s.withResident p t [srcReg a, dstReg d] fun u =>
    let v0 := u.vec.vstart (s.member p)
    let c0 := if v0 = 0 then 0 else u.vec.scancarry.toNat % 2 ^ u.sewW
    let r := scanFrom u a (s.actives p u (s.maskOf p t)) (u.v d) c0
    let stopped := (s.stopAt p).isSome
    let w := s.endVstart p (u.setV d r.1)
    s.complete p { w with vec := { w.vec with scancarry := if stopped then BitVec.ofNat 32 r.2 else 0 } }

end Sys2Proof.Machine
end

