-- ==== Sys2Proof/Machine/VSetvl.lean ====
section
/-!
DEFINITION. SETVL (R152) and leaving pass mode (R70).
-/

namespace Sys2Proof.Machine

/-- Leaving pass mode (R70): vectors keep the first bytes that fit both sizes, masks the bits below VLMAXS. Where the save record
holds registers, R70 does not say where they lie afterwards: all are placed anew (log 84, DESIGN CHOICE). -/
def Strand.leavePass (t : Strand) (lanes vlmaxs : Nat) : Strand :=
  match t.pass with
  | none => t
  | some ls =>
    let cut := fun (n : Nat) (v : Nat) => v % 2 ^ n
    let u := if t.inRecord.isEmpty then t else t.placeAnew 48 false
    { u with
      pass := none
      vectors := mmap (fun _ v => BitVec.ofNat 4096 (cut (256 * min ls lanes) v.toNat)) t.vectors
      masks := mmap (fun _ v => BitVec.ofNat 512 (cut vlmaxs v.toNat)) t.masks }

/-- SETVL (R152). -/
def execSetvl (d a : SReg) (rnd : Fin 5) (vfmt : Fin 3) (space : Fin 5) (scope : Fin 7) (sew : Fin 3) (s : State) :
    Res :=
  onStrand s fun p t =>
    if !s.isVector p then s.complete p (t.setS d 0)
    else
      let lanes := (s.core p.core).lanes p.strand
      let top := vlmaxOf lanes sew.val
      let req := if a = 0 then top else (t.s a).toNat
      let vl := min req top
      let u := t.leavePass lanes top
      let v : VecCsr := { u.vec with
        rnd := rnd.val, vfmt := vfmt.val, space := space.val, scope := scope.val, sew := sew.val,
        vlmaxs := top, vl := vl, vstart0 := 0, vstart1 := 0, vstart2 := 0, vstart3 := 0 }
      s.complete p ({ u with vec := v }.setS d (BitVec.ofNat 64 vl))

end Sys2Proof.Machine
end

