-- ==== Sys2Proof/Machine/Special.lean ====
section
/-!
DEFINITION. The special functions (R158): each is evaluated far beyond the precision of the formats, and the result is one of
the values within the stated error of it, which of them being free (log 9, DESIGN CHOICE).
-/

namespace Sys2Proof.Machine

/-- Fraction bits of the evaluation. -/
def fixP : Nat := 512

/-- 1 as a fixed-point number. -/
def fixOne : Nat := 2 ^ fixP

/-- The sum over j of ±1 / ((2j + 1) n^(2j+1)), alternating or not, scaled by 2^(fixP + 32), over a number of terms. -/
def arcSum (n : Nat) (alt : Bool) : Nat → Nat → Nat → Int
  | 0, _, _ => 0
  | k + 1, j, pw =>
    let term : Int := (pw / (2 * j + 1) : Nat)
    (if alt && j % 2 == 1 then -term else term) + arcSum n alt k (j + 1) (pw / (n * n))

/-- π as a fixed-point number: 16 atan(1/5) − 4 atan(1/239). -/
def fixPi : Nat :=
  let a := fun n k => arcSum n true k 0 (2 ^ (fixP + 32) / n)
  ((16 * a 5 125 - 4 * a 239 40) / 2 ^ 32).toNat

/-- The natural logarithm of 2: 2 atanh(1/3). -/
def fixLn2 : Nat := ((2 * arcSum 3 false 180 0 (2 ^ (fixP + 32) / 3)) / 2 ^ 32).toNat

/-- The sum of y^k / k! from a term on, each sign as alt says, every second term only when step is 2. -/
def powSum (y : Nat) (alt : Bool) (step : Nat) : Nat → Nat → Nat → Int
  | 0, _, _ => 0
  | n + 1, k, t =>
    let t' := if step = 1 then t * y / fixOne / (k + 1) else t * y / fixOne * y / fixOne / ((k + 1) * (k + 2))
    let rest := powSum y alt step n (k + step) t'
    (t : Int) + (if alt then -rest else rest)

/-- e^y, sin y and cos y for a fixed-point y below 2. -/
def fixExp (y : Nat) : Nat := (powSum y false 1 130 0 fixOne).toNat
def fixSin (y : Nat) : Nat := (powSum y true 2 70 1 y).toNat
def fixCos (y : Nat) : Nat := (powSum y true 2 70 0 fixOne).toNat

/-- e^−z for a fixed-point z. -/
def fixExpNeg (z : Nat) : Nat :=
  let n := z / fixLn2
  fixOne * fixOne / fixExp (z % fixLn2) / 2 ^ (min n (2 * fixP))

/-- Fraction bits of log2 of a fixed-point number in 1 to 2. -/
def log2Bits : Nat → Nat → Nat → Nat
  | 0, _, acc => acc
  | n + 1, x, acc =>
    let q := x * x / fixOne
    if 2 * fixOne ≤ q then log2Bits n (q / 2) (2 * acc + 1) else log2Bits n q (2 * acc)

/-- A magnitude m · 2^e as a fixed-point number. -/
def toFix (m : Nat) (e : Int) : Nat :=
  let k := e + (fixP : Int)
  if 0 ≤ k then m * 2 ^ k.toNat else m / 2 ^ (min (-k).toNat (bitLen m + 1))

/-- An evaluated result: numerator and exponent. -/
abbrev Approx := Int × Int

/-- A fixed-point number as a result. -/
def fixed (v : Int) : Approx := (v, -(fixP : Int))

/-- Sine and cosine of a fixed-point x ≥ 0: the quadrant, then the remainder. -/
def fixTrig (cos : Bool) (x : Nat) : Int :=
  let h := fixPi / 2
  let q := x / h + (if cos then 1 else 0)
  let y := x % h
  let v : Nat := if q % 2 = 0 then fixSin y else fixCos y
  if q % 4 < 2 then v else -(v : Int)

/-- The functions of R158, in the order of F. -/
inductive SfFn where
  | exp2
  | log2
  | rcp
  | rsqrt
  | sin
  | cos
  | tanh
  | sigm
  deriving DecidableEq, Repr

/-- The number of a function. -/
def SfFn.num : SfFn → Nat
  | .exp2 => 0
  | .log2 => 1
  | .rcp => 2
  | .rsqrt => 3
  | .sin => 4
  | .cos => 5
  | .tanh => 6
  | .sigm => 7

/-- The value of a function at a finite x = ±m · 2^e within its domain, x ≠ 0 where the function's table has 0 apart. -/
def sfEval (fn : SfFn) (neg : Bool) (m : Nat) (e : Int) : Approx :=
  let x := toFix m e
  let sgn : Int := if neg then -1 else 1
  match fn with
  | .exp2 =>
    if m = 0 then fixed fixOne
    else if 2 ^ 12 * fixOne ≤ x then (if neg then fixed 0 else (1, 4096))
    else
      let s := sgn * (x : Int)
      let n := s / (fixOne : Int)
      let f := (s - n * (fixOne : Int)).toNat
      (fixExp (f * fixLn2 / fixOne), n - (fixP : Int))
  | .log2 =>
    let top := bitLen m - 1
    let y := m * 2 ^ (fixP - top)
    ((e + (top : Int)) * 2 ^ 256 + log2Bits 256 y 0, -256)
  | .rcp => (sgn * (2 ^ (bitLen m + fixP) / m : Nat), -e - (bitLen m : Int) - (fixP : Int))
  | .rsqrt =>
    let y := evenScaled m e
    (2 ^ (bitLen y.1 + fixP) / isqrt (y.1 * 2 ^ 256) * 2 ^ 128, -(bitLen y.1 : Int) - (fixP : Int) - y.2 / 2)
  | .sin => fixed (sgn * fixTrig false x)
  | .cos => fixed (fixTrig true x)
  | .tanh =>
    let t := fixExpNeg (2 * x)
    fixed (sgn * min ((fixOne - t) * fixOne / (fixOne + t) : Nat) (fixOne - 1))
  | .sigm =>
    let t := fixExpNeg x
    if neg then fixed (t * fixOne / (fixOne + t) : Nat) else fixed (min (fixOne * fixOne / (fixOne + t)) (fixOne - 1) : Nat)

/-- The error bound of a function in ulp (R158); for sin and cos of a large FP32 argument the absolute bound holds. -/
def sfUlp (f : FFmt) (fn : SfFn) : Nat :=
  if f.code ≠ 0x11 then 1 else
  match fn with
  | .sin | .cos | .tanh | .sigm => 2
  | _ => 1

/-- Whether a result is exact (R158): integer powers and powers of 2 in FP32. -/
def sfExact (f : FFmt) (fn : SfFn) (m : Nat) (e : Int) : Bool :=
  f.code == 0x11 &&
  (match fn with
   | .exp2 => 0 ≤ e || m % 2 ^ (min (-e).toNat 200) == 0
   | .log2 | .rcp => m == 2 ^ (bitLen m - 1)
   | _ => false)

/-- A code's place in the order of values, and the code of a place. -/
def FFmt.rank (f : FFmt) (c : Nat) : Int := if bit c (f.ew + f.mw) then -(c % f.signW : Nat) else (c % f.signW : Nat)
def FFmt.unrank (f : FFmt) (r : Int) : Nat := f.signed (decide (r < 0)) r.natAbs

/-- The codes within a distance of a value, as the lowest rank and the highest: the value and the distance are
numerators at one exponent. -/
def codesWithin (f : FFmt) (v d e : Int) : Int × Int :=
  let at' := fun (mode : Nat) (n : Int) => f.rank (f.enc mode (decide (n < 0)) n.natAbs e).1
  (at' 3 (v - d), at' 2 (v + d))

/-- The result of a function at a finite x that has no table entry: exact where the spec says so; otherwise a value
within the bound, which one being free. A subnormal argument of sin and tanh gives a subnormal result. -/
def sfFinite (f : FFmt) (fn : SfFn) (code : Nat) (neg : Bool) (m : Nat) (e : Int) : Nat :=
  let a := sfEval fn neg m e
  let mag := a.1.natAbs
  let trunc := f.enc 1 (decide (a.1 < 0)) mag a.2
  if sfExact f fn m e && trunc.2 == 0 then trunc.1
  else if trunc.2 &&& flagOF != 0 then f.signed (decide (a.1 < 0)) f.infMag
  else
    let q := max (a.2 + (bitLen mag : Int) - 1) f.emin - f.mw
    let d : Int :=
      if (fn = .sin ∨ fn = .cos) ∧ f.code = 0x11 ∧ 2 ^ 16 * fixOne < toFix m e then 2 ^ (-22 - a.2).toNat
      else (sfUlp f fn * 2 ^ (q - a.2).toNat : Nat)
    let r := codesWithin f a.1 d a.2
    let tiny := (fn = .sin ∨ fn = .tanh) ∧ m < 2 ^ f.mw
    let lo := if tiny then (if neg then max r.1 (1 - (2 ^ f.mw : Nat)) else max r.1 1) else r.1
    let hi := if tiny then (if neg then min r.2 (-1) else min r.2 ((2 ^ f.mw : Nat) - 1)) else r.2
    f.unrank (lo + (Config.sfValue fn.num f.code code % ((hi - lo).toNat + 1) : Nat))

/-- A special function's result and flags (R158). -/
def sfOf (f : FFmt) (fn : SfFn) (code : Nat) : Nat × BitVec 8 :=
  match f.dec code with
  | .nan => (f.nanCode, 0)
  | .inf neg =>
    match fn with
    | .exp2 => (if neg then 0 else f.infMag, 0)
    | .log2 => if neg then (f.nanCode, flagNV) else (f.infMag, 0)
    | .rcp => (f.signed neg 0, 0)
    | .rsqrt => if neg then (f.nanCode, flagNV) else (0, 0)
    | .sin | .cos => (f.nanCode, flagNV)
    | .tanh => (f.signed neg (f.bias * 2 ^ f.mw), 0)
    | .sigm => (if neg then 0 else f.bias * 2 ^ f.mw, 0)
  | .fin neg m e =>
    match fn with
    | .log2 =>
      if m = 0 then (f.signed true f.infMag, flagDZ) else if neg then (f.nanCode, flagNV)
      else (sfFinite f fn code neg m e, 0)
    | .rcp =>
      if m = 0 then (f.signed neg f.infMag, flagDZ) else
        let r := sfFinite f fn code neg m e
        (r, if f.infMag ≤ r % f.signW then flagOF else if r % f.signW < 2 ^ f.mw then flagUF else 0)
    | .rsqrt =>
      if m = 0 then (f.signed neg f.infMag, flagDZ) else if neg then (f.nanCode, flagNV)
      else (sfFinite f fn code neg m e, 0)
    | .sin => if m = 0 then (code, 0) else (sfFinite f fn code neg m e, 0)
    | .cos => if m = 0 then (f.bias * 2 ^ f.mw, 0) else (sfFinite f fn code neg m e, 0)
    | .tanh => if m = 0 then (code, 0) else (sfFinite f fn code neg m e, 0)
    | .exp2 =>
      let r := sfFinite f fn code neg m e
      (r, if f.infMag ≤ r % f.signW then flagOF else if r % f.signW < 2 ^ f.mw then flagUF else 0)
    | .sigm =>
      let r := sfFinite f fn code neg m e
      (r, if r % f.signW < 2 ^ f.mw then flagUF else 0)

end Sys2Proof.Machine
end

