-- ==== Sys2Proof/Machine/VSf.lean ====
section
/-!
DEFINITION. The special-function instructions (R158).
-/

namespace Sys2Proof.Machine

/-- A special-function instruction. -/
def vsfOp (s : State) (i : Instr) (d a : VReg) (fn : SfFn) : Res := vflt1Op s i d a fun f _ _ x => sfOf f fn x

/-- VEXP2. -/
def execVexp2 (c : Bool) (d a : VReg) (s : State) : Res := vsfOp s (.vexp2 c d a) d a .exp2
/-- VLOG2. -/
def execVlog2 (c : Bool) (d a : VReg) (s : State) : Res := vsfOp s (.vlog2 c d a) d a .log2
/-- VRCP. -/
def execVrcp (c : Bool) (d a : VReg) (s : State) : Res := vsfOp s (.vrcp c d a) d a .rcp
/-- VRSQRT. -/
def execVrsqrt (c : Bool) (d a : VReg) (s : State) : Res := vsfOp s (.vrsqrt c d a) d a .rsqrt
/-- VSIN. -/
def execVsin (c : Bool) (d a : VReg) (s : State) : Res := vsfOp s (.vsin c d a) d a .sin
/-- VCOS. -/
def execVcos (c : Bool) (d a : VReg) (s : State) : Res := vsfOp s (.vcos c d a) d a .cos
/-- VTANH. -/
def execVtanh (c : Bool) (d a : VReg) (s : State) : Res := vsfOp s (.vtanh c d a) d a .tanh
/-- VSIGM. -/
def execVsigm (c : Bool) (d a : VReg) (s : State) : Res := vsfOp s (.vsigm c d a) d a .sigm

end Sys2Proof.Machine
end

