-- ==== Sys2Proof/Machine/Dispatch.lean ====
section
/-!
DEFINITION. The dispatch: one arm for each constructor of Instr, each a direct call of its meaning.
-/

namespace Sys2Proof.Machine

/-- The effect of an instruction or step on the state. -/
def exec (i : Instr) (s : State) : Host.Outcome State Fault Refusal :=
  match i with
  | .trap a => Sys2Proof.Machine.execTrap a s
  | .slotw a b => Sys2Proof.Machine.execSlotw a b s
  | .add d a b => Sys2Proof.Machine.execAdd d a b s
  | .sub d a b => Sys2Proof.Machine.execSub d a b s
  | .and d a b => Sys2Proof.Machine.execAnd d a b s
  | .or d a b => Sys2Proof.Machine.execOr d a b s
  | .xor d a b => Sys2Proof.Machine.execXor d a b s
  | .sll d a b => Sys2Proof.Machine.execSll d a b s
  | .srl d a b => Sys2Proof.Machine.execSrl d a b s
  | .sra d a b => Sys2Proof.Machine.execSra d a b s
  | .slt d a b => Sys2Proof.Machine.execSlt d a b s
  | .sltu d a b => Sys2Proof.Machine.execSltu d a b s
  | .mul d a b => Sys2Proof.Machine.execMul d a b s
  | .mulh d a b => Sys2Proof.Machine.execMulh d a b s
  | .mulhu d a b => Sys2Proof.Machine.execMulhu d a b s
  | .div d a b => Sys2Proof.Machine.execDiv d a b s
  | .divu d a b => Sys2Proof.Machine.execDivu d a b s
  | .rem d a b => Sys2Proof.Machine.execRem d a b s
  | .remu d a b => Sys2Proof.Machine.execRemu d a b s
  | .min d a b => Sys2Proof.Machine.execMin d a b s
  | .max d a b => Sys2Proof.Machine.execMax d a b s
  | .minu d a b => Sys2Proof.Machine.execMinu d a b s
  | .maxu d a b => Sys2Proof.Machine.execMaxu d a b s
  | .clz d a => Sys2Proof.Machine.execClz d a s
  | .ctz d a => Sys2Proof.Machine.execCtz d a s
  | .popc d a => Sys2Proof.Machine.execPopc d a s
  | .addi d a imm => Sys2Proof.Machine.execAddi d a imm s
  | .andi d a imm => Sys2Proof.Machine.execAndi d a imm s
  | .ori d a imm => Sys2Proof.Machine.execOri d a imm s
  | .xori d a imm => Sys2Proof.Machine.execXori d a imm s
  | .slti d a imm => Sys2Proof.Machine.execSlti d a imm s
  | .sltiu d a imm => Sys2Proof.Machine.execSltiu d a imm s
  | .slli d a sh => Sys2Proof.Machine.execSlli d a sh s
  | .srli d a sh => Sys2Proof.Machine.execSrli d a sh s
  | .srai d a sh => Sys2Proof.Machine.execSrai d a sh s
  | .lui d imm => Sys2Proof.Machine.execLui d imm s
  | .addpc d imm => Sys2Proof.Machine.execAddpc d imm s
  | .ldb d a imm => Sys2Proof.Machine.execLdb d a imm s
  | .ldbu d a imm => Sys2Proof.Machine.execLdbu d a imm s
  | .ldh d a imm => Sys2Proof.Machine.execLdh d a imm s
  | .ldhu d a imm => Sys2Proof.Machine.execLdhu d a imm s
  | .ldw d a imm => Sys2Proof.Machine.execLdw d a imm s
  | .ldwu d a imm => Sys2Proof.Machine.execLdwu d a imm s
  | .ldd d a imm => Sys2Proof.Machine.execLdd d a imm s
  | .stb b a imm => Sys2Proof.Machine.execStb b a imm s
  | .sth b a imm => Sys2Proof.Machine.execSth b a imm s
  | .stw b a imm => Sys2Proof.Machine.execStw b a imm s
  | .std b a imm => Sys2Proof.Machine.execStd b a imm s
  | .beq b a imm => Sys2Proof.Machine.execBeq b a imm s
  | .bne b a imm => Sys2Proof.Machine.execBne b a imm s
  | .blt b a imm => Sys2Proof.Machine.execBlt b a imm s
  | .bge b a imm => Sys2Proof.Machine.execBge b a imm s
  | .bltu b a imm => Sys2Proof.Machine.execBltu b a imm s
  | .bgeu b a imm => Sys2Proof.Machine.execBgeu b a imm s
  | .jal d imm => Sys2Proof.Machine.execJal d imm s
  | .jalr d a imm => Sys2Proof.Machine.execJalr d a imm s
  | .loopi level len count => Sys2Proof.Machine.execLoopi level len count s
  | .loop level len a => Sys2Proof.Machine.execLoop level len a s
  | .amoadd d a b wide => Sys2Proof.Machine.execAmoadd d a b wide s
  | .amoswap d a b wide => Sys2Proof.Machine.execAmoswap d a b wide s
  | .amocas d a b wide => Sys2Proof.Machine.execAmocas d a b wide s
  | .amomin d a b wide => Sys2Proof.Machine.execAmomin d a b wide s
  | .amomax d a b wide => Sys2Proof.Machine.execAmomax d a b wide s
  | .amominu d a b wide => Sys2Proof.Machine.execAmominu d a b wide s
  | .amomaxu d a b wide => Sys2Proof.Machine.execAmomaxu d a b wide s
  | .amoand d a b wide => Sys2Proof.Machine.execAmoand d a b wide s
  | .amoor d a b wide => Sys2Proof.Machine.execAmoor d a b wide s
  | .amoxor d a b wide => Sys2Proof.Machine.execAmoxor d a b wide s
  | .fence scope => Sys2Proof.Machine.execFence scope s
  | .fenceacq scope => Sys2Proof.Machine.execFenceacq scope s
  | .fencerel scope => Sys2Proof.Machine.execFencerel scope s
  | .fenceeng scope => Sys2Proof.Machine.execFenceeng scope s
  | .wfev scope => Sys2Proof.Machine.execWfev scope s
  | .take d => Sys2Proof.Machine.execTake d s
  | .post d a => Sys2Proof.Machine.execPost d a s
  | .postw a b => Sys2Proof.Machine.execPostw a b s
  | .retire a => Sys2Proof.Machine.execRetire a s
  | .wake a => Sys2Proof.Machine.execWake a s
  | .signal d a => Sys2Proof.Machine.execSignal d a s
  | .recoat a b => Sys2Proof.Machine.execRecoat a b s
  | .ldfull d a => Sys2Proof.Machine.execLdfull d a s
  | .ldfullk d a => Sys2Proof.Machine.execLdfullk d a s
  | .stfull d a => Sys2Proof.Machine.execStfull d a s
  | .stfill d a => Sys2Proof.Machine.execStfill d a s
  | .feclr a => Sys2Proof.Machine.execFeclr a s
  | .setvl d a rnd vfmt space scope sew => Sys2Proof.Machine.execSetvl d a rnd vfmt space scope sew s
  | .vadd c d a b => Sys2Proof.Machine.execVadd c d a b s
  | .vsub c d a b => Sys2Proof.Machine.execVsub c d a b s
  | .vrsub c d a b => Sys2Proof.Machine.execVrsub c d a b s
  | .vmul c d a b => Sys2Proof.Machine.execVmul c d a b s
  | .vmulh c d a b => Sys2Proof.Machine.execVmulh c d a b s
  | .vmulhu c d a b => Sys2Proof.Machine.execVmulhu c d a b s
  | .vmadd c d a b => Sys2Proof.Machine.execVmadd c d a b s
  | .vmsub c d a b => Sys2Proof.Machine.execVmsub c d a b s
  | .vdiv c d a b => Sys2Proof.Machine.execVdiv c d a b s
  | .vdivu c d a b => Sys2Proof.Machine.execVdivu c d a b s
  | .vrem c d a b => Sys2Proof.Machine.execVrem c d a b s
  | .vremu c d a b => Sys2Proof.Machine.execVremu c d a b s
  | .vmin c d a b => Sys2Proof.Machine.execVmin c d a b s
  | .vmax c d a b => Sys2Proof.Machine.execVmax c d a b s
  | .vminu c d a b => Sys2Proof.Machine.execVminu c d a b s
  | .vmaxu c d a b => Sys2Proof.Machine.execVmaxu c d a b s
  | .vand c d a b => Sys2Proof.Machine.execVand c d a b s
  | .vor c d a b => Sys2Proof.Machine.execVor c d a b s
  | .vxor c d a b => Sys2Proof.Machine.execVxor c d a b s
  | .vsll c d a b => Sys2Proof.Machine.execVsll c d a b s
  | .vsrl c d a b => Sys2Proof.Machine.execVsrl c d a b s
  | .vsra c d a b => Sys2Proof.Machine.execVsra c d a b s
  | .vsadd c d a b => Sys2Proof.Machine.execVsadd c d a b s
  | .vsaddu c d a b => Sys2Proof.Machine.execVsaddu c d a b s
  | .vssub c d a b => Sys2Proof.Machine.execVssub c d a b s
  | .vssubu c d a b => Sys2Proof.Machine.execVssubu c d a b s
  | .vmerge c d a b => Sys2Proof.Machine.execVmerge c d a b s
  | .vmv c d b => Sys2Proof.Machine.execVmv c d b s
  | .vabs c d a => Sys2Proof.Machine.execVabs c d a s
  | .vclz c d a => Sys2Proof.Machine.execVclz c d a s
  | .vpopc c d a => Sys2Proof.Machine.execVpopc c d a s
  | .vfadd c d a b => Sys2Proof.Machine.execVfadd c d a b s
  | .vfsub c d a b => Sys2Proof.Machine.execVfsub c d a b s
  | .vfmul c d a b => Sys2Proof.Machine.execVfmul c d a b s
  | .vfma c d a b => Sys2Proof.Machine.execVfma c d a b s
  | .vfms c d a b => Sys2Proof.Machine.execVfms c d a b s
  | .vfnma c d a b => Sys2Proof.Machine.execVfnma c d a b s
  | .vfdiv c d a b => Sys2Proof.Machine.execVfdiv c d a b s
  | .vfsqrt c d a => Sys2Proof.Machine.execVfsqrt c d a s
  | .vfmin c d a b => Sys2Proof.Machine.execVfmin c d a b s
  | .vfmax c d a b => Sys2Proof.Machine.execVfmax c d a b s
  | .vfabs c d a => Sys2Proof.Machine.execVfabs c d a s
  | .vfneg c d a => Sys2Proof.Machine.execVfneg c d a s
  | .vfcvt c d a f => Sys2Proof.Machine.execVfcvt c d a f s
  | .vfcvti c d a => Sys2Proof.Machine.execVfcvti c d a s
  | .vicvtf c d a => Sys2Proof.Machine.execVicvtf c d a s
  | .vfclass c d a => Sys2Proof.Machine.execVfclass c d a s
  | .vxchg c d a k => Sys2Proof.Machine.execVxchg c d a k s
  | .vslideup c d a b => Sys2Proof.Machine.execVslideup c d a b s
  | .vslidedn c d a b => Sys2Proof.Machine.execVslidedn c d a b s
  | .vslide1up c d a b => Sys2Proof.Machine.execVslide1up c d a b s
  | .vslide1dn c d a b => Sys2Proof.Machine.execVslide1dn c d a b s
  | .vgather c d a b => Sys2Proof.Machine.execVgather c d a b s
  | .vcompress c d a => Sys2Proof.Machine.execVcompress c d a s
  | .vextr c d a b => Sys2Proof.Machine.execVextr c d a b s
  | .vinsr c d a b => Sys2Proof.Machine.execVinsr c d a b s
  | .viota c d => Sys2Proof.Machine.execViota c d s
  | .vredsum c d a b => Sys2Proof.Machine.execVredsum c d a b s
  | .vredmin c d a b => Sys2Proof.Machine.execVredmin c d a b s
  | .vredmax c d a b => Sys2Proof.Machine.execVredmax c d a b s
  | .vredminu c d a b => Sys2Proof.Machine.execVredminu c d a b s
  | .vredmaxu c d a b => Sys2Proof.Machine.execVredmaxu c d a b s
  | .vredand c d a b => Sys2Proof.Machine.execVredand c d a b s
  | .vredor c d a b => Sys2Proof.Machine.execVredor c d a b s
  | .vredxor c d a b => Sys2Proof.Machine.execVredxor c d a b s
  | .vfredsum c d a b => Sys2Proof.Machine.execVfredsum c d a b s
  | .vscan c d a => Sys2Proof.Machine.execVscan c d a s
  | .vceq c d a b => Sys2Proof.Machine.execVceq c d a b s
  | .vcne c d a b => Sys2Proof.Machine.execVcne c d a b s
  | .vclt c d a b => Sys2Proof.Machine.execVclt c d a b s
  | .vcltu c d a b => Sys2Proof.Machine.execVcltu c d a b s
  | .vcle c d a b => Sys2Proof.Machine.execVcle c d a b s
  | .vcleu c d a b => Sys2Proof.Machine.execVcleu c d a b s
  | .vcgt c d a b => Sys2Proof.Machine.execVcgt c d a b s
  | .vcgtu c d a b => Sys2Proof.Machine.execVcgtu c d a b s
  | .vfceq c d a b => Sys2Proof.Machine.execVfceq c d a b s
  | .vfclt c d a b => Sys2Proof.Machine.execVfclt c d a b s
  | .vfcle c d a b => Sys2Proof.Machine.execVfcle c d a b s
  | .vfcun c d a b => Sys2Proof.Machine.execVfcun c d a b s
  | .mand c d a b => Sys2Proof.Machine.execMand c d a b s
  | .mor c d a b => Sys2Proof.Machine.execMor c d a b s
  | .mxor c d a b => Sys2Proof.Machine.execMxor c d a b s
  | .mandn c d a b => Sys2Proof.Machine.execMandn c d a b s
  | .mnot c d a => Sys2Proof.Machine.execMnot c d a s
  | .mpopc c d a => Sys2Proof.Machine.execMpopc c d a s
  | .mfirst c d a => Sys2Proof.Machine.execMfirst c d a s
  | .mskft c d a => Sys2Proof.Machine.execMskft c d a s
  | .mskbf c d a => Sys2Proof.Machine.execMskbf c d a s
  | .mfromv c d a => Sys2Proof.Machine.execMfromv c d a s
  | .mtov c d a => Sys2Proof.Machine.execMtov c d a s
  | .vld c d a => Sys2Proof.Machine.execVld c d a s
  | .vldff c d a => Sys2Proof.Machine.execVldff c d a s
  | .vldx c d a b => Sys2Proof.Machine.execVldx c d a b s
  | .vst c d a => Sys2Proof.Machine.execVst c d a s
  | .vstx c d a b => Sys2Proof.Machine.execVstx c d a b s
  | .vldq c d a => Sys2Proof.Machine.execVldq c d a s
  | .vstq c d a => Sys2Proof.Machine.execVstq c d a s
  | .vldbc c d a => Sys2Proof.Machine.execVldbc c d a s
  | .mma d a b rep => Sys2Proof.Machine.execMma d a b rep s
  | .mopa d a b rep => Sys2Proof.Machine.execMopa d a b rep s
  | .mslide d a b rep => Sys2Proof.Machine.execMslide d a b rep s
  | .mrdc d a rep => Sys2Proof.Machine.execMrdc d a rep s
  | .mzero d rep => Sys2Proof.Machine.execMzero d rep s
  | .mdrain d rep => Sys2Proof.Machine.execMdrain d rep s
  | .ringcfg a b => Sys2Proof.Machine.execRingcfg a b s
  | .rwaitf d a b => Sys2Proof.Machine.execRwaitf d a b s
  | .rwaite d a b => Sys2Proof.Machine.execRwaite d a b s
  | .radvh d a b => Sys2Proof.Machine.execRadvh d a b s
  | .radvt d a b => Sys2Proof.Machine.execRadvt d a b s
  | .rstat d a => Sys2Proof.Machine.execRstat d a s
  | .cpy d a => Sys2Proof.Machine.execCpy d a s
  | .cpywait d a => Sys2Proof.Machine.execCpywait d a s
  | .cpystat d a => Sys2Proof.Machine.execCpystat d a s
  | .cpycan d a => Sys2Proof.Machine.execCpycan d a s
  | .wld d a => Sys2Proof.Machine.execWld d a s
  | .wst d a => Sys2Proof.Machine.execWst d a s
  | .wnarrow d a b => Sys2Proof.Machine.execWnarrow d a b s
  | .wdlg d a b => Sys2Proof.Machine.execWdlg d a b s
  | .wstripe d a => Sys2Proof.Machine.execWstripe d a s
  | .wclr d => Sys2Proof.Machine.execWclr d s
  | .winfo d a b => Sys2Proof.Machine.execWinfo d a b s
  | .wmint d a => Sys2Proof.Machine.execWmint d a s
  | .wgen d a => Sys2Proof.Machine.execWgen d a s
  | .send d a b => Sys2Proof.Machine.execSend d a b s
  | .sendv d a b => Sys2Proof.Machine.execSendv d a b s
  | .recv d a => Sys2Proof.Machine.execRecv d a s
  | .rld d a b => Sys2Proof.Machine.execRld d a b s
  | .rst d a b => Sys2Proof.Machine.execRst d a b s
  | .rstf d a b => Sys2Proof.Machine.execRstf d a b s
  | .rldv d a b => Sys2Proof.Machine.execRldv d a b s
  | .rstv d a b => Sys2Proof.Machine.execRstv d a b s
  | .ramo d a b op => Sys2Proof.Machine.execRamo d a b op s
  | .wlease d a b => Sys2Proof.Machine.execWlease d a b s
  | .wrelease d a => Sys2Proof.Machine.execWrelease d a s
  | .wlstat d a => Sys2Proof.Machine.execWlstat d a s
  | .gbar d a => Sys2Proof.Machine.execGbar d a s
  | .garrive d a => Sys2Proof.Machine.execGarrive d a s
  | .gwait d a b => Sys2Proof.Machine.execGwait d a b s
  | .gred d a b => Sys2Proof.Machine.execGred d a b s
  | .ginfo d a b => Sys2Proof.Machine.execGinfo d a b s
  | .vexp2 c d a => Sys2Proof.Machine.execVexp2 c d a s
  | .vlog2 c d a => Sys2Proof.Machine.execVlog2 c d a s
  | .vrcp c d a => Sys2Proof.Machine.execVrcp c d a s
  | .vrsqrt c d a => Sys2Proof.Machine.execVrsqrt c d a s
  | .vsin c d a => Sys2Proof.Machine.execVsin c d a s
  | .vcos c d a => Sys2Proof.Machine.execVcos c d a s
  | .vtanh c d a => Sys2Proof.Machine.execVtanh c d a s
  | .vsigm c d a => Sys2Proof.Machine.execVsigm c d a s
  | .mlds a => Sys2Proof.Machine.execMlds a s
  | .mldss a => Sys2Proof.Machine.execMldss a s
  | .csrr d n => Sys2Proof.Machine.execCsrr d n s
  | .csrw d a n => Sys2Proof.Machine.execCsrw d a n s
  | .csrs d a n => Sys2Proof.Machine.execCsrs d a n s
  | .csrc d a n => Sys2Proof.Machine.execCsrc d a n s
  | .ecall => Sys2Proof.Machine.execEcall s
  | .brk => Sys2Proof.Machine.execBrk s
  | .eret => Sys2Proof.Machine.execEret s
  | .uiret => Sys2Proof.Machine.execUiret s
  | .wfi => Sys2Proof.Machine.execWfi s
  | .halt => Sys2Proof.Machine.execHalt s
  | .yield => Sys2Proof.Machine.execYield s
  | .sleep => Sys2Proof.Machine.execSleep s
  | .mswap => Sys2Proof.Machine.execMswap s
  | .loftMovesComplete => Sys2Proof.Machine.execLoftMovesComplete s
  | .resourceAvailable => Sys2Proof.Machine.execResourceAvailable s
  | .loadMissFill => Sys2Proof.Machine.execLoadMissFill s
  | .storeBufferDrain => Sys2Proof.Machine.execStoreBufferDrain s
  | .granaryWriteback => Sys2Proof.Machine.execGranaryWriteback s
  | .coreBarrierQuiescent => Sys2Proof.Machine.execCoreBarrierQuiescent s
  | .matrixOpComplete => Sys2Proof.Machine.execMatrixOpComplete s
  | .timecmpMatch => Sys2Proof.Machine.execTimecmpMatch s
  | .yieldExpiry => Sys2Proof.Machine.execYieldExpiry s
  | .userInterruptEntry => Sys2Proof.Machine.execUserInterruptEntry s
  | .engineTrap => Sys2Proof.Machine.execEngineTrap s
  | .uncorrectedTrap => Sys2Proof.Machine.execUncorrectedTrap s
  | .lockWatchdog => Sys2Proof.Machine.execLockWatchdog s
  | .fewaitLimit => Sys2Proof.Machine.execFewaitLimit s
  | .barwaitLimit => Sys2Proof.Machine.execBarwaitLimit s
  | .withdrawalAnswer => Sys2Proof.Machine.execWithdrawalAnswer s
  | .copyStart => Sys2Proof.Machine.execCopyStart s
  | .copyLineWrite => Sys2Proof.Machine.execCopyLineWrite s
  | .copyDone => Sys2Proof.Machine.execCopyDone s
  | .copyFail => Sys2Proof.Machine.execCopyFail s
  | .cpycanComplete => Sys2Proof.Machine.execCpycanComplete s
  | .translationWalk => Sys2Proof.Machine.execTranslationWalk s
  | .pageServiceComplete => Sys2Proof.Machine.execPageServiceComplete s
  | .priResponse => Sys2Proof.Machine.execPriResponse s
  | .atsInvalidation => Sys2Proof.Machine.execAtsInvalidation s
  | .shootdownComplete => Sys2Proof.Machine.execShootdownComplete s
  | .shootdown => Sys2Proof.Machine.execShootdown s
  | .evict => Sys2Proof.Machine.execEvict s
  | .destroyKeySlot => Sys2Proof.Machine.execDestroyKeySlot s
  | .generateKeySlot => Sys2Proof.Machine.execGenerateKeySlot s
  | .skimPage => Sys2Proof.Machine.execSkimPage s
  | .maintRequestDiscard => Sys2Proof.Machine.execMaintRequestDiscard s
  | .switchHeader => Sys2Proof.Machine.execSwitchHeader s
  | .gatewayHeader => Sys2Proof.Machine.execGatewayHeader s
  | .remoteAccessArrival => Sys2Proof.Machine.execRemoteAccessArrival s
  | .messageArrival => Sys2Proof.Machine.execMessageArrival s
  | .taskPacketArrival => Sys2Proof.Machine.execTaskPacketArrival s
  | .responseArrival => Sys2Proof.Machine.execResponseArrival s
  | .acknowledgementArrival => Sys2Proof.Machine.execAcknowledgementArrival s
  | .refusalArrival => Sys2Proof.Machine.execRefusalArrival s
  | .nackArrival => Sys2Proof.Machine.execNackArrival s
  | .nackResend => Sys2Proof.Machine.execNackResend s
  | .keepWaitingTimer => Sys2Proof.Machine.execKeepWaitingTimer s
  | .keepWaitingNotice => Sys2Proof.Machine.execKeepWaitingNotice s
  | .responseTimerExpiry => Sys2Proof.Machine.execResponseTimerExpiry s
  | .portGenAdvance => Sys2Proof.Machine.execPortGenAdvance s
  | .linkRetry => Sys2Proof.Machine.execLinkRetry s
  | .routeRemint => Sys2Proof.Machine.execRouteRemint s
  | .laneLoss => Sys2Proof.Machine.execLaneLoss s
  | .channelLockLoss => Sys2Proof.Machine.execChannelLockLoss s
  | .blockedHeadTimeout => Sys2Proof.Machine.execBlockedHeadTimeout s
  | .tokenVisit => Sys2Proof.Machine.execTokenVisit s
  | .recoverySinkApply => Sys2Proof.Machine.execRecoverySinkApply s
  | .leaseRequestArrival => Sys2Proof.Machine.execLeaseRequestArrival s
  | .leaseGrant => Sys2Proof.Machine.execLeaseGrant s
  | .retuneComplete => Sys2Proof.Machine.execRetuneComplete s
  | .leaseTermExpiry => Sys2Proof.Machine.execLeaseTermExpiry s
  | .leaseRequestTimeout => Sys2Proof.Machine.execLeaseRequestTimeout s
  | .starvationTimeout => Sys2Proof.Machine.execStarvationTimeout s
  | .reclaimExpiry => Sys2Proof.Machine.execReclaimExpiry s
  | .counterArm => Sys2Proof.Machine.execCounterArm s
  | .counterSignal => Sys2Proof.Machine.execCounterSignal s
  | .armAnswer => Sys2Proof.Machine.execArmAnswer s
  | .zeroNotice => Sys2Proof.Machine.execZeroNotice s
  | .taskAging => Sys2Proof.Machine.execTaskAging s
  | .balancerRound => Sys2Proof.Machine.execBalancerRound s
  | .balanceCommand => Sys2Proof.Machine.execBalanceCommand s
  | .migrationSend => Sys2Proof.Machine.execMigrationSend s
  | .migrationArrival => Sys2Proof.Machine.execMigrationArrival s
  | .migrationRefused => Sys2Proof.Machine.execMigrationRefused s
  | .hqTailWrite => Sys2Proof.Machine.execHqTailWrite s
  | .hqEnableWrite => Sys2Proof.Machine.execHqEnableWrite s
  | .hqRegWrite => Sys2Proof.Machine.execHqRegWrite s
  | .hostLaunch => Sys2Proof.Machine.execHostLaunch s
  | .hostPost => Sys2Proof.Machine.execHostPost s
  | .counterSet => Sys2Proof.Machine.execCounterSet s
  | .balance => Sys2Proof.Machine.execBalance s
  | .dutyReply => Sys2Proof.Machine.execDutyReply s
  | .token => Sys2Proof.Machine.execToken s
  | .occupancy => Sys2Proof.Machine.execOccupancy s
  | .kernelLaunch => Sys2Proof.Machine.execKernelLaunch s
  | .bayScrubComplete => Sys2Proof.Machine.execBayScrubComplete s
  | .kernelRetire => Sys2Proof.Machine.execKernelRetire s
  | .recoatHandover => Sys2Proof.Machine.execRecoatHandover s
  | .barrierArrival => Sys2Proof.Machine.execBarrierArrival s
  | .barrierReleaseSent => Sys2Proof.Machine.execBarrierReleaseSent s
  | .barrierRelease => Sys2Proof.Machine.execBarrierRelease s
  | .watchArrival => Sys2Proof.Machine.execWatchArrival s
  | .watchAnswer => Sys2Proof.Machine.execWatchAnswer s
  | .leaveNotice => Sys2Proof.Machine.execLeaveNotice s
  | .withdrawalArrival => Sys2Proof.Machine.execWithdrawalArrival s
  | .lock => Sys2Proof.Machine.execLock s
  | .unlock => Sys2Proof.Machine.execUnlock s
  | .scrubComplete => Sys2Proof.Machine.execScrubComplete s
  | .suspend => Sys2Proof.Machine.execSuspend s
  | .suspendComplete => Sys2Proof.Machine.execSuspendComplete s
  | .restore => Sys2Proof.Machine.execRestore s
  | .migrate => Sys2Proof.Machine.execMigrate s
  | .migrationChunk => Sys2Proof.Machine.execMigrationChunk s
  | .confirm => Sys2Proof.Machine.execConfirm s
  | .migrationAck => Sys2Proof.Machine.execMigrationAck s
  | .migrationCommitTimeout => Sys2Proof.Machine.execMigrationCommitTimeout s
  | .alarmNotice => Sys2Proof.Machine.execAlarmNotice s
  | .alarmLevel2 => Sys2Proof.Machine.execAlarmLevel2 s
  | .alarmLevel3 => Sys2Proof.Machine.execAlarmLevel3 s
  | .sensorLimit => Sys2Proof.Machine.execSensorLimit s
  | .tamperMesh => Sys2Proof.Machine.execTamperMesh s
  | .coldStart => Sys2Proof.Machine.execColdStart s
  | .warmStart => Sys2Proof.Machine.execWarmStart s
  | .setDuty => Sys2Proof.Machine.execSetDuty s
  | .fwStage => Sys2Proof.Machine.execFwStage s
  | .fwActivate => Sys2Proof.Machine.execFwActivate s
  | .readLog => Sys2Proof.Machine.execReadLog s
  | .getMeasurements => Sys2Proof.Machine.execGetMeasurements s
  | .keyExchange => Sys2Proof.Machine.execKeyExchange s
  | .migrationOffer => Sys2Proof.Machine.execMigrationOffer s
  | .migrationAbort => Sys2Proof.Machine.execMigrationAbort s

end Sys2Proof.Machine
end

