-- ==== Sys2Proof/Machine/Fetch.lean ====
section
/-!
DEFINITION. Instruction fetch: translation for execution (R46, R106 test 1, R127), the instruction cache (R22), and the replay buffer of
a LOOP nest (R133). Fetched bytes are those that the cores of the die see (log 12, DEDUCED).
-/

namespace Sys2Proof.Machine

/-- How a fetch ends. -/
inductive Fetch where
  | word (w : IWord)
  | fault
  | walk
  | wait (l : Lack)
  | poisoned (pa : Nat)
  deriving DecidableEq, Repr

/-- Whether a nest replays or captures: active and not suspended (R133). -/
def Strand.replaying (t : Strand) : Bool := !t.loops.isEmpty && !t.suspended

/-- Whether an address is that of a body word of the outermost level: what the replay buffer holds (R133). -/
def Strand.inNest (t : Strand) (pc : Word) : Bool :=
  t.replaying && (match t.loops.getLast? with
    | some r => r.body ≤ pc && pc ≤ r.last
    | none => false)

/-- Lines of a core's instruction cache (R22: 16 KiB). -/
def icacheLines : Nat := 256

/-- A line put into a core's instruction cache, which gives up one of its lines when it is full (log 11, DESIGN CHOICE). -/
def Core.fillCode (x : Core) (n choice : Nat) : Core :=
  if mhas x.icache n then x
  else { x with icache := mset (if x.icache.length < icacheLines then x.icache else x.icache.eraseIdx (choice % x.icache.length)) n () }

/-- A word fetched: from the replay buffer, if it is there (R133: later passes issue from the buffer), or from memory: a line that is
not in the instruction cache needs its way to memory open, or the strand is STALLED (R56). -/
def State.fetchWord (s : State) (p : Place) (t : Strand) (pc : Word) : Fetch :=
  match (if t.inNest pc then mget t.replay pc.toNat else none) with
  | some w => .word w
  | none =>
    if 2 ^ 57 ≤ pc.toNat then .fault
    else
      match (s.core p.core).tlbFind pc.toNat 2 with
      | none => if t.walked = some (pc.toNat, 2) then .fault else .walk
      | some e =>
        let pa := e.pa pc.toNat
        match s.ownedWait pa with
        | some l => .wait l
        | none =>
          if !mhas (s.core p.core).icache (pa / 64) && !s.memoryOpen p.core pa then .wait (.line (pa / 64))
          else if s.physPoisoned pa 4 then .poisoned pa
          else .word (BitVec.ofNat 32 (leNat (s.physRead (dieOf p.core) e.key e.gen pa 4)))

/-- The body words that the first pass of the outermost level has gone past without issuing them: R133 fetches them in that pass,
and no later one fetches (log 87, DESIGN CHOICE). -/
def Strand.missed (t : Strand) : List Word :=
  match t.loops.getLast? with
  | none => []
  | some r =>
    ((List.range (r.len + 1)).map fun i => r.body + BitVec.ofNat 64 (4 * i)).filter fun a =>
      t.replaying && (mget t.replay a.toNat).isNone && (r.remaining != r.initial || decide (a < t.pc))

/-- The address that a strand's fetch comes to: the first body word gone past that gives no word, or the PC. -/
def State.fetchAddr (s : State) (p : Place) (t : Strand) (pc : Word) : Word :=
  (t.missed.find? fun a => match s.fetchWord p t a with
    | .word _ => false
    | _ => true).getD pc

/-- The word at an address, for a strand: first the body words gone past are fetched (R133). -/
def State.fetch (s : State) (p : Place) (t : Strand) (pc : Word) : Fetch := s.fetchWord p t (s.fetchAddr p t pc)

/-- A fetched word of the body captured in the replay buffer (R133). -/
def Strand.capture (t : Strand) (pc : Word) (w : IWord) : Strand :=
  if t.inNest pc then { t with replay := mset t.replay pc.toNat w } else t

/-- A fetched word captured, and with it the body words that the first pass has gone past. -/
def State.captured (s : State) (p : Place) (t : Strand) (pc : Word) (w : IWord) : Strand :=
  t.missed.foldl (fun (u : Strand) a => match s.fetchWord p t a with
    | .word w => u.capture a w
    | _ => u) (t.capture pc w)

/-- The line of a word that has been fetched, in the instruction cache (R22); a word of the replay buffer has not been. -/
def State.cacheCode (s : State) (p : Place) (t : Strand) (pc : Word) : State :=
  if t.inNest pc && mhas t.replay pc.toNat then s
  else
    match (s.core p.core).tlbFind pc.toNat 2 with
    | none => s
    | some e => s.modCore p.core fun x => x.fillCode (e.pa pc.toNat / 64) (Config.icacheVictim s.draws)

/-- The state as the fetch of a word leaves it: the word captured, and the lines fetched in the instruction cache. -/
def State.fetched (s : State) (p : Place) (t : Strand) (pc : Word) (w : IWord) : State :=
  (t.missed ++ [pc]).foldl (fun s a => s.cacheCode p t a) (s.setStrand p (s.captured p t pc w))

/-- What a fetch that gives no word does: FETCH-PAGE at the address, a stall, or UNCORRECTED. -/
def State.fetchStop (s : State) (p : Place) (pc : Word) : Fetch → State
  | .word _ => s
  | .fault => s.raise p causeFetchPage pc
  | .walk => s.askWalk p pc.toNat 2
  | .wait l => s.stallFor p l
  | .poisoned pa => s.uncorrected p (BitVec.ofNat 64 pa)

end Sys2Proof.Machine
end

