-- ==== Sys2Proof/Machine/Convoy.lean ====
section
/-!
DEFINITION. Convoys (R66 to R68, R107): which words form one, its tests, and its run member by member.
-/

namespace Sys2Proof.Machine

/-- The unit classes of R150. -/
inductive UnitClass where
  | alu
  | mul
  | sf
  | perm
  | vmem
  deriving DecidableEq, Repr

/-- The class of a word by its major and function code; a reserved function has none (R150). -/
def unitClass (w : IWord) : Option UnitClass :=
  let f := (wordF6 w).toNat
  match (wordMajor w).toNat with
  | 0x24 => if 0x1F ≤ f then none else if 3 ≤ f ∧ f ≤ 0x0B then some .mul else some .alu
  | 0x25 => if 0x10 ≤ f then none else if 2 ≤ f ∧ f ≤ 5 then some .mul else if f = 6 ∨ f = 7 then some .sf else some .alu
  | 0x26 => if 0x14 ≤ f then none else some .perm
  | 0x27 => if 0x0C ≤ f then none else some .alu
  | 0x28 => if 0x0B ≤ f then none else if 5 ≤ f ∧ f ≤ 8 then some .perm else some .alu
  | 0x29 => if 8 ≤ f then none else some .vmem
  | 0x31 => if 8 ≤ f then none else some .sf
  | _ => none

/-- Whether a word is VLDFF, which may not join a convoy (R66). -/
def isVldff (w : IWord) : Bool := wordMajor w == 0x29 && wordF6 w == 1

/-- The vector registers that an instruction of a convoy's majors names, with whether each is a destination. -/
def vecNeeds (i : Instr) : List (Nat × Bool) :=
  match i with
  | .vadd _ d a b | .vsub _ d a b | .vrsub _ d a b | .vmul _ d a b | .vmulh _ d a b | .vmulhu _ d a b
  | .vmadd _ d a b | .vmsub _ d a b | .vdiv _ d a b | .vdivu _ d a b | .vrem _ d a b | .vremu _ d a b
  | .vmin _ d a b | .vmax _ d a b | .vminu _ d a b | .vmaxu _ d a b | .vand _ d a b | .vor _ d a b
  | .vxor _ d a b | .vsll _ d a b | .vsrl _ d a b | .vsra _ d a b | .vsadd _ d a b | .vsaddu _ d a b
  | .vssub _ d a b | .vssubu _ d a b | .vmerge _ d a b | .vfadd _ d a b | .vfsub _ d a b | .vfmul _ d a b
  | .vfma _ d a b | .vfms _ d a b | .vfnma _ d a b | .vfdiv _ d a b | .vfmin _ d a b | .vfmax _ d a b
  | .vgather _ d a b | .vredsum _ d a b | .vredmin _ d a b | .vredmax _ d a b | .vredminu _ d a b
  | .vredmaxu _ d a b | .vredand _ d a b | .vredor _ d a b | .vredxor _ d a b | .vfredsum _ d a b =>
    [srcReg a] ++ srcOf b ++ [dstReg d]
  | .vmv _ d b => srcOf b ++ [dstReg d]
  | .vabs _ d a | .vclz _ d a | .vpopc _ d a | .vfsqrt _ d a | .vfabs _ d a | .vfneg _ d a | .vfcvt _ d a _
  | .vfcvti _ d a | .vicvtf _ d a | .vfclass _ d a | .vxchg _ d a _ | .vslideup _ d a _ | .vslidedn _ d a _
  | .vslide1up _ d a _ | .vslide1dn _ d a _ | .vcompress _ d a | .vscan _ d a | .vexp2 _ d a | .vlog2 _ d a
  | .vrcp _ d a | .vrsqrt _ d a | .vsin _ d a | .vcos _ d a | .vtanh _ d a | .vsigm _ d a => [srcReg a, dstReg d]
  | .vextr _ _ a _ | .mfromv _ _ a => [srcReg a]
  | .vinsr _ d _ _ | .viota _ d | .mtov _ d _ | .vld _ d _ | .vldff _ d _ | .vldq _ d _ | .vldbc _ d _ => [dstReg d]
  | .vceq _ _ a b | .vcne _ _ a b | .vclt _ _ a b | .vcltu _ _ a b | .vcle _ _ a b | .vcleu _ _ a b
  | .vcgt _ _ a b | .vcgtu _ _ a b | .vfceq _ _ a b | .vfclt _ _ a b | .vfcle _ _ a b | .vfcun _ _ a b =>
    [srcReg a] ++ srcOf b
  | .vldx _ d _ b => [srcReg b, dstReg d]
  | .vst _ d _ | .vstq _ d _ => [srcReg d]
  | .vstx _ d _ b => [srcReg b, srcReg d]
  | _ => []

/-- A member of a convoy. -/
structure Member where
  pc : Word
  word : IWord
  instr : Instr
  deriving DecidableEq, Repr

/-- Whether a member is of the PERM class: it starts after every earlier member, and every later one after it (R67). -/
def Member.isPerm (m : Member) : Bool := unitClass m.word == some .perm

/-- Whether a member is unsplit (R149): every member of the PERM class but VSCAN. -/
def Member.isUnsplit (m : Member) : Bool := m.isPerm && !(wordMajor m.word == 0x26 && wordF6 m.word == 0x13)

/-- What the tests of R107 find. -/
inductive Gathered where
  | members (ms : List Member)
  | trap (k cause : Nat) (tval : Word)
  | stop (k : Nat) (pc : Word) (r : Fetch)
  deriving DecidableEq, Repr

/-- The convoy from a member on (R66, R107). The next member's address is that of the next instruction in the nest (R66).
The first number bounds the members, five at most. -/
def State.gather (s : State) (p : Place) (t : Strand) : Nat → Nat → List LoopRec → Word → List UnitClass → List Member →
    Gathered
  | 0, _, _, _, _, ms => .members ms
  | n + 1, k, loops, pc, used, ms =>
    if k = 4 then .trap k causeConvoy pc
    else
      match s.fetch p t pc with
      | .word w =>
        let cls := unitClass w
        if k ≠ 0 && !convoyMajor (wordMajor w) then .trap k causeConvoy (w.setWidth 64)
        else if used.any (fun c => cls == some c) || (isVldff w && (k ≠ 0 || wordC w)) then .trap k causeConvoy (w.setWidth 64)
        else
          match decode w with
          | .error _ => .trap k causeIllegal (w.setWidth 64)
          | .ok i =>
            if !(vecNeeds i).isEmpty && !s.isVector p then .trap k causeNoLanes (w.setWidth 64)
            else
              let ms' := ms ++ [{ pc := pc, word := w, instr := i }]
              if !wordC w then .members ms'
              else
                let nx := if t.suspended then (loops, pc + 4) else stepNest loops pc
                s.gather p t n (k + 1) nx.1 nx.2 (used ++ cls.toList) ms'
      | r => .stop k (s.fetchAddr p t pc) r

/-- A member run for a strand on a state. -/
def runMember (s : State) (k : Nat) (m : Member) (stop : Option Nat) : State :=
  match exec m.instr { s with cur := { s.cur with member := k, stop := stop } } with
  | .next s' => s'
  | _ => s

/-- Why a convoy goes no further than an element: a fault or a wait of its memory member, or a pause at the end of a beat. -/
inductive ConvoyStop where
  | mem (why : VStop)
  | pause
  deriving DecidableEq, Repr

/-- How a run of a convoy's members ends. -/
inductive ConvoyEnd where
  | done (s : State)
  | stalled (l : Lack)
  | trapped (s : State)
  | stopped (k e : Nat) (why : VStop)

/-- Whether the strand has not completed one more instruction. -/
def notRetired (p : Place) (a b : State) : Bool := (b.strand p).time.instret != (a.strand p).time.instret + 1

/-- The members run one after another (R67), until one faults, waits or traps. A refused page stays refused until the whole
convoy is over. The SPACE check of VLDQ and VSTQ is made before the convoy issues (R107, R148) and again when the member runs:
where an earlier member has written its operand and the slot it names is not allowed, it traps then, and the earlier members'
effects stay (log 85, DESIGN CHOICE). -/
def runMembers (s : State) (p : Place) : Nat → List Member → ConvoyEnd
  | _, [] => .done s
  | k, m :: r =>
    match ({ s with cur := { s.cur with member := k, stop := none } } : State).vmemStop p m.instr with
    | some (e, why, began) =>
      match why, began with
      | .wait l, false => .stalled l
      | _, _ => .stopped k e why
    | none =>
      let s1 := runMember s k m none
      let t := s1.strand p
      if t.run = .stalled then .stalled t.lack
      else if notRetired p s s1 then .trapped s1
      else runMembers (s1.modStrand p fun u => { u with walked := (s.strand p).walked }) p (k + 1) r

/-- The element at which member j stops when member k stops at element e (R68): earlier members go to the end of the beat
that holds e, later ones to e, and none behind a PERM member that has not ended. -/
def stopOf (ms : List Member) (beatEnd k e j : Nat) : Option Nat :=
  let permIn := (List.range (j + 1 - k)).any fun i => ((ms[k + i]?).map Member.isPerm) == some true
  if j < k then some beatEnd else if j = k then some e else if permIn then none else some e

/-- The scalar and the mask register that an unsplit instruction writes (R160, R165). -/
def unsplitScalar : Instr → Option SReg
  | .vextr _ d _ _ | .mpopc _ d _ | .mfirst _ d _ => some d
  | _ => none
def unsplitMask : Instr → Option MReg
  | .mskft _ d _ | .mskbf _ d _ => some d
  | _ => none

/-- The elements of its vector destination that an unsplit instruction writes (R160 to R162). -/
def State.unsplitWrites (s : State) (p : Place) (u : Strand) (i : Instr) : List Nat :=
  match i with
  | .vcompress _ _ _ => List.range (s.allActive p u).length
  | .vinsr _ _ _ b => [(u.s b).toNat].filter (· < u.vec.vlmaxs)
  | .vslideup _ _ _ b => (s.allActive p u).filter ((u.s b).toNat ≤ ·)
  | .vxchg _ _ _ _ | .vslidedn _ _ _ _ | .vslide1up _ _ _ _ | .vslide1dn _ _ _ _ | .vgather _ _ _ _ | .viota _ _ =>
    s.allActive p u
  | _ => [0]

/-- The results of an unsplit member that has completed, put into the strand that is kept: of a vector register the
elements written, so that elements which an earlier member has not committed stay (R68), and its own flags (R151). -/
def Strand.carry (after t : Strand) (i : Instr) (writes : List Nat) (flags : BitVec 8) : Strand :=
  let u := match unsplitScalar i with
    | some d => t.setS d (after.s d)
    | none => t
  let v := match unsplitMask i with
    | some d => u.setM d (after.m d)
    | none => u
  { v with
    vectors := ((vecNeeds i).filter (·.2)).foldl (fun m e =>
      mset m e.1 (writes.foldl (fun img n => setElem img t.sewW n (elem (mgetD after.vectors e.1 0) t.sewW n)) (mgetD m e.1 0))) v.vectors
    vec := { v.vec with vflags := v.vec.vflags ||| flags } }

/-- The flags that one member sets by itself. -/
def memberFlags (s : State) (p : Place) (j : Nat) (m : Member) : BitVec 8 :=
  ((runMember (s.modStrand p fun u => { u with vec := { u.vec with vflags := 0 } }) j m none).strand p).vec.vflags

/-- The stop of a convoy: what it does up to element e of member k; whole is the number of members that have completed all their
elements, where the convoy only waits or pauses: a PERM member starts after every earlier member has ended, and so does every later
one after it (R67). -/
structure StopAt where
  beatEnd : Nat
  k : Nat
  e : Nat
  whole : Nat
  deriving DecidableEq, Repr

/-- The members that have completed when a convoy waits or pauses at member k: all before the last PERM member up to k, and that
one if it is not k. -/
def wholeBefore (ms : List Member) (k : Nat) : Nat :=
  let perm := fun (j : Nat) => ((ms[j]?).map Member.isPerm) == some true
  ((List.range (k + 1)).map fun j => if perm j then (if j = k then k else j + 1) else 0).foldl max 0

/-- The runs of a convoy that is stopped: full with every earlier member complete, kept the one that stays, and whether a member of it
has ended in a trap. -/
structure StopRun where
  full : State
  kept : State
  trapped : Bool

/-- Member j of a convoy stopped by member k (R67, R68). A member that has completed wholly while the convoy waits or pauses has no
element left that it has not committed: it records VL. An unsplit member before a faulting k had started after the last beat of the
earlier ones, so it has read their whole results, and has completed (R149) (log 14, DEDUCED). -/
def stopMember (p : Place) (ms : List Member) (c : StopAt) (r : StopRun) (j : Nat) : StopRun :=
  match ms[j]?, r.trapped with
  | some m, false =>
    let full := if j < c.k then runMember r.full j m none else r.full
    if j < c.whole then
      { r with full := full, kept := (runMember r.kept j m none).modStrand p fun u => { u with vec := u.vec.setVstart j u.vec.vl } }
    else
      match stopOf ms c.beatEnd c.k c.e j with
      | none =>
        { r with full := full
                 kept := if m.isPerm then r.kept.modStrand p fun u => { u with vec := u.vec.setVstart j 0 } else r.kept }
      | some n =>
        if j < c.k && m.isUnsplit then
          let t := r.full.strand p
          { r with full := full
                   kept := r.kept.modStrand p fun u =>
                     let v := if t.vec.vstart j = 0 then
                         (full.strand p).carry u m.instr (r.full.unsplitWrites p t m.instr) (memberFlags r.full p j m)
                       else u
                     { v with vec := v.vec.setVstart j n } }
        else
          let kept := runMember r.kept j m (some n)
          { full := full, kept := kept, trapped := notRetired p r.kept kept }
  | _, _ => r

/-- Whether a stop is a fault, not a wait or a pause. -/
def ConvoyStop.isFault : ConvoyStop → Bool
  | .mem (.fail _) => true
  | _ => false

/-- The convoy stopped at element e of member k (R68, R79): what is committed stays, every member's progress is recorded, the PC
stays at the first member, and the fault is answered, or the strand waits, or it is at the boundary of a beat. An uncorrected error
in an element below e traps, or faults the kernel, as it does in a lone instruction (R75, R167). -/
def stopConvoy (s : State) (p : Place) (ms : List Member) (k e : Nat) (why : ConvoyStop) : State :=
  let t := s.strand p
  let perBeat := s.laneCount p * (32 / t.sewW)
  let beatEnd := (e / perBeat + 1) * perBeat
  let c : StopAt := { beatEnd := beatEnd, k := k, e := e, whole := if why.isFault then 0 else wholeBefore ms k }
  let run := (List.range ms.length).foldl (stopMember p ms c) { full := s, kept := s, trapped := false }
  let kept := run.kept.modStrand p fun u => { u.begun s.cur.mask with
    pc := t.pc, loops := t.loops, stepped := t.stepped, stamps := t.stamps, issueNo := t.issueNo, walked := t.walked,
    time := { u.time with instret := t.time.instret } }
  let s1 : State := { kept with cur := { s.cur with member := k, stop := none, mask := none } }
  if run.trapped then { run.kept with cur := { s.cur with mask := none } }
  else
    match why with
    | .mem (.fail f) => s1.vfail p f
    | .mem (.wait l) => s1.stall p l
    | .pause => s1

/-! ### Pauses (R10, R79, R149, R244)

Each element of a vector memory instruction is an event of its own, and a suspension stops a strand at the end of a beat. So an
instruction or convoy may pause: what it has done up to an element stays, and it goes on at a later step. Where it pauses is a
free value (log 86, DESIGN CHOICE). -/

/-- Whether anything but the strand at a place may take a step before its next one. -/
def State.watched (s : State) (p : Place) : Bool :=
  !(s.agenda.isEmpty && s.timers.isEmpty && s.packets.isEmpty) ||
    s.cores.any fun e => e.2.strands.any fun k => (e.1 != p.core || k.1 != p.strand) && k.2.run != .unbound

/-- Whether a vector instruction of the strand may pause: while a suspension stops its core, it ends the beat it is in. -/
def State.mayPause (s : State) (p : Place) : Bool := s.watched p || (s.core p.core).stopping

/-- The vector memory member of a convoy. -/
def vmemMember (ms : List Member) : Option Nat := (List.range ms.length).find? fun j => ((ms[j]?).bind fun m => unitClass m.word) == some .vmem

/-- Whether a word is VLDBC, whose elements come from one access (R166): it stops within itself for a suspension alone. -/
def isVldbc (w : IWord) : Bool := wordMajor w == 0x29 && wordF6 w == 7

/-- The pause of a convoy: its vector memory member and the element of it that is not committed, behind one that is; while a
suspension stops its core, the end of the beat that it is in. -/
def State.pauseAt (s : State) (p : Place) (ms : List Member) (limit : Nat) : Option (Nat × Nat) :=
  (vmemMember ms).bind fun k =>
    let t := s.strand p
    let lo := t.vec.vstart k
    let stopping := (s.core p.core).stopping
    let n := Config.pick s.draws
    let e := if stopping then s.beatEnd p t lo else n / 2 % 512
    let free := n % 2 == 1 && !(ms.any fun m => isVldbc m.word)
    if (stopping || (free && !(activeIn (s.maskOf p t) lo e).isEmpty)) && lo < e && e < t.vec.vl && e ≤ limit then some (k, e) else none

/-- A vector instruction or convoy issued member by member (R66, R67, R107): its tests, the conditions of every member (R148),
residency for all its registers at once (R34), the mask read once, and the members, or as many of their elements as come before a
pause (log 15, DEDUCED). -/
def State.issueConvoy (s : State) (p : Place) (t : Strand) : State :=
  let atMember := fun (s : State) (k : Nat) => { s with cur := { s.cur with member := k } }
  match s.gather p t 5 0 t.loops t.pc [] [] with
  | .trap k cause tval => (atMember s k).raise p cause tval
  | .stop k pc r => (atMember s k).fetchStop p pc r
  | .members ms =>
    let checks := (ms.zipIdx).findSome? fun e => (s.vecCheck p t e.1.instr).map fun c => (e.2, c)
    match checks with
    | some (k, c) => (atMember s k).raise p c.1 c.2
    | none =>
      let t1 := ms.foldl (fun (u : Strand) m => u.capture m.pc m.word) ((ms.head?.map fun m => s.captured p t m.pc m.word).getD t)
      s.withResident p t1 (ms.map fun m => vecNeeds m.instr).flatten fun r =>
        let s0 : State := { (t.missed ++ ms.map (·.pc)).foldl (fun s a => s.cacheCode p t a) (s.setStrand p r) with
          cur := { s.cur with mask := some (t.midMask.getD (t.m t.vec.vmsel)) } }
        let s1 : State := if s0.mayPause p then { s0 with draws := s0.draws + 1 } else s0
        let done := fun (s2 : State) => { s2 with cur := { s2.cur with mask := none } }
        let restamp := fun (s2 : State) =>
          if (s2.strand p).run = .unbound then s2 else s2.modStrand p fun u => { u with stamps := r.stamps, issueNo := r.issueNo }
        let pause := fun (limit : Nat) => if s0.mayPause p then s0.pauseAt p ms limit else none
        match runMembers s1 p 0 ms with
        | .done s2 =>
          match pause (min t.vec.vl (s2.strand p).vec.vl) with
          | some (k, e) => stopConvoy s1 p ms k e .pause
          | none => done (restamp s2)
        | .trapped s2 => done (restamp s2)
        | .stalled l => (done s1).stall p l
        | .stopped k e why =>
          match pause e with
          | some (j, n) => stopConvoy s1 p ms j n .pause
          | none => stopConvoy s1 p ms k e (.mem why)

end Sys2Proof.Machine
end

