-- ==== Sys2Proof/Machine/Sched.lean ====
section
/-!
DEFINITION. What happens next (log 2, DESIGN CHOICE): which due step is taken, which strand issues (R58 to R60), what falls due as a clk
ends (R42, R62, R78, R290, R386), and how a strand's instruction is issued at a boundary (R72, R76, R106).
-/

namespace Sys2Proof.Machine

/-! ### Due steps -/

/-- Steps of one stream happen in the order in which they fell due: answers and notices of a counter to a core
(R309), operations of a core on a counter (R308), packets without a route word between two cores (R286), and arrivals that
were parked at a core (R364). -/
def State.streamOf (s : State) (d : Due) : Option (Nat × Nat × Nat) :=
  match d.step, d.given with
  | .armAnswer, .counter die n _ core _ => some (1, 4096 * die + n, core)
  | .zeroNotice, .counter die n _ core _ => some (1, 4096 * die + n, core)
  | .counterArm, .counter die n _ core _ => some (2, 4096 * die + n, core)
  | .counterSignal, .signal die n _ p _ _ => some (2, 4096 * die + n, p.core)
  | _, .packet id =>
    match mget s.packets id with
    | some k => if k.word = 0 then some (3, k.core, k.target) else if k.port = some k.loc then some (4, 0, k.target) else none
    | none => none
  | _, _ => none

/-- The position of the step taken when step n of the agenda is chosen: the first of its stream. -/
def State.firstOf (s : State) (n : Nat) : Nat :=
  match s.agenda[n]? with
  | none => n
  | some d =>
    match s.streamOf d with
    | none => n
    | some k => s.agenda.findIdx fun e => s.streamOf e == some k

/-! ### Which strand issues (R58, R59) -/

/-- Whether a strand may issue: READY, on a core that is not frozen (R379) and awaits no route word (R278); while a suspension stops
the core, only until it holds no bay lock and has ended the beats it is in (R79), or has ended with its kernel (R328). -/
def Core.ready (x : Core) (k : Nat) : Bool :=
  (x.strand k).run == .ready && !x.owner.frozen && !x.minting && (!x.stopping || (x.strand k).ending || (x.locks.any fun e => e.2 == k) || (x.strand k).ragged (x.laneCount k))

/-- Whether a strand runs a user-interrupt handler, or a trap handler at supervisor privilege. -/
def Strand.inHandler (t : Strand) : Bool := t.inUi || t.trap.priv

/-- Entry e of the slot table (R58). -/
def Core.slotEntry (x : Core) (e : Nat) : Nat := bits (if e < 16 then x.slot0 else x.slot1).toNat (4 * (e % 16)) 4

/-- The strand that a core issues at a clk (R59). -/
def Core.choose (x : Core) (clk : Nat) : Option Nat :=
  let e := x.slotEntry (clk % 32)
  let o := e % 8
  if x.ready o && (e < 8 || (x.strand o).inHandler) then some o
  else ((List.range 7).map fun k => (o + k + 1) % 8).find? fun c => x.ready c

/-- The first core that has not had its turn in this clk and has a strand to issue, with that strand. -/
def nextIssue (clk turn : Nat) : List (Nat × Core) → Option Place
  | [] => none
  | (c, x) :: r =>
    match (if turn ≤ c then x.choose clk else none) with
    | some k => some { core := c, strand := k }
    | none => nextIssue clk turn r

/-- The next strand to issue at this clk: the cores have their turns in the order of their numbers. -/
def State.nextStrand (s : State) : Option Place := nextIssue s.now s.turn s.cores

/-- The turn when no core issues any more in this clk: above every core number; and the turn once a wait has ended by its limit, after
which nothing but other limits and the next clk follows (R386). -/
def endTurn : Nat := 2 ^ 20
def closedTurn : Nat := 2 ^ 20 + 1

/-- The state as a strand's instruction finds it: cur names the strand, and the next core is to issue. -/
def State.issueAs (s : State) (p : Place) : State :=
  { s with
    turn := p.core + 1
    cur := { place := p, member := 0, epc := (s.strand p).pc, stop := none, mask := none } }

/-! ### The order of one clk

The spec fixes which of some events of one clk comes first: at a task queue the strand event, then arrivals, then balancer
commands, then aging (R302); at a bank of G a local access before a remote one, one arrival a clk, and an FE access after an atomic
(R256); at a ring the strand event, then copy commands in slot order (R195); at a counter an arm, then SIGNAL, then a set (R308); at
a lease a grant or notice before a WRELEASE (R301). A step that comes too late for its place in this clk waits for the next. -/

/-- Where in a clk a step has its place: before or after its core's strand issues, and its rank among the steps of one object. -/
structure ClkPlace where
  core : Option (Nat × Bool)
  ranked : Option (Nat × Nat)
  deriving DecidableEq, Repr

/-- The objects whose steps are ordered: a core's task queue, its bank of G, its copy engine, and a die's counter (counterObject). -/
def queueObject (c : Nat) : Nat := 4 * c
def bankObject (c : Nat) : Nat := 4 * c + 1
def copyObject (c : Nat) : Nat := 4 * c + 2

/-- A place after a core's strand. -/
def afterStrand (c object rank : Nat) : Option ClkPlace := some { core := some (c, false), ranked := some (object, rank) }

/-- The place of a due step in its clk, where the spec fixes one. -/
def State.clkPlace (s : State) (d : Due) : Option ClkPlace :=
  match d.step, d.given with
  | .remoteAccessArrival, .packet id =>
    (mget s.packets id).bind fun k =>
      if wEndp k.word = 4 then afterStrand k.target (bankObject k.target) 1 else none
  | .taskPacketArrival, .packet id => (mget s.packets id).bind fun k => afterStrand k.target (queueObject k.target) 2
  | .migrationRefused, .packet id => (mget s.packets id).bind fun k => afterStrand k.target (queueObject k.target) 2
  | .acknowledgementArrival, .packet id | .nackArrival, .packet id =>
    (mget s.packets id).bind fun k =>
      match k.kind with
      | .moveDone _ | .moveNacked _ => afterStrand k.target (queueObject k.target) 2
      | _ => none
  | .migrationArrival, .packet id =>
    (mget s.packets id).bind fun k =>
      match k.kind with
      | .move dst _ _ => afterStrand dst (queueObject dst) 2
      | _ => none
  | .hostPost, .request _ _ b => (postCore b).bind fun c => afterStrand c (queueObject c) 2
  | .armAnswer, .counter _ _ _ c _ | .zeroNotice, .counter _ _ _ c _ => afterStrand c (queueObject c) 2
  | .balanceCommand, .command _ b => afterStrand b.src (queueObject b.src) 3
  | .taskAging, .item c _ => afterStrand c (queueObject c) 4
  | .copyDone, .item c k => afterStrand c (copyObject c) k
  | .yieldExpiry, .place p => some { core := some (p.core, false), ranked := none }
  | .matrixOpComplete, .core c => some { core := some (c, false), ranked := none }
  | .counterArm, .counter die n _ _ _ => some { core := none, ranked := some (counterObject die n, 1) }
  | .counterSignal, .signal die n _ _ _ _ => some { core := none, ranked := some (counterObject die n, 2) }
  | .counterSet, .request _ _ b =>
    some { core := none, ranked := some (counterObject (reqBits b 0x08 0 4) (reqBits b 0x08 16 12), 3) }
  | .leaseGrant, .lease c _ => some { core := some (c, true), ranked := none }
  | _, _ => none

/-! ### Commands and the events of a context (R366, R398) -/

/-- The context that an event other than an alarm reaches, and its rank among those that reach it together (R366): an unlock, what
belongs to a migration, a suspend, a restore. -/
def ctxEvent (d : Due) : Option (Nat × Nat) :=
  match d.step, d.given with
  | .unlock, .ctx c => some (c, 1)
  | .migrate, .peer c _ | .migrationOffer, .offer c .. | .migrationChunk, .chunk c .. | .migrationAck, .ctx c | .migrationAbort, .ctx c
  | .confirm, .ctx c | .alarmNotice, .ctx c | .migrationCommitTimeout, .ctx c => some (c, 2)
  | .suspend, .ctx c => some (c, 3)
  | .restore, .restore c _ _ => some (c, 4)
  | _, _ => none

/-- Whether a step is an alarm that names a context (R366, R379, R380). -/
def hitsCtx (d : Due) (c : Nat) : Bool :=
  match d.step, d.given with
  | .alarmLevel2, .alarm _ l => l.contains c
  | .alarmLevel3, _ => true
  | _, _ => false

/-- Whether a step is the first of those that reach its context together (R366). -/
def State.ctxFirst (s : State) (d : Due) : Bool :=
  match ctxEvent d with
  | none => true
  | some (c, n) => !s.agenda.any fun e => hitsCtx e c || (match ctxEvent e with
    | some (c', m) => c == c' && decide (m < n)
    | none => false)

/-- Whether it is a command's turn: commands are executed in arrival order (R398), but for those that reach one context together. -/
def State.commandTurn (s : State) (d : Due) : Bool :=
  match s.agenda.find? fun e => isCommand e.step with
  | none => true
  | some h => !isCommand d.step || d == h ||
      ((ctxEvent d).isSome && (ctxEvent d).map (·.1) == (ctxEvent h).map (·.1) && (ctxEvent d).map (·.2) != (ctxEvent h).map (·.2))

/-- Whether a due step may be taken now: its place in this clk is there and has not passed; a bank of G takes one arrival a clk, and
of several copy commands of a core the lowest slot comes first; events of a context and commands have their order. -/
def State.mayTake (s : State) (d : Due) : Bool :=
  s.ctxFirst d && s.commandTurn d &&
  match s.clkPlace d with
  | none => true
  | some q =>
    (match q.core with
     | some (c, true) => decide (s.turn ≤ c)
     | some (c, false) => decide (c < s.turn) || s.nextStrand.isNone
     | none => true) &&
    (match q.ranked with
     | some (o, n) => decide (mgetD s.marks o 0 + (if o % 4 = 1 then 1 else 0) ≤ n)
     | none => true) &&
    (match d.step, d.given with
     | .copyDone, .item c k => !(s.agenda.any fun e => match e.step, e.given with
       | .copyDone, .item c' j => c == c' && decide (j < k)
       | _, _ => false)
     | _, _ => true)

/-- A due step taken: it leaves the agenda, is given its operands, and its object has come as far as its rank in this clk; after a
step that comes after a core's strand, that core issues no more. -/
def State.takeDue (s : State) (n : Nat) (d : Due) : State :=
  let s1 := { s with agenda := s.agenda.eraseIdx n, given := d.given, draws := s.draws + 1 }
  match s.clkPlace d with
  | none => s1
  | some q =>
    { s1 with
      marks := match q.ranked with
        | some (o, n) => mset s.marks o n
        | none => s.marks
      turn := match q.core with
        | some (c, false) => if s.turn ≤ c then endTurn else s.turn
        | _ => s.turn }

/-- Steps that the spec ties to a clk: one that is due is taken before the clk ends. -/
def clkBound : Instr → Bool
  | .timecmpMatch | .yieldExpiry | .copyDone | .taskAging | .balancerRound | .lockWatchdog | .matrixOpComplete
  | .bayScrubComplete | .blockedHeadTimeout | .keepWaitingTimer | .responseTimerExpiry | .nackResend | .retuneComplete
  | .leaseTermExpiry | .leaseRequestTimeout | .reclaimExpiry | .starvationTimeout
  | .granaryWriteback => true
  | _ => false

/-- The first step that must be taken before this clk ends, by its position. -/
def State.mustTake (s : State) : Option (Nat × Due) :=
  ((s.agenda.zipIdx).find? fun e => clkBound e.1.step && s.mayTake e.1).map fun e => (e.2, e.1)

/-- Steps of the lease agent that come before a WRELEASE of their clk (R301): a due grant or notice, and the retune that makes room
for a grant. -/
def leadsStrands : Instr → Bool
  | .retuneComplete | .leaseGrant | .starvationTimeout => true
  | _ => false

/-- The first step that must be taken before a strand issues, by its position. -/
def State.takeFirst (s : State) : Option (Nat × Due) :=
  ((s.agenda.zipIdx).find? fun e => leadsStrands e.1.step && s.mayTake e.1).map fun e => (e.2, e.1)

/-- An FE access marks its bank (R256): no remote access is applied to it any more in this clk. -/
def State.noted (s : State) (p : Place) (i : Instr) : State :=
  match i with
  | .ldfull .. | .ldfullk .. | .stfull .. | .stfill .. | .feclr .. => { s with marks := mset s.marks (bankObject p.core) 1 }
  | _ => s

/-! ### What falls due as a clk ends -/

/-- The limit of a wait (R42, R386): FEWAIT or BARWAIT, 0 selecting 1,048,576; some waits have none. -/
def Strand.waitLimit (t : Strand) : Option (Instr × Nat) :=
  let lim := fun (v : BitVec 32) => if v = 0 then 1048576 else v.toNat
  match t.wait with
  | .barrier .. | .recoat => some (.barwaitLimit, lim t.time.barwait)
  | .sleep | .wfev _ | .fe .. | .ring .. | .copy _ | .take | .recv _ => some (.fewaitLimit, lim t.time.fewait)
  | _ => none

/-- The limit that a WAITING strand reaches at the end of this clk (R386). -/
def Strand.limitDue (t : Strand) (now : Nat) : Option Instr :=
  if t.run = .waiting ∧ !t.limited then
    (match t.waitLimit with
     | some (i, n) => if t.waitFrom + n ≤ now then some i else none
     | none => none)
  else none

/-- The first wait of the module that reaches its limit at the end of this clk. -/
def State.limitDue (s : State) : Option (Instr × Place) :=
  s.cores.findSome? fun e => e.2.strands.findSome? fun t =>
    if t.2.wait == .recoat && s.recoating e.1 then none
    else (t.2.limitDue s.now).map fun i => (i, { core := e.1, strand := t.1 })

/-- What falls due for one strand as the clk becomes now (R42, R56, R72). -/
def State.strandDue (s : State) (now : Nat) (p : Place) (t : Strand) : List Due :=
  let timer := t.time.timerOff + BitVec.ofNat 64 now
  let at' := fun (i : Instr) => ({ step := i, given := .place p } : Due)
  (if t.run != .unbound && t.time.timecmp != 0 && timer == t.time.timecmp && now != t.time.timerFrom then [at' .timecmpMatch] else []) ++
  (if (t.run == .stalled && t.wait == .none && s.lackMet p t.lack) || s.feFreed p t then [at' .resourceAvailable] else []) ++
  (if t.interruptible then [at' .userInterruptEntry] else [])

/-- What falls due for one core: the core barrier (R62) and the lock watchdog (R78). -/
def State.coreDue (s : State) (now c : Nat) (x : Core) : List Due :=
  let waiting := !x.barWaiting.isEmpty && !x.quiescent && x.idle &&
    x.strands.all fun e => e.2.run == .unbound || mhas x.barWaiting e.1
  (if waiting then [{ step := .coreBarrierQuiescent, given := .core c }] else []) ++
  ((x.lockFrom.filter fun e => e.2 + 4096 ≤ now).map fun e =>
    { step := .lockWatchdog, given := .place { core := c, strand := e.1 } }) ++
  (x.strands.map fun e => s.strandDue now { core := c, strand := e.1 } e.2).flatten

/-- The heads of input queues that have been blocked for 4,096 clk (R290). -/
def State.blockedDue (s : State) (now : Nat) : List Due :=
  (s.packets.filter fun e => e.2.queued && !e.2.aside && e.2.vc != 3 && !e.2.flagged && e.2.blockedFrom + 4096 ≤ now && s.isHead e.1 e.2).map fun e =>
    { step := .blockedHeadTimeout, given := .packet e.1 }

/-- The recovery token moves while a die or the gateway has a flagged packet, unless the host moves it (R291). -/
def State.tokenDue (s : State) : List Due :=
  if !bit s.duty 5 && s.dies.any (fun e => e.2.flagged) && !s.tokenBusy &&
      !(s.agenda.any fun d => d.step == .tokenVisit) then [{ step := .tokenVisit, given := .die s.tokenAt }]
  else []

/-- Every 3,000 clk each die with a plot runs a balancer round (R312); the spec gives no phase, and all of them run together, in the clk
whose count is a multiple of 3,000 (log 109, DESIGN CHOICE). -/
def State.balancerDue (s : State) (now : Nat) : List Due :=
  if now % 3000 = 0 then
    ((s.cores.filter fun e => e.2.kern.isSome).map fun e => dieOf e.1).eraseDups.map fun d =>
      { step := .balancerRound, given := .die d }
  else []

/-- The lines that a granary gives up. It may evict any line at any time (R248): whether it does, and which, is free. The slice of a
station that holds more than its 4 MiB gives up as many lines as it has too many (R14) (log 11, DESIGN CHOICE). -/
def Die.evicted (x : Die) (choice : Nat) : List Nat :=
  let l := x.granaryLines.rotateLeft choice
  let excess := (List.range 16).map fun j =>
    let mine := l.filter fun n => stationOf (64 * n) == j
    mine.take (mine.length - sliceLines)
  ((l[choice % (l.length + 1)]?).toList ++ excess.flatten).eraseDups

/-- The evictions that fall due. -/
def State.evictDue (s : State) : List Due :=
  (s.dies.map fun e => (e.2.evicted (Config.pick (s.draws + e.1))).map fun l =>
    ({ step := .granaryWriteback, given := .item e.1 l } : Due)).flatten

/-- The transmit queues, by direction and index, that hold a packet not yet begun (R300). -/
def State.waitingQueues (s : State) (now : Nat) : List Nat :=
  ((s.fibreOut.filter fun e => decide (now < e.1.begins)).map fun e =>
    3 * dirOf e.1.channel + s.channelIndex e.1.channel).eraseDups

/-- Whether every unleased channel of an index's default set that is not dark is transmitting (R300). -/
def State.starved (s : State) (now q : Nat) : Bool :=
  (fibresOf (q / 3)).all fun f => (s.freeChannels f (q % 3)).all fun ch =>
    s.fibreOut.any fun e => e.1.channel == ch && decide (e.1.begins ≤ now ∧ now < e.1.ends)

/-- Whether a lease of a queue's direction is RECLAIMING (R300). -/
def State.reclaims (s : State) (q : Nat) : Bool :=
  s.cores.any fun e => e.2.leases.any fun l => l.2.dir == q / 3 && l.2.state == .reclaiming

/-- 20 µs (R300). -/
def starveClk : Nat := 20 * clkPerUs

/-- The starvation timers as the clk becomes now (R300): they run while their conditions hold, and begin anew once they end. While a lease
of the direction is RECLAIMING they stand still, with what they have counted (log 114, DEDUCED). -/
def State.starveTimers (s : State) (now : Nat) : SMap Nat :=
  ((s.waitingQueues now).filter (s.starved now)).foldl (fun (m : SMap Nat) q =>
    let n := mgetD s.starve q (if s.reclaims q then now - 1 else now)
    mset m q (if s.reclaims q then n + 1 else if n + starveClk ≤ now then now else n)) []

/-- The starvation timers that end. -/
def State.starveDue (s : State) (now : Nat) : List Due :=
  ((s.waitingQueues now).filter fun q => s.starved now q && !s.reclaims q && decide (mgetD s.starve q now + starveClk ≤ now)).map fun q =>
    { step := .starvationTimeout, given := .starve (q / 3) (q % 3) }

/-- Everything that falls due as the clk becomes now: the timers that end, and what the state asks for and is not due
already. -/
def State.newlyDue (s : State) (now : Nat) : List Due :=
  (s.timers.filter fun e => e.1 ≤ now).map (·.2) ++
    ((s.cores.map fun e => s.coreDue now e.1 e.2).flatten ++
      s.blockedDue now ++ s.starveDue now ++ s.tokenDue ++ s.balancerDue now ++ s.evictDue).filter fun d => !s.agenda.contains d

/-- The next clk (log 3, DESIGN CHOICE). -/
def State.tick (s : State) : State :=
  let now := s.now + 1
  { s with
    now := now
    turn := 0
    marks := []
    starve := s.starveTimers now
    draws := s.draws + 1
    timers := s.timers.filter fun e => !(e.1 ≤ now)
    agenda := s.agenda ++ s.newlyDue now }

/-! ### Issuing at a boundary -/

/-- A pending asynchronous trap (R76): the step that takes it. -/
def trapStep (cause : Nat) : Instr := if cause = causeEngine then .engineTrap else .uncorrectedTrap

/-- A step taken for a strand rather than its next instruction. -/
def State.runFor (s : State) (i : Instr) (p : Place) : Res := exec i { s with given := .place p }

/-- The instruction at a strand's PC issued (R106, R107): fetched, decoded and executed. A vector instruction that may pause is
issued as a convoy of one member. -/
def State.issueWord (s : State) (p : Place) : Res :=
  let t := s.strand p
  match s.fetch p t t.pc with
  | .word w =>
    if convoyMajor (wordMajor w) && (wordC w || s.mayPause p) then .next (s.issueConvoy p t)
    else
      match decode w with
      | .error _ => .next (s.raise p causeIllegal (w.setWidth 64))
      | .ok i => exec i ((s.noted p i).fetched p t t.pc w)
  | r => .next (s.fetchStop p (s.fetchAddr p t t.pc) r)

/-- A strand at an instruction boundary (R72, R76): a pending trap, then a user interrupt, then the next instruction. Within a
vector instruction that has begun there is no boundary. A strand whose kernel has ended is UNBOUND there (R328). -/
def State.issue (s : State) (p : Place) : Res :=
  let t := s.strand p
  if t.ending && !t.mid then .next (s.modCore p.core fun x => x.unbind p.strand) else
  match t.pendTrap with
  | e :: _ => if t.mid then s.issueWord p else s.runFor (trapStep e.1) p
  | [] => if t.interruptDue then s.runFor .userInterruptEntry p else s.issueWord p

end Sys2Proof.Machine
end

