-- ==== Sys2Proof/Machine/Step.lean ====
section
/-!
DEFINITION. One step of the module, and a state whose next step runs a given instruction.
-/

namespace Sys2Proof.Machine

/-- The end of a clk (R386): each wait that reaches its limit ends, and then the clk does. An event of the clk comes before any of
them, so that no other step follows in it. -/
def State.endClk (s : State) : Res :=
  match s.limitDue with
  | some (i, p) => ({ s with turn := closedTurn } : State).runFor i p
  | none => .next s.tick

/-- When no strand is left to issue in this clk: a due step that is tied to this clk is taken, and then the clk ends. -/
def State.closeClk (s : State) : Res :=
  match s.mustTake with
  | some (n, d) => exec d.step (({ s with turn := endTurn } : State).takeDue n d)
  | none => s.endClk

/-- When no due step is chosen: one that must come before a strand is taken; then the next strand of this clk issues; when none is
left, the clk is closed. -/
def State.advance (s : State) : Res :=
  match s.takeFirst with
  | some (n, d) => exec d.step (s.takeDue n d)
  | none =>
    match s.nextStrand with
    | some p => (s.issueAs p).issue p
    | none => s.closeClk

/-- One step: a due step, whichever is chosen, if it may be taken now, or what comes when none is; once a limit has ended a wait, the
clk ends. -/
def step (s : State) : Host.Outcome State Fault Refusal :=
  if s.turn = closedTurn then s.endClk else
  match s.agenda with
  | [] => s.advance
  | _ :: _ =>
    let n := s.firstOf (Config.pick s.draws % (s.agenda.length + 1))
    match s.agenda[n]? with
    | some d =>
      if s.mayTake d then exec d.step (s.takeDue n d) else ({ s with draws := s.draws + 1 } : State).advance
    | none => ({ s with draws := s.draws + 1 } : State).advance

/-! ### Placing an instruction (log 1, DESIGN CHOICE)

The module runs no program of its own from reset: a context is locked, its tables and program are written to memory, and a
kernel is launched. withFetchWord stands for that loading, for one instruction. -/

/-- Where the placed instruction stands: virtual and physical address. -/
def placedAt : Nat := 0x8000

/-- The context that runs it: LOCKED, with one key in slot 0. -/
def placedContext : Context :=
  { state := .locked, rects := [{ x0 := 0, y0 := 0, x1 := 0, y1 := 0 }], tbAddr := 0,
    tb := { croot := 0, sroot := 0, poolbase := 0, poolcnt := 0, poolhead := 0 }, save := 0, pasid := 0, counters := [], key := 0,
    slots := [(0, { key := some 0, epoch := 0 })], saved := [], origin := 0 }

/-- Its kernel, RUNNING on core 0. -/
def placedKernel : Kernel :=
  { state := .running, ctx := 1, die := 0, desc := 0, rects := [{ x0 := 0, y0 := 0, x1 := 0, y1 := 0 }], tag := 0, cmpl := 0,
    done := none, gtab := 0, strands := 1, rendezvous := [], copyFail := 0, cause := 0, tval := 0,
    faultAt := { core := 0, strand := 0 }, groups := [], successor := none, recorded := false }

/-- Its strand 0, READY at the instruction at user privilege, with a trap vector. -/
def placedStrand : Strand :=
  { Strand.reset with
    run := .ready
    pc := BitVec.ofNat 64 placedAt
    trap := { TrapCsr.reset with tvec := BitVec.ofNat 64 (placedAt + 0x1000) } }

/-- The translation of its page: readable, writable and executable. -/
def placedEntry : TlbEntry :=
  { ctx := 1, vbase := placedAt, size := 32768, pbase := placedAt, r := true, w := true, x := true, cow := false, dirty := true,
    key := 0, gen := 0 }

/-- The state with an instruction of nbits bits placed so that the next step issues it: its word in device memory at the PC of
the one strand that may issue, its line in the instruction cache, nothing else due. -/
def State.withFetchWord (s : State) (nbits w : Nat) : State :=
  { s with
    mem := writeBytes s.mem placedAt (leBytes 4 (w % 2 ^ nbits))
    lineTag := mdel s.lineTag (placedAt / 64)
    lineKey := mset s.lineKey (placedAt / 64) 0
    poisoned := []
    owned := []
    cores := [(0, { Core.reset with
      owner := { id := 1, gen := 1, frozen := false, poison := false }
      kern := some 0
      tag := 0
      strands := [(0, placedStrand)]
      tlb := [placedEntry]
      icache := [(placedAt / 64, ())] })]
    dies := [(0, { Die.reset with keys := [(1, { key := placedContext.key, slots := placedContext.slots })] })]
    contexts := mset s.contexts 1 placedContext
    kernels := mset s.kernels 0 placedKernel
    packets := []
    agenda := []
    timers := []
    turn := 0
    marks := [] }

end Sys2Proof.Machine
end

