-- ==== Sys2Proof/Laws/Encoding.lean ====
section
/-!
SUPPORT. The fields of an encoded word, and what a register field decodes to: the steps of a round trip from an instruction
to its word and back.
-/

set_option Elab.async false

namespace Sys2Proof.Laws

theorem extract_toNat {n : Nat} (w : BitVec n) (lo k : Nat) : (w.extractLsb' lo k).toNat = w.toNat / 2 ^ lo % 2 ^ k := by
  simp [BitVec.extractLsb'_toNat, Nat.shiftRight_eq_div_pow]

theorem bit_toNat {n : Nat} (w : BitVec n) (i : Nat) : w.getLsbD i = decide (w.toNat / 2 ^ i % 2 = 1) := by
  rw [← BitVec.testBit_toNat, Nat.testBit_eq_decide_div_mod_eq]

theorem packR_toNat (m d a b : BitVec 6) (f : BitVec 7) :
    (packR m d a b f).toNat = m.toNat * 2 ^ 25 + (d.toNat * 2 ^ 19 + a.toNat * 2 ^ 13 + b.toNat * 2 ^ 7 + f.toNat) := by
  have := m.isLt; have := d.isLt; have := a.isLt; have := b.isLt; have := f.isLt
  simp only [packR, packMajor, BitVec.toNat_ofNat]; simp; try omega

@[simp] theorem wordC_packR (m d a b : BitVec 6) (f : BitVec 7) :
    wordC (packR m d a b f) = false := by
  have := m.isLt; have := d.isLt; have := a.isLt; have := b.isLt; have := f.isLt
  rw [wordC, bit_toNat, packR_toNat, decide_eq_false_iff_not]; omega

@[simp] theorem wordMajor_packR (m d a b : BitVec 6) (f : BitVec 7) :
    wordMajor (packR m d a b f) = m := by
  have := m.isLt; have := d.isLt; have := a.isLt; have := b.isLt; have := f.isLt
  apply BitVec.eq_of_toNat_eq; rw [wordMajor, extract_toNat, packR_toNat]; omega

@[simp] theorem wordD_packR (m d a b : BitVec 6) (f : BitVec 7) :
    wordD (packR m d a b f) = d := by
  have := m.isLt; have := d.isLt; have := a.isLt; have := b.isLt; have := f.isLt
  apply BitVec.eq_of_toNat_eq; rw [wordD, extract_toNat, packR_toNat]; omega

@[simp] theorem wordA_packR (m d a b : BitVec 6) (f : BitVec 7) :
    wordA (packR m d a b f) = a := by
  have := m.isLt; have := d.isLt; have := a.isLt; have := b.isLt; have := f.isLt
  apply BitVec.eq_of_toNat_eq; rw [wordA, extract_toNat, packR_toNat]; omega

@[simp] theorem wordB_packR (m d a b : BitVec 6) (f : BitVec 7) :
    wordB (packR m d a b f) = b := by
  have := m.isLt; have := d.isLt; have := a.isLt; have := b.isLt; have := f.isLt
  apply BitVec.eq_of_toNat_eq; rw [wordB, extract_toNat, packR_toNat]; omega

@[simp] theorem wordF_packR (m d a b : BitVec 6) (f : BitVec 7) :
    wordF (packR m d a b f) = f := by
  have := m.isLt; have := d.isLt; have := a.isLt; have := b.isLt; have := f.isLt
  apply BitVec.eq_of_toNat_eq; rw [wordF, extract_toNat, packR_toNat]; omega

theorem packI_toNat (m d a : BitVec 6) (i : BitVec 13) :
    (packI m d a i).toNat = m.toNat * 2 ^ 25 + (d.toNat * 2 ^ 19 + a.toNat * 2 ^ 13 + i.toNat) := by
  have := m.isLt; have := d.isLt; have := a.isLt; have := i.isLt
  simp only [packI, packMajor, BitVec.toNat_ofNat]; simp; try omega

@[simp] theorem wordC_packI (m d a : BitVec 6) (i : BitVec 13) :
    wordC (packI m d a i) = false := by
  have := m.isLt; have := d.isLt; have := a.isLt; have := i.isLt
  rw [wordC, bit_toNat, packI_toNat, decide_eq_false_iff_not]; omega

@[simp] theorem wordMajor_packI (m d a : BitVec 6) (i : BitVec 13) :
    wordMajor (packI m d a i) = m := by
  have := m.isLt; have := d.isLt; have := a.isLt; have := i.isLt
  apply BitVec.eq_of_toNat_eq; rw [wordMajor, extract_toNat, packI_toNat]; omega

@[simp] theorem wordD_packI (m d a : BitVec 6) (i : BitVec 13) :
    wordD (packI m d a i) = d := by
  have := m.isLt; have := d.isLt; have := a.isLt; have := i.isLt
  apply BitVec.eq_of_toNat_eq; rw [wordD, extract_toNat, packI_toNat]; omega

@[simp] theorem wordA_packI (m d a : BitVec 6) (i : BitVec 13) :
    wordA (packI m d a i) = a := by
  have := m.isLt; have := d.isLt; have := a.isLt; have := i.isLt
  apply BitVec.eq_of_toNat_eq; rw [wordA, extract_toNat, packI_toNat]; omega

@[simp] theorem wordI13_packI (m d a : BitVec 6) (i : BitVec 13) :
    wordI13 (packI m d a i) = i := by
  have := m.isLt; have := d.isLt; have := a.isLt; have := i.isLt
  apply BitVec.eq_of_toNat_eq; rw [wordI13, extract_toNat, packI_toNat]; omega

theorem packU_toNat (m d : BitVec 6) (i : BitVec 19) :
    (packU m d i).toNat = m.toNat * 2 ^ 25 + (d.toNat * 2 ^ 19 + i.toNat) := by
  have := m.isLt; have := d.isLt; have := i.isLt
  simp only [packU, packMajor, BitVec.toNat_ofNat]; simp; try omega

@[simp] theorem wordC_packU (m d : BitVec 6) (i : BitVec 19) :
    wordC (packU m d i) = false := by
  have := m.isLt; have := d.isLt; have := i.isLt
  rw [wordC, bit_toNat, packU_toNat, decide_eq_false_iff_not]; omega

@[simp] theorem wordMajor_packU (m d : BitVec 6) (i : BitVec 19) :
    wordMajor (packU m d i) = m := by
  have := m.isLt; have := d.isLt; have := i.isLt
  apply BitVec.eq_of_toNat_eq; rw [wordMajor, extract_toNat, packU_toNat]; omega

@[simp] theorem wordD_packU (m d : BitVec 6) (i : BitVec 19) :
    wordD (packU m d i) = d := by
  have := m.isLt; have := d.isLt; have := i.isLt
  apply BitVec.eq_of_toNat_eq; rw [wordD, extract_toNat, packU_toNat]; omega

@[simp] theorem wordI19_packU (m d : BitVec 6) (i : BitVec 19) :
    wordI19 (packU m d i) = i := by
  have := m.isLt; have := d.isLt; have := i.isLt
  apply BitVec.eq_of_toNat_eq; rw [wordI19, extract_toNat, packU_toNat]; omega

theorem packShi_toNat (d a : BitVec 6) (k : BitVec 2) (h : BitVec 6) :
    (packShi d a k h).toNat = 8 * 2 ^ 25 + (d.toNat * 2 ^ 19 + a.toNat * 2 ^ 13 + k.toNat * 2 ^ 11 + h.toNat) := by
  have := d.isLt; have := a.isLt; have := k.isLt; have := h.isLt
  simp only [packShi, packMajor, BitVec.toNat_ofNat]; simp; try omega

@[simp] theorem wordC_packShi (d a : BitVec 6) (k : BitVec 2) (h : BitVec 6) :
    wordC (packShi d a k h) = false := by
  have := d.isLt; have := a.isLt; have := k.isLt; have := h.isLt
  rw [wordC, bit_toNat, packShi_toNat, decide_eq_false_iff_not]; omega

@[simp] theorem wordMajor_packShi (d a : BitVec 6) (k : BitVec 2) (h : BitVec 6) :
    wordMajor (packShi d a k h) = 8#6 := by
  have := d.isLt; have := a.isLt; have := k.isLt; have := h.isLt
  apply BitVec.eq_of_toNat_eq; rw [wordMajor, extract_toNat, packShi_toNat]; simp; omega

@[simp] theorem wordD_packShi (d a : BitVec 6) (k : BitVec 2) (h : BitVec 6) :
    wordD (packShi d a k h) = d := by
  have := d.isLt; have := a.isLt; have := k.isLt; have := h.isLt
  apply BitVec.eq_of_toNat_eq; rw [wordD, extract_toNat, packShi_toNat]; omega

@[simp] theorem wordA_packShi (d a : BitVec 6) (k : BitVec 2) (h : BitVec 6) :
    wordA (packShi d a k h) = a := by
  have := d.isLt; have := a.isLt; have := k.isLt; have := h.isLt
  apply BitVec.eq_of_toNat_eq; rw [wordA, extract_toNat, packShi_toNat]; omega

@[simp] theorem packShi_11_2 (d a : BitVec 6) (k : BitVec 2) (h : BitVec 6) :
    (packShi d a k h).extractLsb' 11 2 = k := by
  have := d.isLt; have := a.isLt; have := k.isLt; have := h.isLt
  apply BitVec.eq_of_toNat_eq; rw [extract_toNat, packShi_toNat]; omega

@[simp] theorem packShi_6_5 (d a : BitVec 6) (k : BitVec 2) (h : BitVec 6) :
    (packShi d a k h).extractLsb' 6 5 = 0#5 := by
  have := d.isLt; have := a.isLt; have := k.isLt; have := h.isLt
  apply BitVec.eq_of_toNat_eq; rw [extract_toNat, packShi_toNat]; simp; omega

@[simp] theorem packShi_0_6 (d a : BitVec 6) (k : BitVec 2) (h : BitVec 6) :
    (packShi d a k h).extractLsb' 0 6 = h := by
  have := d.isLt; have := a.isLt; have := k.isLt; have := h.isLt
  apply BitVec.eq_of_toNat_eq; rw [extract_toNat, packShi_toNat]; omega

theorem packCsr_toNat (d a : BitVec 6) (k : BitVec 2) (n : BitVec 11) :
    (packCsr d a k n).toNat = 51 * 2 ^ 25 + (d.toNat * 2 ^ 19 + a.toNat * 2 ^ 13 + k.toNat * 2 ^ 11 + n.toNat) := by
  have := d.isLt; have := a.isLt; have := k.isLt; have := n.isLt
  simp only [packCsr, packMajor, BitVec.toNat_ofNat]; simp; try omega

@[simp] theorem wordC_packCsr (d a : BitVec 6) (k : BitVec 2) (n : BitVec 11) :
    wordC (packCsr d a k n) = false := by
  have := d.isLt; have := a.isLt; have := k.isLt; have := n.isLt
  rw [wordC, bit_toNat, packCsr_toNat, decide_eq_false_iff_not]; omega

@[simp] theorem wordMajor_packCsr (d a : BitVec 6) (k : BitVec 2) (n : BitVec 11) :
    wordMajor (packCsr d a k n) = 51#6 := by
  have := d.isLt; have := a.isLt; have := k.isLt; have := n.isLt
  apply BitVec.eq_of_toNat_eq; rw [wordMajor, extract_toNat, packCsr_toNat]; simp; omega

@[simp] theorem wordD_packCsr (d a : BitVec 6) (k : BitVec 2) (n : BitVec 11) :
    wordD (packCsr d a k n) = d := by
  have := d.isLt; have := a.isLt; have := k.isLt; have := n.isLt
  apply BitVec.eq_of_toNat_eq; rw [wordD, extract_toNat, packCsr_toNat]; omega

@[simp] theorem wordA_packCsr (d a : BitVec 6) (k : BitVec 2) (n : BitVec 11) :
    wordA (packCsr d a k n) = a := by
  have := d.isLt; have := a.isLt; have := k.isLt; have := n.isLt
  apply BitVec.eq_of_toNat_eq; rw [wordA, extract_toNat, packCsr_toNat]; omega

@[simp] theorem packCsr_11_2 (d a : BitVec 6) (k : BitVec 2) (n : BitVec 11) :
    (packCsr d a k n).extractLsb' 11 2 = k := by
  have := d.isLt; have := a.isLt; have := k.isLt; have := n.isLt
  apply BitVec.eq_of_toNat_eq; rw [extract_toNat, packCsr_toNat]; omega

@[simp] theorem packCsr_0_11 (d a : BitVec 6) (k : BitVec 2) (n : BitVec 11) :
    (packCsr d a k n).extractLsb' 0 11 = n := by
  have := d.isLt; have := a.isLt; have := k.isLt; have := n.isLt
  apply BitVec.eq_of_toNat_eq; rw [extract_toNat, packCsr_toNat]; omega

theorem packM_toNat (d a b : BitVec 6) (r : BitVec 4) (f : BitVec 3) :
    (packM d a b r f).toNat = 42 * 2 ^ 25 + (d.toNat * 2 ^ 19 + a.toNat * 2 ^ 13 + b.toNat * 2 ^ 7 + r.toNat * 2 ^ 3 + f.toNat) := by
  have := d.isLt; have := a.isLt; have := b.isLt; have := r.isLt; have := f.isLt
  simp only [packM, packMajor, BitVec.toNat_ofNat]; simp; try omega

@[simp] theorem wordC_packM (d a b : BitVec 6) (r : BitVec 4) (f : BitVec 3) :
    wordC (packM d a b r f) = false := by
  have := d.isLt; have := a.isLt; have := b.isLt; have := r.isLt; have := f.isLt
  rw [wordC, bit_toNat, packM_toNat, decide_eq_false_iff_not]; omega

@[simp] theorem wordMajor_packM (d a b : BitVec 6) (r : BitVec 4) (f : BitVec 3) :
    wordMajor (packM d a b r f) = 42#6 := by
  have := d.isLt; have := a.isLt; have := b.isLt; have := r.isLt; have := f.isLt
  apply BitVec.eq_of_toNat_eq; rw [wordMajor, extract_toNat, packM_toNat]; simp; omega

@[simp] theorem wordD_packM (d a b : BitVec 6) (r : BitVec 4) (f : BitVec 3) :
    wordD (packM d a b r f) = d := by
  have := d.isLt; have := a.isLt; have := b.isLt; have := r.isLt; have := f.isLt
  apply BitVec.eq_of_toNat_eq; rw [wordD, extract_toNat, packM_toNat]; omega

@[simp] theorem wordA_packM (d a b : BitVec 6) (r : BitVec 4) (f : BitVec 3) :
    wordA (packM d a b r f) = a := by
  have := d.isLt; have := a.isLt; have := b.isLt; have := r.isLt; have := f.isLt
  apply BitVec.eq_of_toNat_eq; rw [wordA, extract_toNat, packM_toNat]; omega

@[simp] theorem wordB_packM (d a b : BitVec 6) (r : BitVec 4) (f : BitVec 3) :
    wordB (packM d a b r f) = b := by
  have := d.isLt; have := a.isLt; have := b.isLt; have := r.isLt; have := f.isLt
  apply BitVec.eq_of_toNat_eq; rw [wordB, extract_toNat, packM_toNat]; omega

@[simp] theorem packM_3_4 (d a b : BitVec 6) (r : BitVec 4) (f : BitVec 3) :
    (packM d a b r f).extractLsb' 3 4 = r := by
  have := d.isLt; have := a.isLt; have := b.isLt; have := r.isLt; have := f.isLt
  apply BitVec.eq_of_toNat_eq; rw [extract_toNat, packM_toNat]; omega

@[simp] theorem packM_0_3 (d a b : BitVec 6) (r : BitVec 4) (f : BitVec 3) :
    (packM d a b r f).extractLsb' 0 3 = f := by
  have := d.isLt; have := a.isLt; have := b.isLt; have := r.isLt; have := f.isLt
  apply BitVec.eq_of_toNat_eq; rw [extract_toNat, packM_toNat]; omega

@[simp] theorem packR_0_5 (m d a b : BitVec 6) (f : BitVec 7) :
    (packR m d a b f).extractLsb' 0 5 = f.extractLsb' 0 5 := by
  have := m.isLt; have := d.isLt; have := a.isLt; have := b.isLt; have := f.isLt
  apply BitVec.eq_of_toNat_eq; rw [extract_toNat, extract_toNat, packR_toNat]; omega

@[simp] theorem packR_6_1 (m d a b : BitVec 6) (f : BitVec 7) :
    (packR m d a b f).extractLsb' 6 1 = f.extractLsb' 6 1 := by
  have := m.isLt; have := d.isLt; have := a.isLt; have := b.isLt; have := f.isLt
  apply BitVec.eq_of_toNat_eq; rw [extract_toNat, extract_toNat, packR_toNat]; omega

@[simp] theorem packR_3_4 (m d a b : BitVec 6) (f : BitVec 7) :
    (packR m d a b f).extractLsb' 3 4 = f.extractLsb' 3 4 := by
  have := m.isLt; have := d.isLt; have := a.isLt; have := b.isLt; have := f.isLt
  apply BitVec.eq_of_toNat_eq; rw [extract_toNat, extract_toNat, packR_toNat]; omega

@[simp] theorem packR_0_3 (m d a b : BitVec 6) (f : BitVec 7) :
    (packR m d a b f).extractLsb' 0 3 = f.extractLsb' 0 3 := by
  have := m.isLt; have := d.isLt; have := a.isLt; have := b.isLt; have := f.isLt
  apply BitVec.eq_of_toNat_eq; rw [extract_toNat, extract_toNat, packR_toNat]; omega

theorem packR_bit5 (m d a b : BitVec 6) (f : BitVec 7) :
    (packR m d a b f).getLsbD 5 = f.getLsbD 5 := by
  have := m.isLt; have := d.isLt; have := a.isLt; have := b.isLt; have := f.isLt
  rw [bit_toNat, bit_toNat, packR_toNat]; congr 1; apply propext; constructor <;> intro <;> omega

theorem packV_toNat (c : Bool) (m d a b : BitVec 6) (k : Bool) (f : BitVec 6) :
    (packV c m d a b k f).toNat = c.toNat * 2 ^ 31 + m.toNat * 2 ^ 25 + d.toNat * 2 ^ 19 + a.toNat * 2 ^ 13 + b.toNat * 2 ^ 7 +
      k.toNat * 2 ^ 6 + f.toNat := by
  have := m.isLt; have := d.isLt; have := a.isLt; have := b.isLt; have := f.isLt; have := Bool.toNat_le c; have := Bool.toNat_le k
  simp only [packV, BitVec.toNat_ofNat]; omega

@[simp] theorem wordMajor_packV (c : Bool) (m d a b : BitVec 6) (k : Bool) (f : BitVec 6) :
    wordMajor (packV c m d a b k f) = m := by
  have := m.isLt; have := d.isLt; have := a.isLt; have := b.isLt; have := f.isLt; have := Bool.toNat_le c; have := Bool.toNat_le k
  apply BitVec.eq_of_toNat_eq; rw [wordMajor, extract_toNat, packV_toNat]; omega

@[simp] theorem wordD_packV (c : Bool) (m d a b : BitVec 6) (k : Bool) (f : BitVec 6) :
    wordD (packV c m d a b k f) = d := by
  have := m.isLt; have := d.isLt; have := a.isLt; have := b.isLt; have := f.isLt; have := Bool.toNat_le c; have := Bool.toNat_le k
  apply BitVec.eq_of_toNat_eq; rw [wordD, extract_toNat, packV_toNat]; omega

@[simp] theorem wordA_packV (c : Bool) (m d a b : BitVec 6) (k : Bool) (f : BitVec 6) :
    wordA (packV c m d a b k f) = a := by
  have := m.isLt; have := d.isLt; have := a.isLt; have := b.isLt; have := f.isLt; have := Bool.toNat_le c; have := Bool.toNat_le k
  apply BitVec.eq_of_toNat_eq; rw [wordA, extract_toNat, packV_toNat]; omega

@[simp] theorem wordB_packV (c : Bool) (m d a b : BitVec 6) (k : Bool) (f : BitVec 6) :
    wordB (packV c m d a b k f) = b := by
  have := m.isLt; have := d.isLt; have := a.isLt; have := b.isLt; have := f.isLt; have := Bool.toNat_le c; have := Bool.toNat_le k
  apply BitVec.eq_of_toNat_eq; rw [wordB, extract_toNat, packV_toNat]; omega

@[simp] theorem wordF6_packV (c : Bool) (m d a b : BitVec 6) (k : Bool) (f : BitVec 6) :
    wordF6 (packV c m d a b k f) = f := by
  have := m.isLt; have := d.isLt; have := a.isLt; have := b.isLt; have := f.isLt; have := Bool.toNat_le c; have := Bool.toNat_le k
  apply BitVec.eq_of_toNat_eq; rw [wordF6, extract_toNat, packV_toNat]; omega

@[simp] theorem wordC_packV (c : Bool) (m d a b : BitVec 6) (k : Bool) (f : BitVec 6) :
    wordC (packV c m d a b k f) = c := by
  have := m.isLt; have := d.isLt; have := a.isLt; have := b.isLt; have := f.isLt; have := Bool.toNat_le c; have := Bool.toNat_le k
  rw [wordC, bit_toNat, packV_toNat]; cases c <;> cases k <;> simp <;> omega

@[simp] theorem wordK_packV (c : Bool) (m d a b : BitVec 6) (k : Bool) (f : BitVec 6) :
    wordK (packV c m d a b k f) = k := by
  have := m.isLt; have := d.isLt; have := a.isLt; have := b.isLt; have := f.isLt; have := Bool.toNat_le c; have := Bool.toNat_le k
  rw [wordK, bit_toNat, packV_toNat]; cases c <;> cases k <;> simp <;> omega

theorem packL_toNat (l : Fin 6) (n : BitVec 5) (c : Bool) (r : BitVec 16) :
    (packL l n c r).toNat = 30 * 2 ^ 25 + (l.val * 2 ^ 22 + n.toNat * 2 ^ 17 + c.toNat * 2 ^ 16 + r.toNat) := by
  have := l.isLt; have := n.isLt; have := r.isLt; have := Bool.toNat_le c
  simp only [packL, packMajor, BitVec.toNat_ofNat]; simp; omega

@[simp] theorem wordC_packL (l : Fin 6) (n : BitVec 5) (c : Bool) (r : BitVec 16) :
    wordC (packL l n c r) = false := by
  have := l.isLt; have := n.isLt; have := r.isLt; have := Bool.toNat_le c
  rw [wordC, bit_toNat, packL_toNat, decide_eq_false_iff_not]; omega

@[simp] theorem wordMajor_packL (l : Fin 6) (n : BitVec 5) (c : Bool) (r : BitVec 16) :
    wordMajor (packL l n c r) = 30#6 := by
  have := l.isLt; have := n.isLt; have := r.isLt; have := Bool.toNat_le c
  apply BitVec.eq_of_toNat_eq; rw [wordMajor, extract_toNat, packL_toNat]; simp; omega

@[simp] theorem packL_22_3 (l : Fin 6) (n : BitVec 5) (c : Bool) (r : BitVec 16) :
    (packL l n c r).extractLsb' 22 3 = BitVec.ofNat 3 l.val := by
  have := l.isLt; have := n.isLt; have := r.isLt; have := Bool.toNat_le c
  apply BitVec.eq_of_toNat_eq; rw [extract_toNat, packL_toNat]; simp; omega

@[simp] theorem packL_17_5 (l : Fin 6) (n : BitVec 5) (c : Bool) (r : BitVec 16) :
    (packL l n c r).extractLsb' 17 5 = n := by
  have := l.isLt; have := n.isLt; have := r.isLt; have := Bool.toNat_le c
  apply BitVec.eq_of_toNat_eq; rw [extract_toNat, packL_toNat]; omega

@[simp] theorem packL_16_1 (l : Fin 6) (n : BitVec 5) (c : Bool) (r : BitVec 16) :
    (packL l n c r).extractLsb' 16 1 = BitVec.ofNat 1 c.toNat := by
  have := l.isLt; have := n.isLt; have := r.isLt; have := Bool.toNat_le c
  apply BitVec.eq_of_toNat_eq; rw [extract_toNat, packL_toNat]; simp; omega

@[simp] theorem packL_0_16 (l : Fin 6) (n : BitVec 5) (c : Bool) (r : BitVec 16) :
    (packL l n c r).extractLsb' 0 16 = r := by
  have := l.isLt; have := n.isLt; have := r.isLt; have := Bool.toNat_le c
  apply BitVec.eq_of_toNat_eq; rw [extract_toNat, packL_toNat]; omega

@[simp] theorem packL_10_6 (l : Fin 6) (n : BitVec 5) (c : Bool) (r : BitVec 16) :
    (packL l n c r).extractLsb' 10 6 = r.extractLsb' 10 6 := by
  have := l.isLt; have := n.isLt; have := r.isLt; have := Bool.toNat_le c
  apply BitVec.eq_of_toNat_eq; rw [extract_toNat, packL_toNat, extract_toNat]; omega

@[simp] theorem packL_0_10 (l : Fin 6) (n : BitVec 5) (c : Bool) (r : BitVec 16) :
    (packL l n c r).extractLsb' 0 10 = r.extractLsb' 0 10 := by
  have := l.isLt; have := n.isLt; have := r.isLt; have := Bool.toNat_le c
  apply BitVec.eq_of_toNat_eq; rw [extract_toNat, packL_toNat, extract_toNat]; omega

theorem packVset_toNat (d a : BitVec 6) (rnd : Fin 5) (vfmt : Fin 3) (sp : Fin 5) (sc : Fin 7) (sew : Fin 3) :
    (packVset d a rnd vfmt sp sc sew).toNat = 35 * 2 ^ 25 + (d.toNat * 2 ^ 19 + a.toNat * 2 ^ 13 + rnd.val * 2 ^ 10 + vfmt.val * 2 ^ 8 +
      sp.val * 2 ^ 5 + sc.val * 2 ^ 2 + sew.val) := by
  have := d.isLt; have := a.isLt; have := rnd.isLt; have := vfmt.isLt; have := sp.isLt; have := sc.isLt; have := sew.isLt
  simp only [packVset, packMajor, BitVec.toNat_ofNat]; simp; omega

@[simp] theorem wordC_packVset (d a : BitVec 6) (rnd : Fin 5) (vfmt : Fin 3) (sp : Fin 5) (sc : Fin 7) (sew : Fin 3) :
    wordC (packVset d a rnd vfmt sp sc sew) = false := by
  have := d.isLt; have := a.isLt; have := rnd.isLt; have := vfmt.isLt; have := sp.isLt; have := sc.isLt; have := sew.isLt
  rw [wordC, bit_toNat, packVset_toNat, decide_eq_false_iff_not]; omega

@[simp] theorem wordMajor_packVset (d a : BitVec 6) (rnd : Fin 5) (vfmt : Fin 3) (sp : Fin 5) (sc : Fin 7) (sew : Fin 3) :
    wordMajor (packVset d a rnd vfmt sp sc sew) = 35#6 := by
  have := d.isLt; have := a.isLt; have := rnd.isLt; have := vfmt.isLt; have := sp.isLt; have := sc.isLt; have := sew.isLt
  apply BitVec.eq_of_toNat_eq; rw [wordMajor, extract_toNat, packVset_toNat]; simp; omega

@[simp] theorem wordD_packVset (d a : BitVec 6) (rnd : Fin 5) (vfmt : Fin 3) (sp : Fin 5) (sc : Fin 7) (sew : Fin 3) :
    wordD (packVset d a rnd vfmt sp sc sew) = d := by
  have := d.isLt; have := a.isLt; have := rnd.isLt; have := vfmt.isLt; have := sp.isLt; have := sc.isLt; have := sew.isLt
  apply BitVec.eq_of_toNat_eq; rw [wordD, extract_toNat, packVset_toNat]; omega

@[simp] theorem wordA_packVset (d a : BitVec 6) (rnd : Fin 5) (vfmt : Fin 3) (sp : Fin 5) (sc : Fin 7) (sew : Fin 3) :
    wordA (packVset d a rnd vfmt sp sc sew) = a := by
  have := d.isLt; have := a.isLt; have := rnd.isLt; have := vfmt.isLt; have := sp.isLt; have := sc.isLt; have := sew.isLt
  apply BitVec.eq_of_toNat_eq; rw [wordA, extract_toNat, packVset_toNat]; omega

@[simp] theorem packVset_10_3 (d a : BitVec 6) (rnd : Fin 5) (vfmt : Fin 3) (sp : Fin 5) (sc : Fin 7) (sew : Fin 3) :
    (packVset d a rnd vfmt sp sc sew).extractLsb' 10 3 = BitVec.ofNat 3 rnd.val := by
  have := d.isLt; have := a.isLt; have := rnd.isLt; have := vfmt.isLt; have := sp.isLt; have := sc.isLt; have := sew.isLt
  apply BitVec.eq_of_toNat_eq; rw [extract_toNat, packVset_toNat]; simp; omega

@[simp] theorem packVset_8_2 (d a : BitVec 6) (rnd : Fin 5) (vfmt : Fin 3) (sp : Fin 5) (sc : Fin 7) (sew : Fin 3) :
    (packVset d a rnd vfmt sp sc sew).extractLsb' 8 2 = BitVec.ofNat 2 vfmt.val := by
  have := d.isLt; have := a.isLt; have := rnd.isLt; have := vfmt.isLt; have := sp.isLt; have := sc.isLt; have := sew.isLt
  apply BitVec.eq_of_toNat_eq; rw [extract_toNat, packVset_toNat]; simp; omega

@[simp] theorem packVset_5_3 (d a : BitVec 6) (rnd : Fin 5) (vfmt : Fin 3) (sp : Fin 5) (sc : Fin 7) (sew : Fin 3) :
    (packVset d a rnd vfmt sp sc sew).extractLsb' 5 3 = BitVec.ofNat 3 sp.val := by
  have := d.isLt; have := a.isLt; have := rnd.isLt; have := vfmt.isLt; have := sp.isLt; have := sc.isLt; have := sew.isLt
  apply BitVec.eq_of_toNat_eq; rw [extract_toNat, packVset_toNat]; simp; omega

@[simp] theorem packVset_2_3 (d a : BitVec 6) (rnd : Fin 5) (vfmt : Fin 3) (sp : Fin 5) (sc : Fin 7) (sew : Fin 3) :
    (packVset d a rnd vfmt sp sc sew).extractLsb' 2 3 = BitVec.ofNat 3 sc.val := by
  have := d.isLt; have := a.isLt; have := rnd.isLt; have := vfmt.isLt; have := sp.isLt; have := sc.isLt; have := sew.isLt
  apply BitVec.eq_of_toNat_eq; rw [extract_toNat, packVset_toNat]; simp; omega

@[simp] theorem packVset_0_2 (d a : BitVec 6) (rnd : Fin 5) (vfmt : Fin 3) (sp : Fin 5) (sc : Fin 7) (sew : Fin 3) :
    (packVset d a rnd vfmt sp sc sew).extractLsb' 0 2 = BitVec.ofNat 2 sew.val := by
  have := d.isLt; have := a.isLt; have := rnd.isLt; have := vfmt.isLt; have := sp.isLt; have := sc.isLt; have := sew.isLt
  apply BitVec.eq_of_toNat_eq; rw [extract_toNat, packVset_toNat]; simp; omega

@[simp] theorem packR_get5 (m d a b : BitVec 6) (f : BitVec 7) : (packR m d a b f)[5] = f[5] := by
  rw [← BitVec.getLsbD_eq_getElem, ← BitVec.getLsbD_eq_getElem, packR_bit5]

theorem packL_bit16 (l : Fin 6) (n : BitVec 5) (c : Bool) (r : BitVec 16) : (packL l n c r).getLsbD 16 = c := by
  have := l.isLt; have := n.isLt; have := r.isLt
  rw [bit_toNat, packL_toNat]; cases c <;> simp <;> omega

theorem ramoF_3_4 (op : BitVec 3) : (BitVec.ofNat 7 (16 + op.toNat)).extractLsb' 3 4 = 2#4 := by
  have := op.isLt
  apply BitVec.eq_of_toNat_eq; rw [extract_toNat]; simp only [BitVec.toNat_ofNat]; omega

theorem ramoF_0_3 (op : BitVec 3) : (BitVec.ofNat 7 (16 + op.toNat)).extractLsb' 0 3 = op := by
  have := op.isLt
  apply BitVec.eq_of_toNat_eq; rw [extract_toNat]; simp only [BitVec.toNat_ofNat]; omega

theorem fieldBelow_ofNat {n w : Nat} (h : n ≤ 2 ^ w) (e : DecodeError) (r : Fin n) :
    fieldBelow n e (BitVec.ofNat w r.val) = .ok r := by
  have := r.isLt
  have h1 : (BitVec.ofNat w r.val).toNat = r.val := by simp only [BitVec.toNat_ofNat]; exact Nat.mod_eq_of_lt (by omega)
  simp [fieldBelow, h1]

theorem loopRest_10_6 (a : SReg) : (BitVec.ofNat 16 (a.val * 2 ^ 10)).extractLsb' 10 6 = encReg a := by
  have := a.isLt
  apply BitVec.eq_of_toNat_eq; rw [extract_toNat, encReg]; simp only [BitVec.toNat_ofNat]; omega

theorem loopRest_0_10 (a : SReg) : (BitVec.ofNat 16 (a.val * 2 ^ 10)).extractLsb' 0 10 = 0#10 := by
  have := a.isLt
  apply BitVec.eq_of_toNat_eq; rw [extract_toNat]; simp only [BitVec.toNat_ofNat]; omega

/-! ### Register fields -/

theorem encReg_toNat {n : Nat} (h : n ≤ 64) (r : Fin n) : (encReg r).toNat = r.val := by
  have := r.isLt
  simp only [encReg, BitVec.toNat_ofNat]; omega

@[simp] theorem fieldS_encReg (r : SReg) : fieldS (encReg r) = .ok r := by
  have h := encReg_toNat (by decide) r
  have := r.isLt
  simp [fieldS, h]

@[simp] theorem fieldM_encReg (r : MReg) : fieldM (encReg r) = .ok r := by
  have h := encReg_toNat (by decide) r
  have := r.isLt
  simp [fieldM, h]

@[simp] theorem fieldW_encReg (r : RReg) : fieldW (encReg r) = .ok r := by
  have h := encReg_toNat (by decide) r
  have := r.isLt
  simp [fieldW, h]

@[simp] theorem fieldV_encReg (r : VReg) : fieldV (encReg r) = r := by
  apply Fin.ext
  exact encReg_toNat (by decide) r

theorem fieldBelow_encReg {n : Nat} (h : n ≤ 64) (e : DecodeError) (r : Fin n) : fieldBelow n e (encReg r) = .ok r := by
  have h1 := encReg_toNat h r
  have := r.isLt
  simp [fieldBelow, h1]

@[simp] theorem fieldVS_enc (b : VSrc) : fieldVS (encK b) (encB b) = .ok b := by
  cases b <;> simp [fieldVS, encK, encB, Except.map]

@[simp] theorem unusedZero_zero {w : Nat} (i : Instr) : unusedZero (0#w) i = .ok i := by simp [unusedZero]

@[simp] theorem bind_ok {α β : Type} (x : α) (f : α → Except DecodeError β) : (Except.ok x : Except DecodeError α).bind f = f x := rfl

/-! ### The major of a word -/

theorem decode_Sys (w : IWord) (h : wordMajor w = 0#6) (hc : wordC w = false) : decode w = decodeSys w := by
  unfold decode; rw [h, hc]; rfl

theorem decode_Alu (w : IWord) (h : wordMajor w = 1#6) (hc : wordC w = false) : decode w = decodeAlu w := by
  unfold decode; rw [h, hc]; rfl

theorem decode_Shi (w : IWord) (h : wordMajor w = 8#6) (hc : wordC w = false) : decode w = decodeShi w := by
  unfold decode; rw [h, hc]; rfl

theorem decode_Loop (w : IWord) (h : wordMajor w = 30#6) (hc : wordC w = false) : decode w = decodeLoop w := by
  unfold decode; rw [h, hc]; rfl

theorem decode_Atom (w : IWord) (h : wordMajor w = 31#6) (hc : wordC w = false) : decode w = decodeAtom w := by
  unfold decode; rw [h, hc]; rfl

theorem decode_Sync (w : IWord) (h : wordMajor w = 32#6) (hc : wordC w = false) : decode w = decodeSync w := by
  unfold decode; rw [h, hc]; rfl

theorem decode_Task (w : IWord) (h : wordMajor w = 33#6) (hc : wordC w = false) : decode w = decodeTask w := by
  unfold decode; rw [h, hc]; rfl

theorem decode_Fe (w : IWord) (h : wordMajor w = 34#6) (hc : wordC w = false) : decode w = decodeFe w := by
  unfold decode; rw [h, hc]; rfl

theorem decode_Vset (w : IWord) (h : wordMajor w = 35#6) (hc : wordC w = false) : decode w = decodeVset w := by
  unfold decode; rw [h, hc]; rfl

theorem decode_Vint (w : IWord) (h : wordMajor w = 36#6) : decode w = decodeVint w := by
  unfold decode; rw [h, show convoyMajor 36#6 = true from rfl]; simp

theorem decode_Vflt (w : IWord) (h : wordMajor w = 37#6) : decode w = decodeVflt w := by
  unfold decode; rw [h, show convoyMajor 37#6 = true from rfl]; simp

theorem decode_Vperm (w : IWord) (h : wordMajor w = 38#6) : decode w = decodeVperm w := by
  unfold decode; rw [h, show convoyMajor 38#6 = true from rfl]; simp

theorem decode_Vcmp (w : IWord) (h : wordMajor w = 39#6) : decode w = decodeVcmp w := by
  unfold decode; rw [h, show convoyMajor 39#6 = true from rfl]; simp

theorem decode_Mask (w : IWord) (h : wordMajor w = 40#6) : decode w = decodeMask w := by
  unfold decode; rw [h, show convoyMajor 40#6 = true from rfl]; simp

theorem decode_Vmem (w : IWord) (h : wordMajor w = 41#6) : decode w = decodeVmem w := by
  unfold decode; rw [h, show convoyMajor 41#6 = true from rfl]; simp

theorem decode_Mtx (w : IWord) (h : wordMajor w = 42#6) (hc : wordC w = false) : decode w = decodeMtx w := by
  unfold decode; rw [h, hc]; rfl

theorem decode_Ring (w : IWord) (h : wordMajor w = 43#6) (hc : wordC w = false) : decode w = decodeRing w := by
  unfold decode; rw [h, hc]; rfl

theorem decode_Cpy (w : IWord) (h : wordMajor w = 44#6) (hc : wordC w = false) : decode w = decodeCpy w := by
  unfold decode; rw [h, hc]; rfl

theorem decode_Route (w : IWord) (h : wordMajor w = 45#6) (hc : wordC w = false) : decode w = decodeRoute w := by
  unfold decode; rw [h, hc]; rfl

theorem decode_Remote (w : IWord) (h : wordMajor w = 46#6) (hc : wordC w = false) : decode w = decodeRemote w := by
  unfold decode; rw [h, hc]; rfl

theorem decode_Lease (w : IWord) (h : wordMajor w = 47#6) (hc : wordC w = false) : decode w = decodeLease w := by
  unfold decode; rw [h, hc]; rfl

theorem decode_Group (w : IWord) (h : wordMajor w = 48#6) (hc : wordC w = false) : decode w = decodeGroup w := by
  unfold decode; rw [h, hc]; rfl

theorem decode_Sf (w : IWord) (h : wordMajor w = 49#6) : decode w = decodeSf w := by
  unfold decode; rw [h, show convoyMajor 49#6 = true from rfl]; simp

theorem decode_Mplane (w : IWord) (h : wordMajor w = 50#6) (hc : wordC w = false) : decode w = decodeMplane w := by
  unfold decode; rw [h, hc]; rfl

theorem decode_Csr (w : IWord) (h : wordMajor w = 51#6) (hc : wordC w = false) : decode w = decodeCsr w := by
  unfold decode; rw [h, hc]; rfl

theorem decode_major2 (w : IWord) (h : wordMajor w = 2#6) (hc : wordC w = false) :
    decode w = (fieldS (wordD w)).bind fun d => (fieldS (wordA w)).bind fun a => .ok (.addi d a (wordI13 w)) := by
  unfold decode; rw [h, hc]; rfl

theorem decode_major3 (w : IWord) (h : wordMajor w = 3#6) (hc : wordC w = false) :
    decode w = (fieldS (wordD w)).bind fun d => (fieldS (wordA w)).bind fun a => .ok (.andi d a (wordI13 w)) := by
  unfold decode; rw [h, hc]; rfl

theorem decode_major4 (w : IWord) (h : wordMajor w = 4#6) (hc : wordC w = false) :
    decode w = (fieldS (wordD w)).bind fun d => (fieldS (wordA w)).bind fun a => .ok (.ori d a (wordI13 w)) := by
  unfold decode; rw [h, hc]; rfl

theorem decode_major5 (w : IWord) (h : wordMajor w = 5#6) (hc : wordC w = false) :
    decode w = (fieldS (wordD w)).bind fun d => (fieldS (wordA w)).bind fun a => .ok (.xori d a (wordI13 w)) := by
  unfold decode; rw [h, hc]; rfl

theorem decode_major6 (w : IWord) (h : wordMajor w = 6#6) (hc : wordC w = false) :
    decode w = (fieldS (wordD w)).bind fun d => (fieldS (wordA w)).bind fun a => .ok (.slti d a (wordI13 w)) := by
  unfold decode; rw [h, hc]; rfl

theorem decode_major7 (w : IWord) (h : wordMajor w = 7#6) (hc : wordC w = false) :
    decode w = (fieldS (wordD w)).bind fun d => (fieldS (wordA w)).bind fun a => .ok (.sltiu d a (wordI13 w)) := by
  unfold decode; rw [h, hc]; rfl

theorem decode_major9 (w : IWord) (h : wordMajor w = 9#6) (hc : wordC w = false) :
    decode w = (fieldS (wordD w)).bind fun d => .ok (.lui d (wordI19 w)) := by
  unfold decode; rw [h, hc]; rfl

theorem decode_major10 (w : IWord) (h : wordMajor w = 10#6) (hc : wordC w = false) :
    decode w = (fieldS (wordD w)).bind fun d => .ok (.addpc d (wordI19 w)) := by
  unfold decode; rw [h, hc]; rfl

theorem decode_major11 (w : IWord) (h : wordMajor w = 11#6) (hc : wordC w = false) :
    decode w = (fieldS (wordD w)).bind fun d => (fieldS (wordA w)).bind fun a => .ok (.ldb d a (wordI13 w)) := by
  unfold decode; rw [h, hc]; rfl

theorem decode_major12 (w : IWord) (h : wordMajor w = 12#6) (hc : wordC w = false) :
    decode w = (fieldS (wordD w)).bind fun d => (fieldS (wordA w)).bind fun a => .ok (.ldbu d a (wordI13 w)) := by
  unfold decode; rw [h, hc]; rfl

theorem decode_major13 (w : IWord) (h : wordMajor w = 13#6) (hc : wordC w = false) :
    decode w = (fieldS (wordD w)).bind fun d => (fieldS (wordA w)).bind fun a => .ok (.ldh d a (wordI13 w)) := by
  unfold decode; rw [h, hc]; rfl

theorem decode_major14 (w : IWord) (h : wordMajor w = 14#6) (hc : wordC w = false) :
    decode w = (fieldS (wordD w)).bind fun d => (fieldS (wordA w)).bind fun a => .ok (.ldhu d a (wordI13 w)) := by
  unfold decode; rw [h, hc]; rfl

theorem decode_major15 (w : IWord) (h : wordMajor w = 15#6) (hc : wordC w = false) :
    decode w = (fieldS (wordD w)).bind fun d => (fieldS (wordA w)).bind fun a => .ok (.ldw d a (wordI13 w)) := by
  unfold decode; rw [h, hc]; rfl

theorem decode_major16 (w : IWord) (h : wordMajor w = 16#6) (hc : wordC w = false) :
    decode w = (fieldS (wordD w)).bind fun d => (fieldS (wordA w)).bind fun a => .ok (.ldwu d a (wordI13 w)) := by
  unfold decode; rw [h, hc]; rfl

theorem decode_major17 (w : IWord) (h : wordMajor w = 17#6) (hc : wordC w = false) :
    decode w = (fieldS (wordD w)).bind fun d => (fieldS (wordA w)).bind fun a => .ok (.ldd d a (wordI13 w)) := by
  unfold decode; rw [h, hc]; rfl

theorem decode_major18 (w : IWord) (h : wordMajor w = 18#6) (hc : wordC w = false) :
    decode w = (fieldS (wordD w)).bind fun b => (fieldS (wordA w)).bind fun a => .ok (.stb b a (wordI13 w)) := by
  unfold decode; rw [h, hc]; rfl

theorem decode_major19 (w : IWord) (h : wordMajor w = 19#6) (hc : wordC w = false) :
    decode w = (fieldS (wordD w)).bind fun b => (fieldS (wordA w)).bind fun a => .ok (.sth b a (wordI13 w)) := by
  unfold decode; rw [h, hc]; rfl

theorem decode_major20 (w : IWord) (h : wordMajor w = 20#6) (hc : wordC w = false) :
    decode w = (fieldS (wordD w)).bind fun b => (fieldS (wordA w)).bind fun a => .ok (.stw b a (wordI13 w)) := by
  unfold decode; rw [h, hc]; rfl

theorem decode_major21 (w : IWord) (h : wordMajor w = 21#6) (hc : wordC w = false) :
    decode w = (fieldS (wordD w)).bind fun b => (fieldS (wordA w)).bind fun a => .ok (.std b a (wordI13 w)) := by
  unfold decode; rw [h, hc]; rfl

theorem decode_major22 (w : IWord) (h : wordMajor w = 22#6) (hc : wordC w = false) :
    decode w = (fieldS (wordD w)).bind fun b => (fieldS (wordA w)).bind fun a => .ok (.beq b a (wordI13 w)) := by
  unfold decode; rw [h, hc]; rfl

theorem decode_major23 (w : IWord) (h : wordMajor w = 23#6) (hc : wordC w = false) :
    decode w = (fieldS (wordD w)).bind fun b => (fieldS (wordA w)).bind fun a => .ok (.bne b a (wordI13 w)) := by
  unfold decode; rw [h, hc]; rfl

theorem decode_major24 (w : IWord) (h : wordMajor w = 24#6) (hc : wordC w = false) :
    decode w = (fieldS (wordD w)).bind fun b => (fieldS (wordA w)).bind fun a => .ok (.blt b a (wordI13 w)) := by
  unfold decode; rw [h, hc]; rfl

theorem decode_major25 (w : IWord) (h : wordMajor w = 25#6) (hc : wordC w = false) :
    decode w = (fieldS (wordD w)).bind fun b => (fieldS (wordA w)).bind fun a => .ok (.bge b a (wordI13 w)) := by
  unfold decode; rw [h, hc]; rfl

theorem decode_major26 (w : IWord) (h : wordMajor w = 26#6) (hc : wordC w = false) :
    decode w = (fieldS (wordD w)).bind fun b => (fieldS (wordA w)).bind fun a => .ok (.bltu b a (wordI13 w)) := by
  unfold decode; rw [h, hc]; rfl

theorem decode_major27 (w : IWord) (h : wordMajor w = 27#6) (hc : wordC w = false) :
    decode w = (fieldS (wordD w)).bind fun b => (fieldS (wordA w)).bind fun a => .ok (.bgeu b a (wordI13 w)) := by
  unfold decode; rw [h, hc]; rfl

theorem decode_major28 (w : IWord) (h : wordMajor w = 28#6) (hc : wordC w = false) :
    decode w = (fieldS (wordD w)).bind fun d => .ok (.jal d (wordI19 w)) := by
  unfold decode; rw [h, hc]; rfl

theorem decode_major29 (w : IWord) (h : wordMajor w = 29#6) (hc : wordC w = false) :
    decode w = (fieldS (wordD w)).bind fun d => (fieldS (wordA w)).bind fun a => .ok (.jalr d a (wordI13 w)) := by
  unfold decode; rw [h, hc]; rfl

end Sys2Proof.Laws
end

