-- ==== Sys2Proof/Laws/PerInstr.lean ====
section
/-!
SUPPORT. The round trip of every instruction: its word decodes to it, with every operand at every value (R103 to R105).
-/

set_option Elab.async false

namespace Sys2Proof.Laws.Encoding

set_option linter.unusedSimpArgs false

/-- What is said of every constructor: the word of a well-formed instruction decodes to that instruction. -/
def Statement (i : Instr) : Prop := i.wf = true → ∀ w, encode i = some w → decode w = .ok i

theorem trap (a : SReg) : Statement (.trap a) := by
  intro _ w e; obtain rfl := Option.some.inj e
  rw [decode_Sys _ (by simp) (by simp)]
  simp [decodeSys]
theorem slotw (a : SReg) (b : SReg) : Statement (.slotw a b) := by
  intro _ w e; obtain rfl := Option.some.inj e
  rw [decode_Sys _ (by simp) (by simp)]
  simp [decodeSys]
theorem add (d : SReg) (a : SReg) (b : SReg) : Statement (.add d a b) := by
  intro _ w e; obtain rfl := Option.some.inj e
  rw [decode_Alu _ (by simp) (by simp)]
  simp [decodeAlu]
theorem sub (d : SReg) (a : SReg) (b : SReg) : Statement (.sub d a b) := by
  intro _ w e; obtain rfl := Option.some.inj e
  rw [decode_Alu _ (by simp) (by simp)]
  simp [decodeAlu]
theorem and (d : SReg) (a : SReg) (b : SReg) : Statement (.and d a b) := by
  intro _ w e; obtain rfl := Option.some.inj e
  rw [decode_Alu _ (by simp) (by simp)]
  simp [decodeAlu]
theorem or (d : SReg) (a : SReg) (b : SReg) : Statement (.or d a b) := by
  intro _ w e; obtain rfl := Option.some.inj e
  rw [decode_Alu _ (by simp) (by simp)]
  simp [decodeAlu]
theorem xor (d : SReg) (a : SReg) (b : SReg) : Statement (.xor d a b) := by
  intro _ w e; obtain rfl := Option.some.inj e
  rw [decode_Alu _ (by simp) (by simp)]
  simp [decodeAlu]
theorem sll (d : SReg) (a : SReg) (b : SReg) : Statement (.sll d a b) := by
  intro _ w e; obtain rfl := Option.some.inj e
  rw [decode_Alu _ (by simp) (by simp)]
  simp [decodeAlu]
theorem srl (d : SReg) (a : SReg) (b : SReg) : Statement (.srl d a b) := by
  intro _ w e; obtain rfl := Option.some.inj e
  rw [decode_Alu _ (by simp) (by simp)]
  simp [decodeAlu]
theorem sra (d : SReg) (a : SReg) (b : SReg) : Statement (.sra d a b) := by
  intro _ w e; obtain rfl := Option.some.inj e
  rw [decode_Alu _ (by simp) (by simp)]
  simp [decodeAlu]
theorem slt (d : SReg) (a : SReg) (b : SReg) : Statement (.slt d a b) := by
  intro _ w e; obtain rfl := Option.some.inj e
  rw [decode_Alu _ (by simp) (by simp)]
  simp [decodeAlu]
theorem sltu (d : SReg) (a : SReg) (b : SReg) : Statement (.sltu d a b) := by
  intro _ w e; obtain rfl := Option.some.inj e
  rw [decode_Alu _ (by simp) (by simp)]
  simp [decodeAlu]
theorem mul (d : SReg) (a : SReg) (b : SReg) : Statement (.mul d a b) := by
  intro _ w e; obtain rfl := Option.some.inj e
  rw [decode_Alu _ (by simp) (by simp)]
  simp [decodeAlu]
theorem mulh (d : SReg) (a : SReg) (b : SReg) : Statement (.mulh d a b) := by
  intro _ w e; obtain rfl := Option.some.inj e
  rw [decode_Alu _ (by simp) (by simp)]
  simp [decodeAlu]
theorem mulhu (d : SReg) (a : SReg) (b : SReg) : Statement (.mulhu d a b) := by
  intro _ w e; obtain rfl := Option.some.inj e
  rw [decode_Alu _ (by simp) (by simp)]
  simp [decodeAlu]
theorem div (d : SReg) (a : SReg) (b : SReg) : Statement (.div d a b) := by
  intro _ w e; obtain rfl := Option.some.inj e
  rw [decode_Alu _ (by simp) (by simp)]
  simp [decodeAlu]
theorem divu (d : SReg) (a : SReg) (b : SReg) : Statement (.divu d a b) := by
  intro _ w e; obtain rfl := Option.some.inj e
  rw [decode_Alu _ (by simp) (by simp)]
  simp [decodeAlu]
theorem rem (d : SReg) (a : SReg) (b : SReg) : Statement (.rem d a b) := by
  intro _ w e; obtain rfl := Option.some.inj e
  rw [decode_Alu _ (by simp) (by simp)]
  simp [decodeAlu]
theorem remu (d : SReg) (a : SReg) (b : SReg) : Statement (.remu d a b) := by
  intro _ w e; obtain rfl := Option.some.inj e
  rw [decode_Alu _ (by simp) (by simp)]
  simp [decodeAlu]
theorem min (d : SReg) (a : SReg) (b : SReg) : Statement (.min d a b) := by
  intro _ w e; obtain rfl := Option.some.inj e
  rw [decode_Alu _ (by simp) (by simp)]
  simp [decodeAlu]
theorem max (d : SReg) (a : SReg) (b : SReg) : Statement (.max d a b) := by
  intro _ w e; obtain rfl := Option.some.inj e
  rw [decode_Alu _ (by simp) (by simp)]
  simp [decodeAlu]
theorem minu (d : SReg) (a : SReg) (b : SReg) : Statement (.minu d a b) := by
  intro _ w e; obtain rfl := Option.some.inj e
  rw [decode_Alu _ (by simp) (by simp)]
  simp [decodeAlu]
theorem maxu (d : SReg) (a : SReg) (b : SReg) : Statement (.maxu d a b) := by
  intro _ w e; obtain rfl := Option.some.inj e
  rw [decode_Alu _ (by simp) (by simp)]
  simp [decodeAlu]
theorem clz (d : SReg) (a : SReg) : Statement (.clz d a) := by
  intro _ w e; obtain rfl := Option.some.inj e
  rw [decode_Alu _ (by simp) (by simp)]
  simp [decodeAlu]
theorem ctz (d : SReg) (a : SReg) : Statement (.ctz d a) := by
  intro _ w e; obtain rfl := Option.some.inj e
  rw [decode_Alu _ (by simp) (by simp)]
  simp [decodeAlu]
theorem popc (d : SReg) (a : SReg) : Statement (.popc d a) := by
  intro _ w e; obtain rfl := Option.some.inj e
  rw [decode_Alu _ (by simp) (by simp)]
  simp [decodeAlu]
theorem addi (d : SReg) (a : SReg) (imm : BitVec 13) : Statement (.addi d a imm) := by
  intro _ w e; obtain rfl := Option.some.inj e
  rw [decode_major2 _ (by simp) (by simp)]; simp
theorem andi (d : SReg) (a : SReg) (imm : BitVec 13) : Statement (.andi d a imm) := by
  intro _ w e; obtain rfl := Option.some.inj e
  rw [decode_major3 _ (by simp) (by simp)]; simp
theorem ori (d : SReg) (a : SReg) (imm : BitVec 13) : Statement (.ori d a imm) := by
  intro _ w e; obtain rfl := Option.some.inj e
  rw [decode_major4 _ (by simp) (by simp)]; simp
theorem xori (d : SReg) (a : SReg) (imm : BitVec 13) : Statement (.xori d a imm) := by
  intro _ w e; obtain rfl := Option.some.inj e
  rw [decode_major5 _ (by simp) (by simp)]; simp
theorem slti (d : SReg) (a : SReg) (imm : BitVec 13) : Statement (.slti d a imm) := by
  intro _ w e; obtain rfl := Option.some.inj e
  rw [decode_major6 _ (by simp) (by simp)]; simp
theorem sltiu (d : SReg) (a : SReg) (imm : BitVec 13) : Statement (.sltiu d a imm) := by
  intro _ w e; obtain rfl := Option.some.inj e
  rw [decode_major7 _ (by simp) (by simp)]; simp
theorem slli (d : SReg) (a : SReg) (sh : BitVec 6) : Statement (.slli d a sh) := by
  intro _ w e; obtain rfl := Option.some.inj e
  rw [decode_Shi _ (by simp) (by simp)]
  simp [decodeShi]
theorem srli (d : SReg) (a : SReg) (sh : BitVec 6) : Statement (.srli d a sh) := by
  intro _ w e; obtain rfl := Option.some.inj e
  rw [decode_Shi _ (by simp) (by simp)]
  simp [decodeShi]
theorem srai (d : SReg) (a : SReg) (sh : BitVec 6) : Statement (.srai d a sh) := by
  intro _ w e; obtain rfl := Option.some.inj e
  rw [decode_Shi _ (by simp) (by simp)]
  simp [decodeShi]
theorem lui (d : SReg) (imm : BitVec 19) : Statement (.lui d imm) := by
  intro _ w e; obtain rfl := Option.some.inj e
  rw [decode_major9 _ (by simp) (by simp)]; simp
theorem addpc (d : SReg) (imm : BitVec 19) : Statement (.addpc d imm) := by
  intro _ w e; obtain rfl := Option.some.inj e
  rw [decode_major10 _ (by simp) (by simp)]; simp
theorem ldb (d : SReg) (a : SReg) (imm : BitVec 13) : Statement (.ldb d a imm) := by
  intro _ w e; obtain rfl := Option.some.inj e
  rw [decode_major11 _ (by simp) (by simp)]; simp
theorem ldbu (d : SReg) (a : SReg) (imm : BitVec 13) : Statement (.ldbu d a imm) := by
  intro _ w e; obtain rfl := Option.some.inj e
  rw [decode_major12 _ (by simp) (by simp)]; simp
theorem ldh (d : SReg) (a : SReg) (imm : BitVec 13) : Statement (.ldh d a imm) := by
  intro _ w e; obtain rfl := Option.some.inj e
  rw [decode_major13 _ (by simp) (by simp)]; simp
theorem ldhu (d : SReg) (a : SReg) (imm : BitVec 13) : Statement (.ldhu d a imm) := by
  intro _ w e; obtain rfl := Option.some.inj e
  rw [decode_major14 _ (by simp) (by simp)]; simp
theorem ldw (d : SReg) (a : SReg) (imm : BitVec 13) : Statement (.ldw d a imm) := by
  intro _ w e; obtain rfl := Option.some.inj e
  rw [decode_major15 _ (by simp) (by simp)]; simp
theorem ldwu (d : SReg) (a : SReg) (imm : BitVec 13) : Statement (.ldwu d a imm) := by
  intro _ w e; obtain rfl := Option.some.inj e
  rw [decode_major16 _ (by simp) (by simp)]; simp
theorem ldd (d : SReg) (a : SReg) (imm : BitVec 13) : Statement (.ldd d a imm) := by
  intro _ w e; obtain rfl := Option.some.inj e
  rw [decode_major17 _ (by simp) (by simp)]; simp
theorem stb (b : SReg) (a : SReg) (imm : BitVec 13) : Statement (.stb b a imm) := by
  intro _ w e; obtain rfl := Option.some.inj e
  rw [decode_major18 _ (by simp) (by simp)]; simp
theorem sth (b : SReg) (a : SReg) (imm : BitVec 13) : Statement (.sth b a imm) := by
  intro _ w e; obtain rfl := Option.some.inj e
  rw [decode_major19 _ (by simp) (by simp)]; simp
theorem stw (b : SReg) (a : SReg) (imm : BitVec 13) : Statement (.stw b a imm) := by
  intro _ w e; obtain rfl := Option.some.inj e
  rw [decode_major20 _ (by simp) (by simp)]; simp
theorem std (b : SReg) (a : SReg) (imm : BitVec 13) : Statement (.std b a imm) := by
  intro _ w e; obtain rfl := Option.some.inj e
  rw [decode_major21 _ (by simp) (by simp)]; simp
theorem beq (b : SReg) (a : SReg) (imm : BitVec 13) : Statement (.beq b a imm) := by
  intro _ w e; obtain rfl := Option.some.inj e
  rw [decode_major22 _ (by simp) (by simp)]; simp
theorem bne (b : SReg) (a : SReg) (imm : BitVec 13) : Statement (.bne b a imm) := by
  intro _ w e; obtain rfl := Option.some.inj e
  rw [decode_major23 _ (by simp) (by simp)]; simp
theorem blt (b : SReg) (a : SReg) (imm : BitVec 13) : Statement (.blt b a imm) := by
  intro _ w e; obtain rfl := Option.some.inj e
  rw [decode_major24 _ (by simp) (by simp)]; simp
theorem bge (b : SReg) (a : SReg) (imm : BitVec 13) : Statement (.bge b a imm) := by
  intro _ w e; obtain rfl := Option.some.inj e
  rw [decode_major25 _ (by simp) (by simp)]; simp
theorem bltu (b : SReg) (a : SReg) (imm : BitVec 13) : Statement (.bltu b a imm) := by
  intro _ w e; obtain rfl := Option.some.inj e
  rw [decode_major26 _ (by simp) (by simp)]; simp
theorem bgeu (b : SReg) (a : SReg) (imm : BitVec 13) : Statement (.bgeu b a imm) := by
  intro _ w e; obtain rfl := Option.some.inj e
  rw [decode_major27 _ (by simp) (by simp)]; simp
theorem jal (d : SReg) (imm : BitVec 19) : Statement (.jal d imm) := by
  intro _ w e; obtain rfl := Option.some.inj e
  rw [decode_major28 _ (by simp) (by simp)]; simp
theorem jalr (d : SReg) (a : SReg) (imm : BitVec 13) : Statement (.jalr d a imm) := by
  intro _ w e; obtain rfl := Option.some.inj e
  rw [decode_major29 _ (by simp) (by simp)]; simp
theorem loopi (level : Fin 6) (len : BitVec 5) (count : BitVec 16) : Statement (.loopi level len count) := by
  intro _ w e; obtain rfl := Option.some.inj e
  rw [decode_Loop _ (by simp) (by simp)]
  unfold decodeLoop; rw [packL_bit16]
  show Except.bind _ _ = _
  rw [packL_22_3, packL_17_5, fieldBelow_ofNat (by decide : 6 ≤ 2 ^ 3), bind_ok, packL_0_16]
theorem loop (level : Fin 6) (len : BitVec 5) (a : SReg) : Statement (.loop level len a) := by
  intro _ w e; obtain rfl := Option.some.inj e
  rw [decode_Loop _ (by simp) (by simp)]
  unfold decodeLoop; rw [packL_bit16]
  show Except.bind _ _ = _
  rw [packL_22_3, packL_17_5, fieldBelow_ofNat (by decide : 6 ≤ 2 ^ 3), bind_ok, packL_10_6, packL_0_10, loopRest_10_6, loopRest_0_10,
    fieldS_encReg, bind_ok, unusedZero_zero]
theorem amoadd (d : SReg) (a : SReg) (b : SReg) (wide : Bool) : Statement (.amoadd d a b wide) := by
  intro _ w e; obtain rfl := Option.some.inj e
  rw [decode_Atom _ (by simp) (by simp)]
  cases wide <;> simp [decodeAtom]
theorem amoswap (d : SReg) (a : SReg) (b : SReg) (wide : Bool) : Statement (.amoswap d a b wide) := by
  intro _ w e; obtain rfl := Option.some.inj e
  rw [decode_Atom _ (by simp) (by simp)]
  cases wide <;> simp [decodeAtom]
theorem amocas (d : SReg) (a : SReg) (b : SReg) (wide : Bool) : Statement (.amocas d a b wide) := by
  intro _ w e; obtain rfl := Option.some.inj e
  rw [decode_Atom _ (by simp) (by simp)]
  cases wide <;> simp [decodeAtom]
theorem amomin (d : SReg) (a : SReg) (b : SReg) (wide : Bool) : Statement (.amomin d a b wide) := by
  intro _ w e; obtain rfl := Option.some.inj e
  rw [decode_Atom _ (by simp) (by simp)]
  cases wide <;> simp [decodeAtom]
theorem amomax (d : SReg) (a : SReg) (b : SReg) (wide : Bool) : Statement (.amomax d a b wide) := by
  intro _ w e; obtain rfl := Option.some.inj e
  rw [decode_Atom _ (by simp) (by simp)]
  cases wide <;> simp [decodeAtom]
theorem amominu (d : SReg) (a : SReg) (b : SReg) (wide : Bool) : Statement (.amominu d a b wide) := by
  intro _ w e; obtain rfl := Option.some.inj e
  rw [decode_Atom _ (by simp) (by simp)]
  cases wide <;> simp [decodeAtom]
theorem amomaxu (d : SReg) (a : SReg) (b : SReg) (wide : Bool) : Statement (.amomaxu d a b wide) := by
  intro _ w e; obtain rfl := Option.some.inj e
  rw [decode_Atom _ (by simp) (by simp)]
  cases wide <;> simp [decodeAtom]
theorem amoand (d : SReg) (a : SReg) (b : SReg) (wide : Bool) : Statement (.amoand d a b wide) := by
  intro _ w e; obtain rfl := Option.some.inj e
  rw [decode_Atom _ (by simp) (by simp)]
  cases wide <;> simp [decodeAtom]
theorem amoor (d : SReg) (a : SReg) (b : SReg) (wide : Bool) : Statement (.amoor d a b wide) := by
  intro _ w e; obtain rfl := Option.some.inj e
  rw [decode_Atom _ (by simp) (by simp)]
  cases wide <;> simp [decodeAtom]
theorem amoxor (d : SReg) (a : SReg) (b : SReg) (wide : Bool) : Statement (.amoxor d a b wide) := by
  intro _ w e; obtain rfl := Option.some.inj e
  rw [decode_Atom _ (by simp) (by simp)]
  cases wide <;> simp [decodeAtom]
theorem fence (scope : Fin 7) : Statement (.fence scope) := by
  intro _ w e; obtain rfl := Option.some.inj e
  rw [decode_Sync _ (by simp) (by simp)]
  simp [decodeSync, fieldBelow_encReg]
theorem fenceacq (scope : Fin 7) : Statement (.fenceacq scope) := by
  intro _ w e; obtain rfl := Option.some.inj e
  rw [decode_Sync _ (by simp) (by simp)]
  simp [decodeSync, fieldBelow_encReg]
theorem fencerel (scope : Fin 7) : Statement (.fencerel scope) := by
  intro _ w e; obtain rfl := Option.some.inj e
  rw [decode_Sync _ (by simp) (by simp)]
  simp [decodeSync, fieldBelow_encReg]
theorem fenceeng (scope : Fin 7) : Statement (.fenceeng scope) := by
  intro _ w e; obtain rfl := Option.some.inj e
  rw [decode_Sync _ (by simp) (by simp)]
  simp [decodeSync, fieldBelow_encReg]
theorem wfev (scope : Fin 7) : Statement (.wfev scope) := by
  intro _ w e; obtain rfl := Option.some.inj e
  rw [decode_Sync _ (by simp) (by simp)]
  simp [decodeSync, fieldBelow_encReg]
theorem take (d : SReg) : Statement (.take d) := by
  intro _ w e; obtain rfl := Option.some.inj e
  rw [decode_Task _ (by simp) (by simp)]
  simp [decodeTask]
theorem post (d : SReg) (a : SReg) : Statement (.post d a) := by
  intro _ w e; obtain rfl := Option.some.inj e
  rw [decode_Task _ (by simp) (by simp)]
  simp [decodeTask]
theorem postw (a : RReg) (b : SReg) : Statement (.postw a b) := by
  intro _ w e; obtain rfl := Option.some.inj e
  rw [decode_Task _ (by simp) (by simp)]
  simp [decodeTask]
theorem retire (a : SReg) : Statement (.retire a) := by
  intro _ w e; obtain rfl := Option.some.inj e
  rw [decode_Task _ (by simp) (by simp)]
  simp [decodeTask]
theorem wake (a : SReg) : Statement (.wake a) := by
  intro _ w e; obtain rfl := Option.some.inj e
  rw [decode_Task _ (by simp) (by simp)]
  simp [decodeTask]
theorem signal (d : SReg) (a : SReg) : Statement (.signal d a) := by
  intro _ w e; obtain rfl := Option.some.inj e
  rw [decode_Task _ (by simp) (by simp)]
  simp [decodeTask]
theorem recoat (a : SReg) (b : SReg) : Statement (.recoat a b) := by
  intro _ w e; obtain rfl := Option.some.inj e
  rw [decode_Task _ (by simp) (by simp)]
  simp [decodeTask]
theorem ldfull (d : SReg) (a : SReg) : Statement (.ldfull d a) := by
  intro _ w e; obtain rfl := Option.some.inj e
  rw [decode_Fe _ (by simp) (by simp)]
  simp [decodeFe]
theorem ldfullk (d : SReg) (a : SReg) : Statement (.ldfullk d a) := by
  intro _ w e; obtain rfl := Option.some.inj e
  rw [decode_Fe _ (by simp) (by simp)]
  simp [decodeFe]
theorem stfull (d : SReg) (a : SReg) : Statement (.stfull d a) := by
  intro _ w e; obtain rfl := Option.some.inj e
  rw [decode_Fe _ (by simp) (by simp)]
  simp [decodeFe]
theorem stfill (d : SReg) (a : SReg) : Statement (.stfill d a) := by
  intro _ w e; obtain rfl := Option.some.inj e
  rw [decode_Fe _ (by simp) (by simp)]
  simp [decodeFe]
theorem feclr (a : SReg) : Statement (.feclr a) := by
  intro _ w e; obtain rfl := Option.some.inj e
  rw [decode_Fe _ (by simp) (by simp)]
  simp [decodeFe]
theorem setvl (d : SReg) (a : SReg) (rnd : Fin 5) (vfmt : Fin 3) (space : Fin 5) (scope : Fin 7) (sew : Fin 3) : Statement (.setvl d a rnd vfmt space scope sew) := by
  intro _ w e; obtain rfl := Option.some.inj e
  rw [decode_Vset _ (by simp) (by simp)]
  simp [decodeVset, fieldBelow_ofNat]
theorem vadd (c : Bool) (d : VReg) (a : VReg) (b : VSrc) : Statement (.vadd c d a b) := by
  intro _ w e; obtain rfl := Option.some.inj e
  rw [decode_Vint _ (by simp)]
  simp [decodeVint]
theorem vsub (c : Bool) (d : VReg) (a : VReg) (b : VSrc) : Statement (.vsub c d a b) := by
  intro _ w e; obtain rfl := Option.some.inj e
  rw [decode_Vint _ (by simp)]
  simp [decodeVint]
theorem vrsub (c : Bool) (d : VReg) (a : VReg) (b : VSrc) : Statement (.vrsub c d a b) := by
  intro _ w e; obtain rfl := Option.some.inj e
  rw [decode_Vint _ (by simp)]
  simp [decodeVint]
theorem vmul (c : Bool) (d : VReg) (a : VReg) (b : VSrc) : Statement (.vmul c d a b) := by
  intro _ w e; obtain rfl := Option.some.inj e
  rw [decode_Vint _ (by simp)]
  simp [decodeVint]
theorem vmulh (c : Bool) (d : VReg) (a : VReg) (b : VSrc) : Statement (.vmulh c d a b) := by
  intro _ w e; obtain rfl := Option.some.inj e
  rw [decode_Vint _ (by simp)]
  simp [decodeVint]
theorem vmulhu (c : Bool) (d : VReg) (a : VReg) (b : VSrc) : Statement (.vmulhu c d a b) := by
  intro _ w e; obtain rfl := Option.some.inj e
  rw [decode_Vint _ (by simp)]
  simp [decodeVint]
theorem vmadd (c : Bool) (d : VReg) (a : VReg) (b : VSrc) : Statement (.vmadd c d a b) := by
  intro _ w e; obtain rfl := Option.some.inj e
  rw [decode_Vint _ (by simp)]
  simp [decodeVint]
theorem vmsub (c : Bool) (d : VReg) (a : VReg) (b : VSrc) : Statement (.vmsub c d a b) := by
  intro _ w e; obtain rfl := Option.some.inj e
  rw [decode_Vint _ (by simp)]
  simp [decodeVint]
theorem vdiv (c : Bool) (d : VReg) (a : VReg) (b : VSrc) : Statement (.vdiv c d a b) := by
  intro _ w e; obtain rfl := Option.some.inj e
  rw [decode_Vint _ (by simp)]
  simp [decodeVint]
theorem vdivu (c : Bool) (d : VReg) (a : VReg) (b : VSrc) : Statement (.vdivu c d a b) := by
  intro _ w e; obtain rfl := Option.some.inj e
  rw [decode_Vint _ (by simp)]
  simp [decodeVint]
theorem vrem (c : Bool) (d : VReg) (a : VReg) (b : VSrc) : Statement (.vrem c d a b) := by
  intro _ w e; obtain rfl := Option.some.inj e
  rw [decode_Vint _ (by simp)]
  simp [decodeVint]
theorem vremu (c : Bool) (d : VReg) (a : VReg) (b : VSrc) : Statement (.vremu c d a b) := by
  intro _ w e; obtain rfl := Option.some.inj e
  rw [decode_Vint _ (by simp)]
  simp [decodeVint]
theorem vmin (c : Bool) (d : VReg) (a : VReg) (b : VSrc) : Statement (.vmin c d a b) := by
  intro _ w e; obtain rfl := Option.some.inj e
  rw [decode_Vint _ (by simp)]
  simp [decodeVint]
theorem vmax (c : Bool) (d : VReg) (a : VReg) (b : VSrc) : Statement (.vmax c d a b) := by
  intro _ w e; obtain rfl := Option.some.inj e
  rw [decode_Vint _ (by simp)]
  simp [decodeVint]
theorem vminu (c : Bool) (d : VReg) (a : VReg) (b : VSrc) : Statement (.vminu c d a b) := by
  intro _ w e; obtain rfl := Option.some.inj e
  rw [decode_Vint _ (by simp)]
  simp [decodeVint]
theorem vmaxu (c : Bool) (d : VReg) (a : VReg) (b : VSrc) : Statement (.vmaxu c d a b) := by
  intro _ w e; obtain rfl := Option.some.inj e
  rw [decode_Vint _ (by simp)]
  simp [decodeVint]
theorem vand (c : Bool) (d : VReg) (a : VReg) (b : VSrc) : Statement (.vand c d a b) := by
  intro _ w e; obtain rfl := Option.some.inj e
  rw [decode_Vint _ (by simp)]
  simp [decodeVint]
theorem vor (c : Bool) (d : VReg) (a : VReg) (b : VSrc) : Statement (.vor c d a b) := by
  intro _ w e; obtain rfl := Option.some.inj e
  rw [decode_Vint _ (by simp)]
  simp [decodeVint]
theorem vxor (c : Bool) (d : VReg) (a : VReg) (b : VSrc) : Statement (.vxor c d a b) := by
  intro _ w e; obtain rfl := Option.some.inj e
  rw [decode_Vint _ (by simp)]
  simp [decodeVint]
theorem vsll (c : Bool) (d : VReg) (a : VReg) (b : VSrc) : Statement (.vsll c d a b) := by
  intro _ w e; obtain rfl := Option.some.inj e
  rw [decode_Vint _ (by simp)]
  simp [decodeVint]
theorem vsrl (c : Bool) (d : VReg) (a : VReg) (b : VSrc) : Statement (.vsrl c d a b) := by
  intro _ w e; obtain rfl := Option.some.inj e
  rw [decode_Vint _ (by simp)]
  simp [decodeVint]
theorem vsra (c : Bool) (d : VReg) (a : VReg) (b : VSrc) : Statement (.vsra c d a b) := by
  intro _ w e; obtain rfl := Option.some.inj e
  rw [decode_Vint _ (by simp)]
  simp [decodeVint]
theorem vsadd (c : Bool) (d : VReg) (a : VReg) (b : VSrc) : Statement (.vsadd c d a b) := by
  intro _ w e; obtain rfl := Option.some.inj e
  rw [decode_Vint _ (by simp)]
  simp [decodeVint]
theorem vsaddu (c : Bool) (d : VReg) (a : VReg) (b : VSrc) : Statement (.vsaddu c d a b) := by
  intro _ w e; obtain rfl := Option.some.inj e
  rw [decode_Vint _ (by simp)]
  simp [decodeVint]
theorem vssub (c : Bool) (d : VReg) (a : VReg) (b : VSrc) : Statement (.vssub c d a b) := by
  intro _ w e; obtain rfl := Option.some.inj e
  rw [decode_Vint _ (by simp)]
  simp [decodeVint]
theorem vssubu (c : Bool) (d : VReg) (a : VReg) (b : VSrc) : Statement (.vssubu c d a b) := by
  intro _ w e; obtain rfl := Option.some.inj e
  rw [decode_Vint _ (by simp)]
  simp [decodeVint]
theorem vmerge (c : Bool) (d : VReg) (a : VReg) (b : VSrc) : Statement (.vmerge c d a b) := by
  intro _ w e; obtain rfl := Option.some.inj e
  rw [decode_Vint _ (by simp)]
  simp [decodeVint]
theorem vmv (c : Bool) (d : VReg) (b : VSrc) : Statement (.vmv c d b) := by
  intro _ w e; obtain rfl := Option.some.inj e
  rw [decode_Vint _ (by simp)]
  simp [decodeVint]
theorem vabs (c : Bool) (d : VReg) (a : VReg) : Statement (.vabs c d a) := by
  intro _ w e; obtain rfl := Option.some.inj e
  rw [decode_Vint _ (by simp)]
  simp [decodeVint, noK]
theorem vclz (c : Bool) (d : VReg) (a : VReg) : Statement (.vclz c d a) := by
  intro _ w e; obtain rfl := Option.some.inj e
  rw [decode_Vint _ (by simp)]
  simp [decodeVint, noK]
theorem vpopc (c : Bool) (d : VReg) (a : VReg) : Statement (.vpopc c d a) := by
  intro _ w e; obtain rfl := Option.some.inj e
  rw [decode_Vint _ (by simp)]
  simp [decodeVint, noK]
theorem vfadd (c : Bool) (d : VReg) (a : VReg) (b : VSrc) : Statement (.vfadd c d a b) := by
  intro _ w e; obtain rfl := Option.some.inj e
  rw [decode_Vflt _ (by simp)]
  simp [decodeVflt]
theorem vfsub (c : Bool) (d : VReg) (a : VReg) (b : VSrc) : Statement (.vfsub c d a b) := by
  intro _ w e; obtain rfl := Option.some.inj e
  rw [decode_Vflt _ (by simp)]
  simp [decodeVflt]
theorem vfmul (c : Bool) (d : VReg) (a : VReg) (b : VSrc) : Statement (.vfmul c d a b) := by
  intro _ w e; obtain rfl := Option.some.inj e
  rw [decode_Vflt _ (by simp)]
  simp [decodeVflt]
theorem vfma (c : Bool) (d : VReg) (a : VReg) (b : VSrc) : Statement (.vfma c d a b) := by
  intro _ w e; obtain rfl := Option.some.inj e
  rw [decode_Vflt _ (by simp)]
  simp [decodeVflt]
theorem vfms (c : Bool) (d : VReg) (a : VReg) (b : VSrc) : Statement (.vfms c d a b) := by
  intro _ w e; obtain rfl := Option.some.inj e
  rw [decode_Vflt _ (by simp)]
  simp [decodeVflt]
theorem vfnma (c : Bool) (d : VReg) (a : VReg) (b : VSrc) : Statement (.vfnma c d a b) := by
  intro _ w e; obtain rfl := Option.some.inj e
  rw [decode_Vflt _ (by simp)]
  simp [decodeVflt]
theorem vfdiv (c : Bool) (d : VReg) (a : VReg) (b : VSrc) : Statement (.vfdiv c d a b) := by
  intro _ w e; obtain rfl := Option.some.inj e
  rw [decode_Vflt _ (by simp)]
  simp [decodeVflt]
theorem vfsqrt (c : Bool) (d : VReg) (a : VReg) : Statement (.vfsqrt c d a) := by
  intro _ w e; obtain rfl := Option.some.inj e
  rw [decode_Vflt _ (by simp)]
  simp [decodeVflt, noK]
theorem vfmin (c : Bool) (d : VReg) (a : VReg) (b : VSrc) : Statement (.vfmin c d a b) := by
  intro _ w e; obtain rfl := Option.some.inj e
  rw [decode_Vflt _ (by simp)]
  simp [decodeVflt]
theorem vfmax (c : Bool) (d : VReg) (a : VReg) (b : VSrc) : Statement (.vfmax c d a b) := by
  intro _ w e; obtain rfl := Option.some.inj e
  rw [decode_Vflt _ (by simp)]
  simp [decodeVflt]
theorem vfabs (c : Bool) (d : VReg) (a : VReg) : Statement (.vfabs c d a) := by
  intro _ w e; obtain rfl := Option.some.inj e
  rw [decode_Vflt _ (by simp)]
  simp [decodeVflt, noK]
theorem vfneg (c : Bool) (d : VReg) (a : VReg) : Statement (.vfneg c d a) := by
  intro _ w e; obtain rfl := Option.some.inj e
  rw [decode_Vflt _ (by simp)]
  simp [decodeVflt, noK]
theorem vfcvt (c : Bool) (d : VReg) (a : VReg) (f : Fin 32) : Statement (.vfcvt c d a f) := by
  intro _ w e; obtain rfl := Option.some.inj e
  rw [decode_Vflt _ (by simp)]
  simp [decodeVflt, noK, fieldBelow_encReg]
theorem vfcvti (c : Bool) (d : VReg) (a : VReg) : Statement (.vfcvti c d a) := by
  intro _ w e; obtain rfl := Option.some.inj e
  rw [decode_Vflt _ (by simp)]
  simp [decodeVflt, noK]
theorem vicvtf (c : Bool) (d : VReg) (a : VReg) : Statement (.vicvtf c d a) := by
  intro _ w e; obtain rfl := Option.some.inj e
  rw [decode_Vflt _ (by simp)]
  simp [decodeVflt, noK]
theorem vfclass (c : Bool) (d : VReg) (a : VReg) : Statement (.vfclass c d a) := by
  intro _ w e; obtain rfl := Option.some.inj e
  rw [decode_Vflt _ (by simp)]
  simp [decodeVflt, noK]
theorem vxchg (c : Bool) (d : VReg) (a : VReg) (k : Fin 9) : Statement (.vxchg c d a k) := by
  intro _ w e; obtain rfl := Option.some.inj e
  rw [decode_Vperm _ (by simp)]
  simp [decodeVperm, noK, fieldBelow_encReg]
theorem vslideup (c : Bool) (d : VReg) (a : VReg) (b : SReg) : Statement (.vslideup c d a b) := by
  intro _ w e; obtain rfl := Option.some.inj e
  rw [decode_Vperm _ (by simp)]
  simp [decodeVperm, onlyK]
theorem vslidedn (c : Bool) (d : VReg) (a : VReg) (b : SReg) : Statement (.vslidedn c d a b) := by
  intro _ w e; obtain rfl := Option.some.inj e
  rw [decode_Vperm _ (by simp)]
  simp [decodeVperm, onlyK]
theorem vslide1up (c : Bool) (d : VReg) (a : VReg) (b : SReg) : Statement (.vslide1up c d a b) := by
  intro _ w e; obtain rfl := Option.some.inj e
  rw [decode_Vperm _ (by simp)]
  simp [decodeVperm, onlyK]
theorem vslide1dn (c : Bool) (d : VReg) (a : VReg) (b : SReg) : Statement (.vslide1dn c d a b) := by
  intro _ w e; obtain rfl := Option.some.inj e
  rw [decode_Vperm _ (by simp)]
  simp [decodeVperm, onlyK]
theorem vgather (c : Bool) (d : VReg) (a : VReg) (b : VSrc) : Statement (.vgather c d a b) := by
  intro _ w e; obtain rfl := Option.some.inj e
  rw [decode_Vperm _ (by simp)]
  simp [decodeVperm]
theorem vcompress (c : Bool) (d : VReg) (a : VReg) : Statement (.vcompress c d a) := by
  intro _ w e; obtain rfl := Option.some.inj e
  rw [decode_Vperm _ (by simp)]
  simp [decodeVperm, noK]
theorem vextr (c : Bool) (d : SReg) (a : VReg) (b : SReg) : Statement (.vextr c d a b) := by
  intro _ w e; obtain rfl := Option.some.inj e
  rw [decode_Vperm _ (by simp)]
  simp [decodeVperm, onlyK]
theorem vinsr (c : Bool) (d : VReg) (a : SReg) (b : SReg) : Statement (.vinsr c d a b) := by
  intro _ w e; obtain rfl := Option.some.inj e
  rw [decode_Vperm _ (by simp)]
  simp [decodeVperm, onlyK]
theorem viota (c : Bool) (d : VReg) : Statement (.viota c d) := by
  intro _ w e; obtain rfl := Option.some.inj e
  rw [decode_Vperm _ (by simp)]
  simp [decodeVperm, noK]
theorem vredsum (c : Bool) (d : VReg) (a : VReg) (b : VSrc) : Statement (.vredsum c d a b) := by
  intro _ w e; obtain rfl := Option.some.inj e
  rw [decode_Vperm _ (by simp)]
  simp [decodeVperm]
theorem vredmin (c : Bool) (d : VReg) (a : VReg) (b : VSrc) : Statement (.vredmin c d a b) := by
  intro _ w e; obtain rfl := Option.some.inj e
  rw [decode_Vperm _ (by simp)]
  simp [decodeVperm]
theorem vredmax (c : Bool) (d : VReg) (a : VReg) (b : VSrc) : Statement (.vredmax c d a b) := by
  intro _ w e; obtain rfl := Option.some.inj e
  rw [decode_Vperm _ (by simp)]
  simp [decodeVperm]
theorem vredminu (c : Bool) (d : VReg) (a : VReg) (b : VSrc) : Statement (.vredminu c d a b) := by
  intro _ w e; obtain rfl := Option.some.inj e
  rw [decode_Vperm _ (by simp)]
  simp [decodeVperm]
theorem vredmaxu (c : Bool) (d : VReg) (a : VReg) (b : VSrc) : Statement (.vredmaxu c d a b) := by
  intro _ w e; obtain rfl := Option.some.inj e
  rw [decode_Vperm _ (by simp)]
  simp [decodeVperm]
theorem vredand (c : Bool) (d : VReg) (a : VReg) (b : VSrc) : Statement (.vredand c d a b) := by
  intro _ w e; obtain rfl := Option.some.inj e
  rw [decode_Vperm _ (by simp)]
  simp [decodeVperm]
theorem vredor (c : Bool) (d : VReg) (a : VReg) (b : VSrc) : Statement (.vredor c d a b) := by
  intro _ w e; obtain rfl := Option.some.inj e
  rw [decode_Vperm _ (by simp)]
  simp [decodeVperm]
theorem vredxor (c : Bool) (d : VReg) (a : VReg) (b : VSrc) : Statement (.vredxor c d a b) := by
  intro _ w e; obtain rfl := Option.some.inj e
  rw [decode_Vperm _ (by simp)]
  simp [decodeVperm]
theorem vfredsum (c : Bool) (d : VReg) (a : VReg) (b : VSrc) : Statement (.vfredsum c d a b) := by
  intro _ w e; obtain rfl := Option.some.inj e
  rw [decode_Vperm _ (by simp)]
  simp [decodeVperm]
theorem vscan (c : Bool) (d : VReg) (a : VReg) : Statement (.vscan c d a) := by
  intro _ w e; obtain rfl := Option.some.inj e
  rw [decode_Vperm _ (by simp)]
  simp [decodeVperm, noK]
theorem vceq (c : Bool) (d : MReg) (a : VReg) (b : VSrc) : Statement (.vceq c d a b) := by
  intro hw w e; obtain rfl := Option.some.inj e
  rw [decode_Vcmp _ (by simp)]
  simp_all [decodeVcmp, maskDest, Instr.wf]
theorem vcne (c : Bool) (d : MReg) (a : VReg) (b : VSrc) : Statement (.vcne c d a b) := by
  intro hw w e; obtain rfl := Option.some.inj e
  rw [decode_Vcmp _ (by simp)]
  simp_all [decodeVcmp, maskDest, Instr.wf]
theorem vclt (c : Bool) (d : MReg) (a : VReg) (b : VSrc) : Statement (.vclt c d a b) := by
  intro hw w e; obtain rfl := Option.some.inj e
  rw [decode_Vcmp _ (by simp)]
  simp_all [decodeVcmp, maskDest, Instr.wf]
theorem vcltu (c : Bool) (d : MReg) (a : VReg) (b : VSrc) : Statement (.vcltu c d a b) := by
  intro hw w e; obtain rfl := Option.some.inj e
  rw [decode_Vcmp _ (by simp)]
  simp_all [decodeVcmp, maskDest, Instr.wf]
theorem vcle (c : Bool) (d : MReg) (a : VReg) (b : VSrc) : Statement (.vcle c d a b) := by
  intro hw w e; obtain rfl := Option.some.inj e
  rw [decode_Vcmp _ (by simp)]
  simp_all [decodeVcmp, maskDest, Instr.wf]
theorem vcleu (c : Bool) (d : MReg) (a : VReg) (b : VSrc) : Statement (.vcleu c d a b) := by
  intro hw w e; obtain rfl := Option.some.inj e
  rw [decode_Vcmp _ (by simp)]
  simp_all [decodeVcmp, maskDest, Instr.wf]
theorem vcgt (c : Bool) (d : MReg) (a : VReg) (b : VSrc) : Statement (.vcgt c d a b) := by
  intro hw w e; obtain rfl := Option.some.inj e
  rw [decode_Vcmp _ (by simp)]
  simp_all [decodeVcmp, maskDest, Instr.wf]
theorem vcgtu (c : Bool) (d : MReg) (a : VReg) (b : VSrc) : Statement (.vcgtu c d a b) := by
  intro hw w e; obtain rfl := Option.some.inj e
  rw [decode_Vcmp _ (by simp)]
  simp_all [decodeVcmp, maskDest, Instr.wf]
theorem vfceq (c : Bool) (d : MReg) (a : VReg) (b : VSrc) : Statement (.vfceq c d a b) := by
  intro hw w e; obtain rfl := Option.some.inj e
  rw [decode_Vcmp _ (by simp)]
  simp_all [decodeVcmp, maskDest, Instr.wf]
theorem vfclt (c : Bool) (d : MReg) (a : VReg) (b : VSrc) : Statement (.vfclt c d a b) := by
  intro hw w e; obtain rfl := Option.some.inj e
  rw [decode_Vcmp _ (by simp)]
  simp_all [decodeVcmp, maskDest, Instr.wf]
theorem vfcle (c : Bool) (d : MReg) (a : VReg) (b : VSrc) : Statement (.vfcle c d a b) := by
  intro hw w e; obtain rfl := Option.some.inj e
  rw [decode_Vcmp _ (by simp)]
  simp_all [decodeVcmp, maskDest, Instr.wf]
theorem vfcun (c : Bool) (d : MReg) (a : VReg) (b : VSrc) : Statement (.vfcun c d a b) := by
  intro hw w e; obtain rfl := Option.some.inj e
  rw [decode_Vcmp _ (by simp)]
  simp_all [decodeVcmp, maskDest, Instr.wf]
theorem mand (c : Bool) (d : MReg) (a : MReg) (b : MReg) : Statement (.mand c d a b) := by
  intro hw w e; obtain rfl := Option.some.inj e
  rw [decode_Mask _ (by simp)]
  simp_all [decodeMask, noK, maskDest, Instr.wf]
theorem mor (c : Bool) (d : MReg) (a : MReg) (b : MReg) : Statement (.mor c d a b) := by
  intro hw w e; obtain rfl := Option.some.inj e
  rw [decode_Mask _ (by simp)]
  simp_all [decodeMask, noK, maskDest, Instr.wf]
theorem mxor (c : Bool) (d : MReg) (a : MReg) (b : MReg) : Statement (.mxor c d a b) := by
  intro hw w e; obtain rfl := Option.some.inj e
  rw [decode_Mask _ (by simp)]
  simp_all [decodeMask, noK, maskDest, Instr.wf]
theorem mandn (c : Bool) (d : MReg) (a : MReg) (b : MReg) : Statement (.mandn c d a b) := by
  intro hw w e; obtain rfl := Option.some.inj e
  rw [decode_Mask _ (by simp)]
  simp_all [decodeMask, noK, maskDest, Instr.wf]
theorem mnot (c : Bool) (d : MReg) (a : MReg) : Statement (.mnot c d a) := by
  intro hw w e; obtain rfl := Option.some.inj e
  rw [decode_Mask _ (by simp)]
  simp_all [decodeMask, noK, maskDest, Instr.wf]
theorem mpopc (c : Bool) (d : SReg) (a : MReg) : Statement (.mpopc c d a) := by
  intro _ w e; obtain rfl := Option.some.inj e
  rw [decode_Mask _ (by simp)]
  simp [decodeMask, noK]
theorem mfirst (c : Bool) (d : SReg) (a : MReg) : Statement (.mfirst c d a) := by
  intro _ w e; obtain rfl := Option.some.inj e
  rw [decode_Mask _ (by simp)]
  simp [decodeMask, noK]
theorem mskft (c : Bool) (d : MReg) (a : MReg) : Statement (.mskft c d a) := by
  intro hw w e; obtain rfl := Option.some.inj e
  rw [decode_Mask _ (by simp)]
  simp_all [decodeMask, noK, maskDest, Instr.wf]
theorem mskbf (c : Bool) (d : MReg) (a : MReg) : Statement (.mskbf c d a) := by
  intro hw w e; obtain rfl := Option.some.inj e
  rw [decode_Mask _ (by simp)]
  simp_all [decodeMask, noK, maskDest, Instr.wf]
theorem mfromv (c : Bool) (d : MReg) (a : VReg) : Statement (.mfromv c d a) := by
  intro hw w e; obtain rfl := Option.some.inj e
  rw [decode_Mask _ (by simp)]
  simp_all [decodeMask, noK, maskDest, Instr.wf]
theorem mtov (c : Bool) (d : VReg) (a : MReg) : Statement (.mtov c d a) := by
  intro _ w e; obtain rfl := Option.some.inj e
  rw [decode_Mask _ (by simp)]
  simp [decodeMask, noK]
theorem vld (c : Bool) (d : VReg) (a : SReg) : Statement (.vld c d a) := by
  intro _ w e; obtain rfl := Option.some.inj e
  rw [decode_Vmem _ (by simp)]
  simp [decodeVmem, noK]
theorem vldff (c : Bool) (d : VReg) (a : SReg) : Statement (.vldff c d a) := by
  intro _ w e; obtain rfl := Option.some.inj e
  rw [decode_Vmem _ (by simp)]
  simp [decodeVmem, noK]
theorem vldx (c : Bool) (d : VReg) (a : SReg) (b : VReg) : Statement (.vldx c d a b) := by
  intro _ w e; obtain rfl := Option.some.inj e
  rw [decode_Vmem _ (by simp)]
  simp [decodeVmem, noK]
theorem vst (c : Bool) (d : VReg) (a : SReg) : Statement (.vst c d a) := by
  intro _ w e; obtain rfl := Option.some.inj e
  rw [decode_Vmem _ (by simp)]
  simp [decodeVmem, noK]
theorem vstx (c : Bool) (d : VReg) (a : SReg) (b : VReg) : Statement (.vstx c d a b) := by
  intro _ w e; obtain rfl := Option.some.inj e
  rw [decode_Vmem _ (by simp)]
  simp [decodeVmem, noK]
theorem vldq (c : Bool) (d : VReg) (a : SReg) : Statement (.vldq c d a) := by
  intro _ w e; obtain rfl := Option.some.inj e
  rw [decode_Vmem _ (by simp)]
  simp [decodeVmem, noK]
theorem vstq (c : Bool) (d : VReg) (a : SReg) : Statement (.vstq c d a) := by
  intro _ w e; obtain rfl := Option.some.inj e
  rw [decode_Vmem _ (by simp)]
  simp [decodeVmem, noK]
theorem vldbc (c : Bool) (d : VReg) (a : SReg) : Statement (.vldbc c d a) := by
  intro _ w e; obtain rfl := Option.some.inj e
  rw [decode_Vmem _ (by simp)]
  simp [decodeVmem, noK]
theorem mma (d : SReg) (a : VReg) (b : VReg) (rep : BitVec 4) : Statement (.mma d a b rep) := by
  intro _ w e; obtain rfl := Option.some.inj e
  rw [decode_Mtx _ (by simp) (by simp)]
  simp [decodeMtx]
theorem mopa (d : SReg) (a : VReg) (b : VReg) (rep : BitVec 4) : Statement (.mopa d a b rep) := by
  intro _ w e; obtain rfl := Option.some.inj e
  rw [decode_Mtx _ (by simp) (by simp)]
  simp [decodeMtx]
theorem mslide (d : SReg) (a : VReg) (b : VReg) (rep : BitVec 4) : Statement (.mslide d a b rep) := by
  intro _ w e; obtain rfl := Option.some.inj e
  rw [decode_Mtx _ (by simp) (by simp)]
  simp [decodeMtx]
theorem mrdc (d : SReg) (a : VReg) (rep : BitVec 4) : Statement (.mrdc d a rep) := by
  intro _ w e; obtain rfl := Option.some.inj e
  rw [decode_Mtx _ (by simp) (by simp)]
  simp [decodeMtx]
theorem mzero (d : SReg) (rep : BitVec 4) : Statement (.mzero d rep) := by
  intro _ w e; obtain rfl := Option.some.inj e
  rw [decode_Mtx _ (by simp) (by simp)]
  simp [decodeMtx]
theorem mdrain (d : SReg) (rep : BitVec 4) : Statement (.mdrain d rep) := by
  intro _ w e; obtain rfl := Option.some.inj e
  rw [decode_Mtx _ (by simp) (by simp)]
  simp [decodeMtx]
theorem ringcfg (a : SReg) (b : SReg) : Statement (.ringcfg a b) := by
  intro _ w e; obtain rfl := Option.some.inj e
  rw [decode_Ring _ (by simp) (by simp)]
  simp [decodeRing]
theorem rwaitf (d : SReg) (a : SReg) (b : SReg) : Statement (.rwaitf d a b) := by
  intro _ w e; obtain rfl := Option.some.inj e
  rw [decode_Ring _ (by simp) (by simp)]
  simp [decodeRing]
theorem rwaite (d : SReg) (a : SReg) (b : SReg) : Statement (.rwaite d a b) := by
  intro _ w e; obtain rfl := Option.some.inj e
  rw [decode_Ring _ (by simp) (by simp)]
  simp [decodeRing]
theorem radvh (d : SReg) (a : SReg) (b : SReg) : Statement (.radvh d a b) := by
  intro _ w e; obtain rfl := Option.some.inj e
  rw [decode_Ring _ (by simp) (by simp)]
  simp [decodeRing]
theorem radvt (d : SReg) (a : SReg) (b : SReg) : Statement (.radvt d a b) := by
  intro _ w e; obtain rfl := Option.some.inj e
  rw [decode_Ring _ (by simp) (by simp)]
  simp [decodeRing]
theorem rstat (d : SReg) (a : SReg) : Statement (.rstat d a) := by
  intro _ w e; obtain rfl := Option.some.inj e
  rw [decode_Ring _ (by simp) (by simp)]
  simp [decodeRing]
theorem cpy (d : SReg) (a : SReg) : Statement (.cpy d a) := by
  intro _ w e; obtain rfl := Option.some.inj e
  rw [decode_Cpy _ (by simp) (by simp)]
  simp [decodeCpy]
theorem cpywait (d : SReg) (a : SReg) : Statement (.cpywait d a) := by
  intro _ w e; obtain rfl := Option.some.inj e
  rw [decode_Cpy _ (by simp) (by simp)]
  simp [decodeCpy]
theorem cpystat (d : SReg) (a : SReg) : Statement (.cpystat d a) := by
  intro _ w e; obtain rfl := Option.some.inj e
  rw [decode_Cpy _ (by simp) (by simp)]
  simp [decodeCpy]
theorem cpycan (d : SReg) (a : SReg) : Statement (.cpycan d a) := by
  intro _ w e; obtain rfl := Option.some.inj e
  rw [decode_Cpy _ (by simp) (by simp)]
  simp [decodeCpy]
theorem wld (d : RReg) (a : SReg) : Statement (.wld d a) := by
  intro _ w e; obtain rfl := Option.some.inj e
  rw [decode_Route _ (by simp) (by simp)]
  simp [decodeRoute]
theorem wst (d : RReg) (a : SReg) : Statement (.wst d a) := by
  intro _ w e; obtain rfl := Option.some.inj e
  rw [decode_Route _ (by simp) (by simp)]
  simp [decodeRoute]
theorem wnarrow (d : RReg) (a : RReg) (b : SReg) : Statement (.wnarrow d a b) := by
  intro _ w e; obtain rfl := Option.some.inj e
  rw [decode_Route _ (by simp) (by simp)]
  simp [decodeRoute]
theorem wdlg (d : RReg) (a : RReg) (b : SReg) : Statement (.wdlg d a b) := by
  intro _ w e; obtain rfl := Option.some.inj e
  rw [decode_Route _ (by simp) (by simp)]
  simp [decodeRoute]
theorem wstripe (d : RReg) (a : SReg) : Statement (.wstripe d a) := by
  intro _ w e; obtain rfl := Option.some.inj e
  rw [decode_Route _ (by simp) (by simp)]
  simp [decodeRoute]
theorem wclr (d : RReg) : Statement (.wclr d) := by
  intro _ w e; obtain rfl := Option.some.inj e
  rw [decode_Route _ (by simp) (by simp)]
  simp [decodeRoute]
theorem winfo (d : SReg) (a : RReg) (b : SReg) : Statement (.winfo d a b) := by
  intro _ w e; obtain rfl := Option.some.inj e
  rw [decode_Route _ (by simp) (by simp)]
  simp [decodeRoute]
theorem wmint (d : RReg) (a : SReg) : Statement (.wmint d a) := by
  intro _ w e; obtain rfl := Option.some.inj e
  rw [decode_Route _ (by simp) (by simp)]
  simp [decodeRoute]
theorem wgen (d : SReg) (a : SReg) : Statement (.wgen d a) := by
  intro _ w e; obtain rfl := Option.some.inj e
  rw [decode_Route _ (by simp) (by simp)]
  simp [decodeRoute]
theorem send (d : SReg) (a : RReg) (b : SReg) : Statement (.send d a b) := by
  intro _ w e; obtain rfl := Option.some.inj e
  rw [decode_Remote _ (by simp) (by simp)]
  simp [decodeRemote]
theorem sendv (d : VReg) (a : RReg) (b : SReg) : Statement (.sendv d a b) := by
  intro _ w e; obtain rfl := Option.some.inj e
  rw [decode_Remote _ (by simp) (by simp)]
  simp [decodeRemote]
theorem recv (d : SReg) (a : SReg) : Statement (.recv d a) := by
  intro _ w e; obtain rfl := Option.some.inj e
  rw [decode_Remote _ (by simp) (by simp)]
  simp [decodeRemote]
theorem rld (d : SReg) (a : RReg) (b : SReg) : Statement (.rld d a b) := by
  intro _ w e; obtain rfl := Option.some.inj e
  rw [decode_Remote _ (by simp) (by simp)]
  simp [decodeRemote]
theorem rst (d : SReg) (a : RReg) (b : SReg) : Statement (.rst d a b) := by
  intro _ w e; obtain rfl := Option.some.inj e
  rw [decode_Remote _ (by simp) (by simp)]
  simp [decodeRemote]
theorem rstf (d : SReg) (a : RReg) (b : SReg) : Statement (.rstf d a b) := by
  intro _ w e; obtain rfl := Option.some.inj e
  rw [decode_Remote _ (by simp) (by simp)]
  simp [decodeRemote]
theorem rldv (d : VReg) (a : RReg) (b : SReg) : Statement (.rldv d a b) := by
  intro _ w e; obtain rfl := Option.some.inj e
  rw [decode_Remote _ (by simp) (by simp)]
  simp [decodeRemote]
theorem rstv (d : VReg) (a : RReg) (b : SReg) : Statement (.rstv d a b) := by
  intro _ w e; obtain rfl := Option.some.inj e
  rw [decode_Remote _ (by simp) (by simp)]
  simp [decodeRemote]
theorem ramo (d : SReg) (a : RReg) (b : SReg) (op : BitVec 3) : Statement (.ramo d a b op) := by
  intro hw w e; obtain rfl := Option.some.inj e
  rw [decode_Remote _ (by simp) (by simp)]
  have hr : ramoForm d op = true := hw
  unfold decodeRemote
  rw [packR_3_4, packR_0_3, ramoF_3_4, ramoF_0_3, if_pos (show (2#4 : BitVec 4) = 2 from rfl), wordD_packR,
    wordA_packR, wordB_packR]
  simp [hr]
theorem wlease (d : SReg) (a : RReg) (b : SReg) : Statement (.wlease d a b) := by
  intro _ w e; obtain rfl := Option.some.inj e
  rw [decode_Lease _ (by simp) (by simp)]
  simp [decodeLease]
theorem wrelease (d : SReg) (a : SReg) : Statement (.wrelease d a) := by
  intro _ w e; obtain rfl := Option.some.inj e
  rw [decode_Lease _ (by simp) (by simp)]
  simp [decodeLease]
theorem wlstat (d : SReg) (a : SReg) : Statement (.wlstat d a) := by
  intro _ w e; obtain rfl := Option.some.inj e
  rw [decode_Lease _ (by simp) (by simp)]
  simp [decodeLease]
theorem gbar (d : SReg) (a : SReg) : Statement (.gbar d a) := by
  intro _ w e; obtain rfl := Option.some.inj e
  rw [decode_Group _ (by simp) (by simp)]
  simp [decodeGroup]
theorem garrive (d : SReg) (a : SReg) : Statement (.garrive d a) := by
  intro _ w e; obtain rfl := Option.some.inj e
  rw [decode_Group _ (by simp) (by simp)]
  simp [decodeGroup]
theorem gwait (d : SReg) (a : SReg) (b : SReg) : Statement (.gwait d a b) := by
  intro _ w e; obtain rfl := Option.some.inj e
  rw [decode_Group _ (by simp) (by simp)]
  simp [decodeGroup]
theorem gred (d : SReg) (a : SReg) (b : SReg) : Statement (.gred d a b) := by
  intro _ w e; obtain rfl := Option.some.inj e
  rw [decode_Group _ (by simp) (by simp)]
  simp [decodeGroup]
theorem ginfo (d : SReg) (a : SReg) (b : SReg) : Statement (.ginfo d a b) := by
  intro _ w e; obtain rfl := Option.some.inj e
  rw [decode_Group _ (by simp) (by simp)]
  simp [decodeGroup]
theorem vexp2 (c : Bool) (d : VReg) (a : VReg) : Statement (.vexp2 c d a) := by
  intro _ w e; obtain rfl := Option.some.inj e
  rw [decode_Sf _ (by simp)]
  simp [decodeSf, noK]
theorem vlog2 (c : Bool) (d : VReg) (a : VReg) : Statement (.vlog2 c d a) := by
  intro _ w e; obtain rfl := Option.some.inj e
  rw [decode_Sf _ (by simp)]
  simp [decodeSf, noK]
theorem vrcp (c : Bool) (d : VReg) (a : VReg) : Statement (.vrcp c d a) := by
  intro _ w e; obtain rfl := Option.some.inj e
  rw [decode_Sf _ (by simp)]
  simp [decodeSf, noK]
theorem vrsqrt (c : Bool) (d : VReg) (a : VReg) : Statement (.vrsqrt c d a) := by
  intro _ w e; obtain rfl := Option.some.inj e
  rw [decode_Sf _ (by simp)]
  simp [decodeSf, noK]
theorem vsin (c : Bool) (d : VReg) (a : VReg) : Statement (.vsin c d a) := by
  intro _ w e; obtain rfl := Option.some.inj e
  rw [decode_Sf _ (by simp)]
  simp [decodeSf, noK]
theorem vcos (c : Bool) (d : VReg) (a : VReg) : Statement (.vcos c d a) := by
  intro _ w e; obtain rfl := Option.some.inj e
  rw [decode_Sf _ (by simp)]
  simp [decodeSf, noK]
theorem vtanh (c : Bool) (d : VReg) (a : VReg) : Statement (.vtanh c d a) := by
  intro _ w e; obtain rfl := Option.some.inj e
  rw [decode_Sf _ (by simp)]
  simp [decodeSf, noK]
theorem vsigm (c : Bool) (d : VReg) (a : VReg) : Statement (.vsigm c d a) := by
  intro _ w e; obtain rfl := Option.some.inj e
  rw [decode_Sf _ (by simp)]
  simp [decodeSf, noK]
theorem mlds (a : SReg) : Statement (.mlds a) := by
  intro _ w e; obtain rfl := Option.some.inj e
  rw [decode_Mplane _ (by simp) (by simp)]
  simp [decodeMplane]
theorem mldss (a : SReg) : Statement (.mldss a) := by
  intro _ w e; obtain rfl := Option.some.inj e
  rw [decode_Mplane _ (by simp) (by simp)]
  simp [decodeMplane]
theorem csrr (d : SReg) (n : BitVec 11) : Statement (.csrr d n) := by
  intro hw w e; obtain rfl := Option.some.inj e
  rw [decode_Csr _ (by simp) (by simp)]
  simp_all [decodeCsr, Instr.wf]
theorem csrw (d : SReg) (a : SReg) (n : BitVec 11) : Statement (.csrw d a n) := by
  intro hw w e; obtain rfl := Option.some.inj e
  rw [decode_Csr _ (by simp) (by simp)]
  simp_all [decodeCsr, Instr.wf]
theorem csrs (d : SReg) (a : SReg) (n : BitVec 11) : Statement (.csrs d a n) := by
  intro hw w e; obtain rfl := Option.some.inj e
  rw [decode_Csr _ (by simp) (by simp)]
  simp_all [decodeCsr, Instr.wf]
theorem csrc (d : SReg) (a : SReg) (n : BitVec 11) : Statement (.csrc d a n) := by
  intro hw w e; obtain rfl := Option.some.inj e
  rw [decode_Csr _ (by simp) (by simp)]
  simp_all [decodeCsr, Instr.wf]
theorem ecall : Statement (.ecall) := by
  intro _ w e; obtain rfl := Option.some.inj e
  rw [decode_Sys _ (by simp) (by simp)]
  simp [decodeSys]
theorem brk : Statement (.brk) := by
  intro _ w e; obtain rfl := Option.some.inj e
  rw [decode_Sys _ (by simp) (by simp)]
  simp [decodeSys]
theorem eret : Statement (.eret) := by
  intro _ w e; obtain rfl := Option.some.inj e
  rw [decode_Sys _ (by simp) (by simp)]
  simp [decodeSys]
theorem uiret : Statement (.uiret) := by
  intro _ w e; obtain rfl := Option.some.inj e
  rw [decode_Sys _ (by simp) (by simp)]
  simp [decodeSys]
theorem wfi : Statement (.wfi) := by
  intro _ w e; obtain rfl := Option.some.inj e
  rw [decode_Sys _ (by simp) (by simp)]
  simp [decodeSys]
theorem halt : Statement (.halt) := by
  intro _ w e; obtain rfl := Option.some.inj e
  rw [decode_Sys _ (by simp) (by simp)]
  simp [decodeSys]
theorem yield : Statement (.yield) := by
  intro _ w e; obtain rfl := Option.some.inj e
  rw [decode_Task _ (by simp) (by simp)]
  simp [decodeTask]
theorem sleep : Statement (.sleep) := by
  intro _ w e; obtain rfl := Option.some.inj e
  rw [decode_Task _ (by simp) (by simp)]
  simp [decodeTask]
theorem mswap : Statement (.mswap) := by
  intro _ w e; obtain rfl := Option.some.inj e
  rw [decode_Mplane _ (by simp) (by simp)]
  simp [decodeMplane]
theorem loftMovesComplete : Statement .loftMovesComplete := fun _ _ e => nomatch e
theorem resourceAvailable : Statement .resourceAvailable := fun _ _ e => nomatch e
theorem loadMissFill : Statement .loadMissFill := fun _ _ e => nomatch e
theorem storeBufferDrain : Statement .storeBufferDrain := fun _ _ e => nomatch e
theorem granaryWriteback : Statement .granaryWriteback := fun _ _ e => nomatch e
theorem coreBarrierQuiescent : Statement .coreBarrierQuiescent := fun _ _ e => nomatch e
theorem matrixOpComplete : Statement .matrixOpComplete := fun _ _ e => nomatch e
theorem timecmpMatch : Statement .timecmpMatch := fun _ _ e => nomatch e
theorem yieldExpiry : Statement .yieldExpiry := fun _ _ e => nomatch e
theorem userInterruptEntry : Statement .userInterruptEntry := fun _ _ e => nomatch e
theorem engineTrap : Statement .engineTrap := fun _ _ e => nomatch e
theorem uncorrectedTrap : Statement .uncorrectedTrap := fun _ _ e => nomatch e
theorem lockWatchdog : Statement .lockWatchdog := fun _ _ e => nomatch e
theorem fewaitLimit : Statement .fewaitLimit := fun _ _ e => nomatch e
theorem barwaitLimit : Statement .barwaitLimit := fun _ _ e => nomatch e
theorem withdrawalAnswer : Statement .withdrawalAnswer := fun _ _ e => nomatch e
theorem copyStart : Statement .copyStart := fun _ _ e => nomatch e
theorem copyLineWrite : Statement .copyLineWrite := fun _ _ e => nomatch e
theorem copyDone : Statement .copyDone := fun _ _ e => nomatch e
theorem copyFail : Statement .copyFail := fun _ _ e => nomatch e
theorem cpycanComplete : Statement .cpycanComplete := fun _ _ e => nomatch e
theorem translationWalk : Statement .translationWalk := fun _ _ e => nomatch e
theorem pageServiceComplete : Statement .pageServiceComplete := fun _ _ e => nomatch e
theorem priResponse : Statement .priResponse := fun _ _ e => nomatch e
theorem atsInvalidation : Statement .atsInvalidation := fun _ _ e => nomatch e
theorem shootdownComplete : Statement .shootdownComplete := fun _ _ e => nomatch e
theorem shootdown : Statement .shootdown := fun _ _ e => nomatch e
theorem evict : Statement .evict := fun _ _ e => nomatch e
theorem destroyKeySlot : Statement .destroyKeySlot := fun _ _ e => nomatch e
theorem generateKeySlot : Statement .generateKeySlot := fun _ _ e => nomatch e
theorem skimPage : Statement .skimPage := fun _ _ e => nomatch e
theorem maintRequestDiscard : Statement .maintRequestDiscard := fun _ _ e => nomatch e
theorem switchHeader : Statement .switchHeader := fun _ _ e => nomatch e
theorem gatewayHeader : Statement .gatewayHeader := fun _ _ e => nomatch e
theorem remoteAccessArrival : Statement .remoteAccessArrival := fun _ _ e => nomatch e
theorem messageArrival : Statement .messageArrival := fun _ _ e => nomatch e
theorem taskPacketArrival : Statement .taskPacketArrival := fun _ _ e => nomatch e
theorem responseArrival : Statement .responseArrival := fun _ _ e => nomatch e
theorem acknowledgementArrival : Statement .acknowledgementArrival := fun _ _ e => nomatch e
theorem refusalArrival : Statement .refusalArrival := fun _ _ e => nomatch e
theorem nackArrival : Statement .nackArrival := fun _ _ e => nomatch e
theorem nackResend : Statement .nackResend := fun _ _ e => nomatch e
theorem keepWaitingTimer : Statement .keepWaitingTimer := fun _ _ e => nomatch e
theorem keepWaitingNotice : Statement .keepWaitingNotice := fun _ _ e => nomatch e
theorem responseTimerExpiry : Statement .responseTimerExpiry := fun _ _ e => nomatch e
theorem portGenAdvance : Statement .portGenAdvance := fun _ _ e => nomatch e
theorem linkRetry : Statement .linkRetry := fun _ _ e => nomatch e
theorem routeRemint : Statement .routeRemint := fun _ _ e => nomatch e
theorem laneLoss : Statement .laneLoss := fun _ _ e => nomatch e
theorem channelLockLoss : Statement .channelLockLoss := fun _ _ e => nomatch e
theorem blockedHeadTimeout : Statement .blockedHeadTimeout := fun _ _ e => nomatch e
theorem tokenVisit : Statement .tokenVisit := fun _ _ e => nomatch e
theorem recoverySinkApply : Statement .recoverySinkApply := fun _ _ e => nomatch e
theorem leaseRequestArrival : Statement .leaseRequestArrival := fun _ _ e => nomatch e
theorem leaseGrant : Statement .leaseGrant := fun _ _ e => nomatch e
theorem retuneComplete : Statement .retuneComplete := fun _ _ e => nomatch e
theorem leaseTermExpiry : Statement .leaseTermExpiry := fun _ _ e => nomatch e
theorem leaseRequestTimeout : Statement .leaseRequestTimeout := fun _ _ e => nomatch e
theorem starvationTimeout : Statement .starvationTimeout := fun _ _ e => nomatch e
theorem reclaimExpiry : Statement .reclaimExpiry := fun _ _ e => nomatch e
theorem counterArm : Statement .counterArm := fun _ _ e => nomatch e
theorem counterSignal : Statement .counterSignal := fun _ _ e => nomatch e
theorem armAnswer : Statement .armAnswer := fun _ _ e => nomatch e
theorem zeroNotice : Statement .zeroNotice := fun _ _ e => nomatch e
theorem taskAging : Statement .taskAging := fun _ _ e => nomatch e
theorem balancerRound : Statement .balancerRound := fun _ _ e => nomatch e
theorem balanceCommand : Statement .balanceCommand := fun _ _ e => nomatch e
theorem migrationSend : Statement .migrationSend := fun _ _ e => nomatch e
theorem migrationArrival : Statement .migrationArrival := fun _ _ e => nomatch e
theorem migrationRefused : Statement .migrationRefused := fun _ _ e => nomatch e
theorem hqTailWrite : Statement .hqTailWrite := fun _ _ e => nomatch e
theorem hqEnableWrite : Statement .hqEnableWrite := fun _ _ e => nomatch e
theorem hqRegWrite : Statement .hqRegWrite := fun _ _ e => nomatch e
theorem hostLaunch : Statement .hostLaunch := fun _ _ e => nomatch e
theorem hostPost : Statement .hostPost := fun _ _ e => nomatch e
theorem counterSet : Statement .counterSet := fun _ _ e => nomatch e
theorem balance : Statement .balance := fun _ _ e => nomatch e
theorem dutyReply : Statement .dutyReply := fun _ _ e => nomatch e
theorem token : Statement .token := fun _ _ e => nomatch e
theorem occupancy : Statement .occupancy := fun _ _ e => nomatch e
theorem kernelLaunch : Statement .kernelLaunch := fun _ _ e => nomatch e
theorem bayScrubComplete : Statement .bayScrubComplete := fun _ _ e => nomatch e
theorem kernelRetire : Statement .kernelRetire := fun _ _ e => nomatch e
theorem recoatHandover : Statement .recoatHandover := fun _ _ e => nomatch e
theorem barrierArrival : Statement .barrierArrival := fun _ _ e => nomatch e
theorem barrierReleaseSent : Statement .barrierReleaseSent := fun _ _ e => nomatch e
theorem barrierRelease : Statement .barrierRelease := fun _ _ e => nomatch e
theorem watchArrival : Statement .watchArrival := fun _ _ e => nomatch e
theorem watchAnswer : Statement .watchAnswer := fun _ _ e => nomatch e
theorem leaveNotice : Statement .leaveNotice := fun _ _ e => nomatch e
theorem withdrawalArrival : Statement .withdrawalArrival := fun _ _ e => nomatch e
theorem lock : Statement .lock := fun _ _ e => nomatch e
theorem unlock : Statement .unlock := fun _ _ e => nomatch e
theorem scrubComplete : Statement .scrubComplete := fun _ _ e => nomatch e
theorem suspend : Statement .suspend := fun _ _ e => nomatch e
theorem suspendComplete : Statement .suspendComplete := fun _ _ e => nomatch e
theorem restore : Statement .restore := fun _ _ e => nomatch e
theorem migrate : Statement .migrate := fun _ _ e => nomatch e
theorem migrationChunk : Statement .migrationChunk := fun _ _ e => nomatch e
theorem confirm : Statement .confirm := fun _ _ e => nomatch e
theorem migrationAck : Statement .migrationAck := fun _ _ e => nomatch e
theorem migrationCommitTimeout : Statement .migrationCommitTimeout := fun _ _ e => nomatch e
theorem alarmNotice : Statement .alarmNotice := fun _ _ e => nomatch e
theorem alarmLevel2 : Statement .alarmLevel2 := fun _ _ e => nomatch e
theorem alarmLevel3 : Statement .alarmLevel3 := fun _ _ e => nomatch e
theorem sensorLimit : Statement .sensorLimit := fun _ _ e => nomatch e
theorem tamperMesh : Statement .tamperMesh := fun _ _ e => nomatch e
theorem coldStart : Statement .coldStart := fun _ _ e => nomatch e
theorem warmStart : Statement .warmStart := fun _ _ e => nomatch e
theorem setDuty : Statement .setDuty := fun _ _ e => nomatch e
theorem fwStage : Statement .fwStage := fun _ _ e => nomatch e
theorem fwActivate : Statement .fwActivate := fun _ _ e => nomatch e
theorem readLog : Statement .readLog := fun _ _ e => nomatch e
theorem getMeasurements : Statement .getMeasurements := fun _ _ e => nomatch e
theorem keyExchange : Statement .keyExchange := fun _ _ e => nomatch e
theorem migrationOffer : Statement .migrationOffer := fun _ _ e => nomatch e
theorem migrationAbort : Statement .migrationAbort := fun _ _ e => nomatch e

end Sys2Proof.Laws.Encoding
end

