-- ==== Sys2Proof/Safety.lean ====
section
/-!
DEFINITION. The terms that claims about the machine use: the strand an instruction acts for, what a safe state is, and what
it means that memory, or everything but one strand, reads as before.
-/

namespace Sys2Proof.Machine

/-- The strand that the next instruction acts for. -/
def State.me (s : State) : Strand := s.strand s.cur.place

/-- That strand is bound, so that it may issue (R56). -/
def State.bound (s : State) : Bool := s.me.run != .unbound

/-- The instruction stands alone, not in a convoy that is being split nor within an instruction in progress (R67, R68). -/
def State.alone (s : State) : Bool := s.cur.member == 0 && s.cur.stop.isNone && s.cur.mask.isNone && s.me.midMask.isNone

/-- A trap of that strand is delivered to its handler (R75): its kernel has not ended. -/
def State.delivers (s : State) : Bool := !s.me.trap.priv && s.me.trap.tvec != 0 && !s.me.ending

/-- The strand's next state when it alone changes: the instruction completes with the strand's registers changed. -/
def State.done (s : State) (f : Strand → Strand) : Res := .next (s.setStrand s.cur.place (f s.me).complete)

/-- The state in which claims about runs are made: memory is in its canonical form. -/
def State.safe (s : State) : Prop := Memory.wf s.mem = true

/-- Every byte of memory reads as before: physical memory as the cores of every die see it, and every local buffer. -/
def State.memoryAs (s s' : State) : Prop :=
  (∀ d key gen pa, s'.physByte d key gen pa = s.physByte d key gen pa) ∧
  ∀ c off, (s'.core c).readLocalByte off = (s.core c).readLocalByte off

/-- Every strand but the one at a place is as before. -/
def State.othersAs (s s' : State) (p : Place) : Prop := ∀ q, q ≠ p → s'.strand q = s.strand q

/-- Two strands hold the same registers but for one scalar register, the flags of VFLAGS, and what completing an
instruction changes: the PC, the LOOP nest and INSTRET. -/
def Strand.sameBut (t t' : Strand) (d : SReg) : Prop :=
  (∀ r, r ≠ d → t'.s r = t.s r) ∧ (∀ r, t'.m r = t.m r) ∧ (∀ r, t'.v r = t.v r) ∧ (∀ r, t'.w r = t.w r) ∧
  t'.task = t.task ∧ t'.trap = t.trap ∧ t'.time.timerOff = t.time.timerOff ∧ t'.time.timecmp = t.time.timecmp ∧
  t'.time.fewait = t.time.fewait ∧ t'.time.barwait = t.time.barwait ∧ t'.held = t.held ∧ t'.run = t.run

/-- The vector control registers but VFLAGS. -/
def VecCsr.sameButFlags (v v' : VecCsr) : Prop := { v with vflags := 0 } = { v' with vflags := 0 }

/-! ### What the rows of the instruction tables give -/

/-- The destination and the value of the rows of R119 (but the divisions, MULH, MULHU and the counts), R122 and R123. -/
def Claims.scalarValue (t : Strand) : Instr → Option (SReg × Word)
  | .add d a b => some (d, t.s a + t.s b)
  | .sub d a b => some (d, t.s a - t.s b)
  | .and d a b => some (d, t.s a &&& t.s b)
  | .or d a b => some (d, t.s a ||| t.s b)
  | .xor d a b => some (d, t.s a ^^^ t.s b)
  | .sll d a b => some (d, t.s a <<< ((t.s b).extractLsb' 0 6))
  | .srl d a b => some (d, t.s a >>> ((t.s b).extractLsb' 0 6))
  | .sra d a b => some (d, (t.s a).sshiftRight' ((t.s b).extractLsb' 0 6))
  | .slt d a b => some (d, if (t.s a).toInt < (t.s b).toInt then 1 else 0)
  | .sltu d a b => some (d, if (t.s a).toNat < (t.s b).toNat then 1 else 0)
  | .mul d a b => some (d, t.s a * t.s b)
  | .min d a b => some (d, if (t.s a).toInt < (t.s b).toInt then t.s a else t.s b)
  | .max d a b => some (d, if (t.s a).toInt > (t.s b).toInt then t.s a else t.s b)
  | .minu d a b => some (d, if (t.s a).toNat < (t.s b).toNat then t.s a else t.s b)
  | .maxu d a b => some (d, if (t.s a).toNat > (t.s b).toNat then t.s a else t.s b)
  | .slli d a sh => some (d, t.s a <<< sh)
  | .srli d a sh => some (d, t.s a >>> sh)
  | .srai d a sh => some (d, (t.s a).sshiftRight' sh)
  | .lui d imm => some (d, imm.signExtend 64 <<< 13)
  | .addpc d imm => some (d, t.pc + (imm.signExtend 64 <<< 13))
  | _ => none

/-- Whether an instruction is one of the divisions of R120. -/
def Claims.isDivision : Instr → Bool
  | .div .. | .divu .. | .rem .. | .remu .. => true
  | _ => false

/-- The destination of a scalar arithmetic instruction. -/
def Claims.scalarDest : Instr → Option SReg
  | .add d .. | .sub d .. | .and d .. | .or d .. | .xor d .. | .sll d .. | .srl d .. | .sra d .. | .slt d ..
  | .sltu d .. | .mul d .. | .mulh d .. | .mulhu d .. | .div d .. | .divu d .. | .rem d .. | .remu d .. | .min d ..
  | .max d .. | .minu d .. | .maxu d .. | .clz d .. | .ctz d .. | .popc d .. | .addi d .. | .andi d .. | .ori d ..
  | .xori d .. | .slti d .. | .sltiu d .. | .slli d .. | .srli d .. | .srai d .. | .lui d .. | .addpc d .. => some d
  | _ => none

/-- Destination, base, offset, bytes and signedness of the loads of R124. -/
def Claims.loadForm : Instr → Option (SReg × SReg × BitVec 13 × Nat × Bool)
  | .ldb d a imm => some (d, a, imm, 1, true)
  | .ldbu d a imm => some (d, a, imm, 1, false)
  | .ldh d a imm => some (d, a, imm, 2, true)
  | .ldhu d a imm => some (d, a, imm, 2, false)
  | .ldw d a imm => some (d, a, imm, 4, true)
  | .ldwu d a imm => some (d, a, imm, 4, false)
  | .ldd d a imm => some (d, a, imm, 8, false)
  | _ => none

/-- Data register, base, offset and bytes of the stores of R124. -/
def Claims.storeForm : Instr → Option (SReg × SReg × BitVec 13 × Nat)
  | .stb b a imm => some (b, a, imm, 1)
  | .sth b a imm => some (b, a, imm, 2)
  | .stw b a imm => some (b, a, imm, 4)
  | .std b a imm => some (b, a, imm, 8)
  | _ => none

/-- Operation, registers and width of the atomics of R136. -/
def Claims.atomicForm : Instr → Option (AmoOp × SReg × SReg × SReg × Bool)
  | .amoadd d a b w => some (.add, d, a, b, w)
  | .amoswap d a b w => some (.swap, d, a, b, w)
  | .amocas d a b w => some (.cas, d, a, b, w)
  | .amomin d a b w => some (.min, d, a, b, w)
  | .amomax d a b w => some (.max, d, a, b, w)
  | .amominu d a b w => some (.minu, d, a, b, w)
  | .amomaxu d a b w => some (.maxu, d, a, b, w)
  | .amoand d a b w => some (.and, d, a, b, w)
  | .amoor d a b w => some (.or, d, a, b, w)
  | .amoxor d a b w => some (.xor, d, a, b, w)
  | _ => none

/-- Address, bytes and kind (0 load, 1 store, 3 atomic, 4 AMOCAS) of a scalar access. -/
def Claims.access (t : Strand) (i : Instr) : Option (Word × Nat × Nat) :=
  match Claims.loadForm i, Claims.storeForm i, Claims.atomicForm i with
  | some (_, a, imm, n, _), _, _ => some (t.s a + imm.signExtend 64, n, 0)
  | _, some (_, a, imm, n), _ => some (t.s a + imm.signExtend 64, n, 1)
  | _, _, some (op, _, a, _, w) => some (t.s a, if w then 8 else 4, if op = .cas then 4 else 3)
  | _, _, _ => none

/-- The registers that an access which traps, waits or completes may not change: all but one scalar register and the
trap registers. -/
def Strand.keepsBut (t t' : Strand) (d : SReg) : Prop :=
  (∀ r, r ≠ d → t'.s r = t.s r) ∧ (∀ r, t'.m r = t.m r) ∧ (∀ r, t'.v r = t.v r) ∧ (∀ r, t'.w r = t.w r) ∧
  t'.vec = t.vec ∧ t'.task = t.task ∧ t'.trap.uip = t.trap.uip ∧ t'.trap.uivec = t.trap.uivec ∧
  t'.trap.tvec = t.trap.tvec ∧ t'.trap.uieEn = t.trap.uieEn

/-- Whether a branch of R128 is taken, and its offset. -/
def Claims.branch (t : Strand) : Instr → Option (Bool × BitVec 13)
  | .beq b a imm => some (t.s a == t.s b, imm)
  | .bne b a imm => some (t.s a != t.s b, imm)
  | .blt b a imm => some (decide ((t.s a).toInt < (t.s b).toInt), imm)
  | .bge b a imm => some (decide ((t.s b).toInt ≤ (t.s a).toInt), imm)
  | .bltu b a imm => some (decide ((t.s a).toNat < (t.s b).toNat), imm)
  | .bgeu b a imm => some (decide ((t.s b).toNat ≤ (t.s a).toNat), imm)
  | _ => none

/-- Level, LEN and count of a loop word of R130. -/
def Claims.loopForm (t : Strand) : Instr → Option (Nat × BitVec 5 × Nat)
  | .loopi level len count => some (level.val, len, count.toNat)
  | .loop level len a => some (level.val, len, (t.s a).toNat)
  | _ => none

/-- What a control register reads after a write of w, for the registers whose fields R37 to R42 and R140 give. -/
def Claims.csrKept (t : Strand) (n : Nat) (w : Word) : Option Word :=
  match n with
  | 0x000 => some (BitVec.ofNat 64 (min w.toNat t.vec.vlmaxs))
  | 0x001 => some (w &&& 0x1FFF)
  | 0x003 => some (w &&& 7)
  | 0x004 | 0x005 | 0x006 | 0x007 => some (w &&& 0x3FF)
  | 0x008 => some (BitVec.ofNat 64 t.vec.vlmaxs)
  | 0x009 | 0x040 => some (w &&& 0xFF)
  | 0x010 | 0x011 | 0x012 => some (w &&& 0x1F)
  | 0x013 | 0x014 => some (w &&& 0x3FFFF)
  | 0x00A | 0x015 | 0x052 | 0x053 => some (w &&& 0xFFFFFFFF)
  | 0x016 => some (w &&& 3)
  | 0x030 => some (w &&& 0x17F)
  | 0x032 | 0x042 | 0x043 => some (w &&& 0x01FFFFFFFFFFFFFC)
  | 0x044 => some ((w &&& 0x1F) ||| (if t.trap.priv then 0x100 else 0))
  | 0x002 | 0x041 | 0x051 => some w
  | _ => none

/-- Cause and value of the system calls of R141. -/
def Claims.systemCall (t : Strand) : Instr → Option (Nat × Word)
  | .ecall => some (0x10, 0)
  | .brk => some (0x11, 0)
  | .trap a => some (0x12, t.s a)
  | _ => none

/-- A trap has been taken by the strand that the state acts for (R74): what was saved, where the strand goes, and that no
register, no other strand and no memory changed. -/
def Claims.trapTaken (s t : State) (cause : Nat) (tval : Word) : Prop :=
  t.me.trap.tcause = BitVec.ofNat 8 cause ∧ t.me.trap.tval = tval ∧ t.me.trap.tepc = addr57 s.me.pc ∧
  t.me.trap.ppriv = s.me.trap.priv ∧ t.me.trap.puien = s.me.trap.uieOn ∧ t.me.trap.inui = s.me.inUi ∧
  t.me.trap.member = 0 ∧ t.me.trap.priv = true ∧ t.me.trap.uieOn = false ∧ t.me.pc = s.me.trap.tvec ∧
  t.me.suspTrap = !s.me.loops.isEmpty ∧ t.me.run = .ready ∧ s.me.keepsBut t.me 0 ∧ s.othersAs t s.cur.place ∧
  s.memoryAs t ∧ t.mem = s.mem

/-- A kernel has become FAULTED with a cause and a value (R75, R328): no strand of its plot is bound, but for another one that is
within a vector instruction, which ends it first; and no other kernel's core changed. -/
def Claims.kernelFaulted (s t : State) (k cause : Nat) (tval : Word) : Prop :=
  ((mget t.kernels k).map fun q => (q.state, q.cause, q.tval)) = some (.faulted, cause, tval) ∧
  (∀ p : Place, (s.core p.core).kern = some k → (t.strand p).run = .unbound ∨
    (s.strand p).mid = true ∧ p ≠ s.cur.place ∧ t.strand p = { s.strand p with ending := true }) ∧
  (∀ c, (s.core c).kern ≠ some k → t.core c = s.core c) ∧ t.mem = s.mem

/-- The NI of the strand's core can send: its core is not frozen, its packet counter is not near its end, and no packet
of the strand waits to be resent. -/
def State.sends (s : State) : Bool :=
  let x := s.core s.cur.place.core
  !x.owner.frozen && decide (x.ni.nonce + 1024 < 2 ^ 64) &&
    x.ni.out.all fun e => e.2.pkt.strand != s.cur.place.strand || e.2.inFlight

/-- The strand's next packet has left: the core's NI holds it unanswered under the next number, with the route word, the
route register, what it does and its payload. -/
def Claims.sent (s t : State) (w : RouteWord) (wreg : Nat) (kind : PKind) (payload : List Byte) : Prop :=
  let c := s.cur.place.core
  (mget (t.core c).ni.out (s.core c).ni.serial).map
    (fun o => (o.pkt.word, o.pkt.wreg, o.pkt.strand, o.pkt.kind, o.pkt.payload)) =
  some (w, wreg, s.cur.place.strand, kind, payload)

/-! ### Vector instructions -/

/-- The strand may run a vector instruction that names registers now: it owns lanes, stands outside a convoy, and no loft
move is pending for the registers (R34, R35). -/
def State.vecReady (s : State) (needs : List (Nat × Bool)) : Bool :=
  s.bound && s.alone && s.isVector s.cur.place && (s.me.reside (s.residentCap s.cur.place) (s.spills s.cur.place) needs).2.moves == 0

/-- A value and its flags for each element. -/
abbrev Claims.ElemFn (w : Nat) := Nat → BitVec w × BitVec 8

/-- The vector registers that an instruction names, each with whether it is written (R33, R34). -/
def Claims.vecNeeds : Instr → List (Nat × Bool)
  | .vadd _ d a b => srcReg a :: srcOf b ++ [dstReg d]
  | .vsub _ d a b => srcReg a :: srcOf b ++ [dstReg d]
  | .vrsub _ d a b => srcReg a :: srcOf b ++ [dstReg d]
  | .vmul _ d a b => srcReg a :: srcOf b ++ [dstReg d]
  | .vmulh _ d a b => srcReg a :: srcOf b ++ [dstReg d]
  | .vmulhu _ d a b => srcReg a :: srcOf b ++ [dstReg d]
  | .vmadd _ d a b => srcReg a :: srcOf b ++ [dstReg d]
  | .vmsub _ d a b => srcReg a :: srcOf b ++ [dstReg d]
  | .vmin _ d a b => srcReg a :: srcOf b ++ [dstReg d]
  | .vmax _ d a b => srcReg a :: srcOf b ++ [dstReg d]
  | .vminu _ d a b => srcReg a :: srcOf b ++ [dstReg d]
  | .vmaxu _ d a b => srcReg a :: srcOf b ++ [dstReg d]
  | .vand _ d a b => srcReg a :: srcOf b ++ [dstReg d]
  | .vor _ d a b => srcReg a :: srcOf b ++ [dstReg d]
  | .vxor _ d a b => srcReg a :: srcOf b ++ [dstReg d]
  | .vsll _ d a b => srcReg a :: srcOf b ++ [dstReg d]
  | .vsrl _ d a b => srcReg a :: srcOf b ++ [dstReg d]
  | .vsra _ d a b => srcReg a :: srcOf b ++ [dstReg d]
  | .vdiv _ d a b => srcReg a :: srcOf b ++ [dstReg d]
  | .vdivu _ d a b => srcReg a :: srcOf b ++ [dstReg d]
  | .vrem _ d a b => srcReg a :: srcOf b ++ [dstReg d]
  | .vremu _ d a b => srcReg a :: srcOf b ++ [dstReg d]
  | .vsadd _ d a b => srcReg a :: srcOf b ++ [dstReg d]
  | .vssub _ d a b => srcReg a :: srcOf b ++ [dstReg d]
  | .vsaddu _ d a b => srcReg a :: srcOf b ++ [dstReg d]
  | .vssubu _ d a b => srcReg a :: srcOf b ++ [dstReg d]
  | .vfadd _ d a b => srcReg a :: srcOf b ++ [dstReg d]
  | .vfsub _ d a b => srcReg a :: srcOf b ++ [dstReg d]
  | .vfmul _ d a b => srcReg a :: srcOf b ++ [dstReg d]
  | .vfma _ d a b => srcReg a :: srcOf b ++ [dstReg d]
  | .vfms _ d a b => srcReg a :: srcOf b ++ [dstReg d]
  | .vfnma _ d a b => srcReg a :: srcOf b ++ [dstReg d]
  | .vfdiv _ d a b => srcReg a :: srcOf b ++ [dstReg d]
  | .vfmin _ d a b => srcReg a :: srcOf b ++ [dstReg d]
  | .vfmax _ d a b => srcReg a :: srcOf b ++ [dstReg d]
  | .vmerge _ d a b => srcReg a :: srcOf b ++ [dstReg d]
  | .vgather _ d a b => srcReg a :: srcOf b ++ [dstReg d]
  | .vredsum _ d a b => srcReg a :: srcOf b ++ [dstReg d]
  | .vredmin _ d a b => srcReg a :: srcOf b ++ [dstReg d]
  | .vredmax _ d a b => srcReg a :: srcOf b ++ [dstReg d]
  | .vredminu _ d a b => srcReg a :: srcOf b ++ [dstReg d]
  | .vredmaxu _ d a b => srcReg a :: srcOf b ++ [dstReg d]
  | .vredand _ d a b => srcReg a :: srcOf b ++ [dstReg d]
  | .vredor _ d a b => srcReg a :: srcOf b ++ [dstReg d]
  | .vredxor _ d a b => srcReg a :: srcOf b ++ [dstReg d]
  | .vfredsum _ d a b => srcReg a :: srcOf b ++ [dstReg d]
  | .vmv _ d b => srcOf b ++ [dstReg d]
  | .vabs _ d a => [srcReg a, dstReg d]
  | .vclz _ d a => [srcReg a, dstReg d]
  | .vpopc _ d a => [srcReg a, dstReg d]
  | .vfsqrt _ d a => [srcReg a, dstReg d]
  | .vfabs _ d a => [srcReg a, dstReg d]
  | .vfneg _ d a => [srcReg a, dstReg d]
  | .vfcvti _ d a => [srcReg a, dstReg d]
  | .vicvtf _ d a => [srcReg a, dstReg d]
  | .vfclass _ d a => [srcReg a, dstReg d]
  | .vexp2 _ d a => [srcReg a, dstReg d]
  | .vlog2 _ d a => [srcReg a, dstReg d]
  | .vrcp _ d a => [srcReg a, dstReg d]
  | .vrsqrt _ d a => [srcReg a, dstReg d]
  | .vsin _ d a => [srcReg a, dstReg d]
  | .vcos _ d a => [srcReg a, dstReg d]
  | .vtanh _ d a => [srcReg a, dstReg d]
  | .vsigm _ d a => [srcReg a, dstReg d]
  | .vcompress _ d a => [srcReg a, dstReg d]
  | .vscan _ d a => [srcReg a, dstReg d]
  | .vfcvt _ d a _ => [srcReg a, dstReg d]
  | .vxchg _ d a _ => [srcReg a, dstReg d]
  | .vslideup _ d a _ => [srcReg a, dstReg d]
  | .vslidedn _ d a _ => [srcReg a, dstReg d]
  | .vslide1up _ d a _ => [srcReg a, dstReg d]
  | .vslide1dn _ d a _ => [srcReg a, dstReg d]
  | .vceq _ _ a b => srcReg a :: srcOf b
  | .vcne _ _ a b => srcReg a :: srcOf b
  | .vclt _ _ a b => srcReg a :: srcOf b
  | .vcltu _ _ a b => srcReg a :: srcOf b
  | .vcle _ _ a b => srcReg a :: srcOf b
  | .vcleu _ _ a b => srcReg a :: srcOf b
  | .vcgt _ _ a b => srcReg a :: srcOf b
  | .vcgtu _ _ a b => srcReg a :: srcOf b
  | .vfceq _ _ a b => srcReg a :: srcOf b
  | .vfclt _ _ a b => srcReg a :: srcOf b
  | .vfcle _ _ a b => srcReg a :: srcOf b
  | .vfcun _ _ a b => srcReg a :: srcOf b
  | .vextr _ _ a _ => [srcReg a]
  | .vinsr _ d _ _ => [dstReg d]
  | .viota _ d => [dstReg d]
  | .mfromv _ _ a => [srcReg a]
  | .mtov _ d _ => [dstReg d]
  | .vld _ d _ => [dstReg d]
  | .vldff _ d _ => [dstReg d]
  | .vldx _ d _ b => [srcReg b, dstReg d]
  | .vldq _ d _ => [dstReg d]
  | .vldbc _ d _ => [dstReg d]
  | .vst _ d _ => [srcReg d]
  | .vstx _ d _ b => [srcReg b, srcReg d]
  | .vstq _ d _ => [srcReg d]
  | _ => []

/-- The instructions that name a vector register. -/
def Claims.namesVector : Instr → Bool
  | .vadd .. | .vsub .. | .vrsub .. | .vmul .. | .vmulh .. | .vmulhu .. | .vmadd .. | .vmsub .. | .vmin ..
  | .vmax .. | .vminu .. | .vmaxu .. | .vand .. | .vor .. | .vxor .. | .vsll .. | .vsrl .. | .vsra ..
  | .vdiv .. | .vdivu .. | .vrem .. | .vremu .. | .vsadd .. | .vssub .. | .vsaddu .. | .vssubu .. | .vfadd ..
  | .vfsub .. | .vfmul .. | .vfma .. | .vfms .. | .vfnma .. | .vfdiv .. | .vfmin .. | .vfmax .. | .vmerge ..
  | .vgather .. | .vredsum .. | .vredmin .. | .vredmax .. | .vredminu .. | .vredmaxu .. | .vredand ..
  | .vredor .. | .vredxor .. | .vfredsum .. | .vmv .. | .vabs .. | .vclz .. | .vpopc .. | .vfsqrt ..
  | .vfabs .. | .vfneg .. | .vfcvti .. | .vicvtf .. | .vfclass .. | .vexp2 .. | .vlog2 .. | .vrcp ..
  | .vrsqrt .. | .vsin .. | .vcos .. | .vtanh .. | .vsigm .. | .vcompress .. | .vscan .. | .vfcvt ..
  | .vxchg .. | .vslideup .. | .vslidedn .. | .vslide1up .. | .vslide1dn .. | .vceq .. | .vcne .. | .vclt ..
  | .vcltu .. | .vcle .. | .vcleu .. | .vcgt .. | .vcgtu .. | .vfceq .. | .vfclt .. | .vfcle .. | .vfcun ..
  | .vextr .. | .vinsr .. | .viota .. | .mfromv .. | .mtov .. | .vld .. | .vldff .. | .vldx .. | .vldq ..
  | .vldbc .. | .vst .. | .vstx .. | .vstq .. | .mma .. | .mopa .. | .mslide .. | .mrdc .. | .sendv ..
  | .rldv .. | .rstv .. => true
  | _ => false

/-- The floating and special-function instructions, whose SEW must be the format's width (R148). -/
def Claims.isFloat : Instr → Bool
  | .vfadd .. | .vfsub .. | .vfmul .. | .vfma .. | .vfms .. | .vfnma .. | .vfdiv .. | .vfmin .. | .vfmax ..
  | .vfsqrt .. | .vfabs .. | .vfneg .. | .vfcvti .. | .vicvtf .. | .vfclass .. | .vexp2 .. | .vlog2 ..
  | .vrcp .. | .vrsqrt .. | .vsin .. | .vcos .. | .vtanh .. | .vsigm .. | .vfcvt .. | .vfredsum .. | .vfceq ..
  | .vfclt .. | .vfcle .. | .vfcun .. => true
  | _ => false

/-- The instructions that process every element from VSTART0 to VL - 1, whatever the mask (R153, R165). -/
def Claims.allElements : Instr → Bool
  | .vmerge .. | .mtov .. => true
  | _ => false

/-- Element e of a register and of a second source, at the strand's element width. -/
def Claims.el (t : Strand) (r : VReg) (e : Nat) : BitVec t.sewW := BitVec.ofNat t.sewW (elem (t.v r) t.sewW e)
def Claims.src (t : Strand) (b : VSrc) (e : Nat) : BitVec t.sewW := BitVec.ofNat t.sewW (srcElem t t.sewW b e)

/-- A sum or difference clamped to the signed range of a width, with SAT when it was outside (R154). -/
def Claims.clamp {w : Nat} (v : Int) (inside : BitVec w) : BitVec w × BitVec 8 :=
  if (2 : Int) ^ (w - 1) ≤ v then (BitVec.intMax w, flagSAT)
  else if v < -(2 : Int) ^ (w - 1) then (BitVec.intMin w, flagSAT)
  else (inside, 0)

/-- What the rows of R153 give at width w for elements x of a, y of b and z of d. -/
def Claims.intRow (w : Nat) (x y z : BitVec w) : Instr → Option (BitVec w)
  | .vadd .. => some (x + y)
  | .vsub .. => some (x - y)
  | .vrsub .. => some (y - x)
  | .vmul .. => some (x * y)
  | .vmulh .. => some ((x.signExtend (2 * w) * y.signExtend (2 * w)).extractLsb' w w)
  | .vmulhu .. => some ((x.setWidth (2 * w) * y.setWidth (2 * w)).extractLsb' w w)
  | .vmadd .. => some (z + x * y)
  | .vmsub .. => some (z - x * y)
  | .vmin .. => some (if x.slt y then x else y)
  | .vmax .. => some (if y.slt x then x else y)
  | .vminu .. => some (if x.ult y then x else y)
  | .vmaxu .. => some (if y.ult x then x else y)
  | .vand .. => some (x &&& y)
  | .vor .. => some (x ||| y)
  | .vxor .. => some (x ^^^ y)
  | .vsll .. => some (x <<< (y.toNat % w))
  | .vsrl .. => some (x >>> (y.toNat % w))
  | .vsra .. => some (x.sshiftRight (y.toNat % w))
  | _ => none

/-- What the rows of R154 give at width w, with their flags. -/
def Claims.flagRow (w : Nat) (x y : BitVec w) : Instr → Option (BitVec w × BitVec 8)
  | .vdiv .. =>
    some (if y = 0 then (BitVec.allOnes w, flagIDZ) else if x = BitVec.intMin w ∧ y = BitVec.allOnes w then (x, flagIOV) else (x.sdiv y, 0))
  | .vdivu .. => some (if y = 0 then (BitVec.allOnes w, flagIDZ) else (x / y, 0))
  | .vrem .. =>
    some (if y = 0 then (x, flagIDZ) else if x = BitVec.intMin w ∧ y = BitVec.allOnes w then (0, flagIOV) else (x.srem y, 0))
  | .vremu .. => some (if y = 0 then (x, flagIDZ) else (x % y, 0))
  | .vsadd .. => some (Claims.clamp (x.toInt + y.toInt) (x + y))
  | .vssub .. => some (Claims.clamp (x.toInt - y.toInt) (x - y))
  | .vsaddu .. => some (if 2 ^ w ≤ x.toNat + y.toNat then (BitVec.allOnes w, flagSAT) else (x + y, 0))
  | .vssubu .. => some (if x.toNat < y.toNat then (0, flagSAT) else (x - y, 0))
  | _ => none

/-- Destination and sources of the two-source vector instructions. -/
def Claims.vregs : Instr → Option (VReg × VReg × VSrc)
  | .vadd _ d a b => some (d, a, b)
  | .vsub _ d a b => some (d, a, b)
  | .vrsub _ d a b => some (d, a, b)
  | .vmul _ d a b => some (d, a, b)
  | .vmulh _ d a b => some (d, a, b)
  | .vmulhu _ d a b => some (d, a, b)
  | .vmadd _ d a b => some (d, a, b)
  | .vmsub _ d a b => some (d, a, b)
  | .vmin _ d a b => some (d, a, b)
  | .vmax _ d a b => some (d, a, b)
  | .vminu _ d a b => some (d, a, b)
  | .vmaxu _ d a b => some (d, a, b)
  | .vand _ d a b => some (d, a, b)
  | .vor _ d a b => some (d, a, b)
  | .vxor _ d a b => some (d, a, b)
  | .vsll _ d a b => some (d, a, b)
  | .vsrl _ d a b => some (d, a, b)
  | .vsra _ d a b => some (d, a, b)
  | .vdiv _ d a b => some (d, a, b)
  | .vdivu _ d a b => some (d, a, b)
  | .vrem _ d a b => some (d, a, b)
  | .vremu _ d a b => some (d, a, b)
  | .vsadd _ d a b => some (d, a, b)
  | .vssub _ d a b => some (d, a, b)
  | .vsaddu _ d a b => some (d, a, b)
  | .vssubu _ d a b => some (d, a, b)
  | .vfadd _ d a b => some (d, a, b)
  | .vfsub _ d a b => some (d, a, b)
  | .vfmul _ d a b => some (d, a, b)
  | .vfma _ d a b => some (d, a, b)
  | .vfms _ d a b => some (d, a, b)
  | .vfnma _ d a b => some (d, a, b)
  | .vfdiv _ d a b => some (d, a, b)
  | .vfmin _ d a b => some (d, a, b)
  | .vfmax _ d a b => some (d, a, b)
  | _ => none

/-- Destination and element values of the integer vector instructions without flags. -/
def Claims.vint (t : Strand) (i : Instr) : Option (VReg × Claims.ElemFn t.sewW) :=
  match i with
  | .vmerge _ d a b => some (d, fun e =>
      (if (t.m t.vec.vmsel).getLsbD e then Claims.el t a e else Claims.src t b e, 0))
  | .vmv _ d b => some (d, fun e => (Claims.src t b e, 0))
  | .vabs _ d a => some (d, fun e => (if (Claims.el t a e).msb then -Claims.el t a e else Claims.el t a e, 0))
  | _ =>
    match Claims.vregs i, Claims.intRow t.sewW 0 0 0 i with
    | some (d, a, b), some _ => some (d, fun e =>
        ((Claims.intRow t.sewW (Claims.el t a e) (Claims.src t b e) (Claims.el t d e) i).getD 0, 0))
    | _, _ => none

/-- Destination and element values of the vector instructions of R154. -/
def Claims.vintFlagged (t : Strand) (i : Instr) : Option (VReg × Claims.ElemFn t.sewW) :=
  match Claims.vregs i, Claims.flagRow t.sewW 0 0 i with
  | some (d, a, b), some _ => some (d, fun e =>
      (Claims.flagRow t.sewW (Claims.el t a e) (Claims.src t b e) i).getD (0, 0))
  | _, _ => none

/-- What the two-source rows of R155 give in a format and rounding mode for the codes x, y and z. -/
def Claims.floatRow (f : FFmt) (r x y z : Nat) : Instr → Option (Nat × BitVec 8)
  | .vfadd .. => some (f.round r (fadd r (f.dec x) (f.dec y)))
  | .vfsub .. => some (f.round r (fadd r (f.dec x) (f.dec y).negate))
  | .vfmul .. => some (f.round r (fmul (f.dec x) (f.dec y)))
  | .vfma .. => some (f.round r (ffma r (f.dec x) (f.dec y) (f.dec z)))
  | .vfms .. => some (f.round r (ffma r (f.dec x) (f.dec y) (f.dec z).negate))
  | .vfnma .. => some (f.round r (ffma r (f.dec x).negate (f.dec y) (f.dec z)))
  | .vfdiv .. => some (fdiv f r (f.dec x) (f.dec y))
  | .vfmin .. => some (fminmax f false x y, 0)
  | .vfmax .. => some (fminmax f true x y, 0)
  | _ => none

/-- Destination, element width and element codes of the floating, special-function, counting and mask-to-vector
instructions, and of VFCVT by containers (R155 to R158, R165). -/
def Claims.velem (t : Strand) (i : Instr) : Option (VReg × Nat × (Nat → Nat × BitVec 8)) :=
  let f := t.fmt
  let r := t.vec.rnd
  let x := fun (a : VReg) (e : Nat) => elem (t.v a) t.sewW e
  match i with
  | .vclz _ d a => some (d, t.sewW, fun e => (clzFrom t.sewW (x a e), 0))
  | .vpopc _ d a => some (d, t.sewW, fun e => (((List.range t.sewW).filter fun k => (x a e).testBit k).length, 0))
  | .mtov _ d a => some (d, t.sewW, fun e => (((t.m a).getLsbD e).toNat, 0))
  | .vfsqrt _ d a => some (d, t.sewW, fun e => fsqrt f r (f.dec (x a e)))
  | .vfabs _ d a => some (d, t.sewW, fun e => (if f.dec (x a e) = .nan then f.nanCode else x a e % f.signW, 0))
  | .vfneg _ d a => some (d, t.sewW, fun e => (if f.dec (x a e) = .nan then f.nanCode else x a e ^^^ f.signW, 0))
  | .vfclass _ d a => some (d, t.sewW, fun e => (fclass f (x a e), 0))
  | .vfcvti _ d a => some (d, t.sewW, fun e =>
      let v := intConv r (-(2 ^ (t.sewW - 1) : Nat)) ((2 ^ (t.sewW - 1) : Nat) - 1) 0 (f.dec (x a e))
      (ofInt t.sewW v.1, v.2))
  | .vicvtf _ d a => some (d, t.sewW, fun e => f.conv r (ofScaled (toInt t.sewW (x a e)) 0))
  | .vfcvt _ d a k => some (d, containerBits k.val, fun e => convContainer k.val r (f.dec (x a e)))
  | .vexp2 _ d a => some (d, t.sewW, fun e => sfOf f .exp2 (x a e))
  | .vlog2 _ d a => some (d, t.sewW, fun e => sfOf f .log2 (x a e))
  | .vrcp _ d a => some (d, t.sewW, fun e => sfOf f .rcp (x a e))
  | .vrsqrt _ d a => some (d, t.sewW, fun e => sfOf f .rsqrt (x a e))
  | .vsin _ d a => some (d, t.sewW, fun e => sfOf f .sin (x a e))
  | .vcos _ d a => some (d, t.sewW, fun e => sfOf f .cos (x a e))
  | .vtanh _ d a => some (d, t.sewW, fun e => sfOf f .tanh (x a e))
  | .vsigm _ d a => some (d, t.sewW, fun e => sfOf f .sigm (x a e))
  | _ =>
    match Claims.vregs i, Claims.floatRow f r 0 0 0 i with
    | some (d, a, b), some _ => some (d, t.sewW, fun e =>
        (Claims.floatRow f r (x a e) (srcElem t t.sewW b e) (x d e) i).getD (0, 0))
    | _, _ => none

/-- Destination and element outcomes of the comparisons (R164). -/
def Claims.vcompare (t : Strand) (i : Instr) : Option (MReg × (Nat → Bool × BitVec 8)) :=
  let int := fun (d : MReg) (a : VReg) (b : VSrc) (f : BitVec t.sewW → BitVec t.sewW → Bool) =>
    some (d, fun (e : Nat) => (f (Claims.el t a e) (Claims.src t b e), (0 : BitVec 8)))
  let flt := fun (d : MReg) (a : VReg) (b : VSrc) (signals : Bool) (f : FVal → FVal → Bool) (withNan : Bool) =>
    some (d, fun (e : Nat) =>
      let x := t.fmt.dec (elem (t.v a) t.sewW e)
      let y := t.fmt.dec (srcElem t t.sewW b e)
      if x = .nan ∨ y = .nan then (withNan, if signals then flagNV else 0) else (f x y, (0 : BitVec 8)))
  match i with
  | .vceq _ d a b => int d a b fun x y => x == y
  | .vcne _ d a b => int d a b fun x y => x != y
  | .vclt _ d a b => int d a b fun x y => x.slt y
  | .vcltu _ d a b => int d a b fun x y => x.ult y
  | .vcle _ d a b => int d a b fun x y => !y.slt x
  | .vcleu _ d a b => int d a b fun x y => !y.ult x
  | .vcgt _ d a b => int d a b fun x y => y.slt x
  | .vcgtu _ d a b => int d a b fun x y => y.ult x
  | .vfceq _ d a b => flt d a b false (fun x y => fcmp x y == .eq) false
  | .vfclt _ d a b => flt d a b true (fun x y => fcmp x y == .lt) false
  | .vfcle _ d a b => flt d a b true (fun x y => fcmp x y != .gt) false
  | .vfcun _ d a b => flt d a b false (fun _ _ => false) true
  | _ => none

/-- Destination and bits of the mask instructions (R165). -/
def Claims.maskBits (t : Strand) (i : Instr) : Option (MReg × (Nat → Bool)) :=
  let m := fun (r : MReg) (e : Nat) => (t.m r).getLsbD e
  match i with
  | .mand _ d a b => some (d, fun e => m a e && m b e)
  | .mor _ d a b => some (d, fun e => m a e || m b e)
  | .mxor _ d a b => some (d, fun e => m a e != m b e)
  | .mandn _ d a b => some (d, fun e => m a e && !m b e)
  | .mnot _ d a => some (d, fun e => !m a e)
  | .mskft _ d a => some (d, fun e => (List.range e).all fun k => !m a k)
  | .mskbf _ d a => some (d, fun e => (List.range (e + 1)).all fun k => !m a k)
  | _ => none

/-- The unsplit ones among them (R149). -/
def Claims.isUnsplitMask : Instr → Bool
  | .mskft .. | .mskbf .. => true
  | _ => false

/-- Destination and new elements of the permutations (R160, R161); none is an element that keeps its value. -/
def Claims.permuted (t : Strand) (i : Instr) : Option (VReg × (Nat → Option Nat)) :=
  let is := activeIn (t.m t.vec.vmsel) 0 t.vec.vl
  let x := fun (a : VReg) (e : Nat) => if e < t.vec.vlmaxs then elem (t.v a) t.sewW e else 0
  let moved := fun (d : VReg) (f : Nat → Option Nat) => some (d, fun (e : Nat) => if is.contains e then f e else none)
  match i with
  | .vxchg _ d a k => moved d fun e => some (x a (e ^^^ 2 ^ k.val))
  | .vslideup _ d a b => moved d fun e => if (t.s b).toNat ≤ e then some (x a (e - (t.s b).toNat)) else none
  | .vslidedn _ d a b => moved d fun e => some (x a (e + (t.s b).toNat))
  | .vslide1up _ d a b => moved d fun e => some (if e = 0 then (t.s b).toNat else x a (e - 1))
  | .vslide1dn _ d a b => moved d fun e => some (if e + 1 = t.vec.vl then (t.s b).toNat else x a (e + 1))
  | .vgather _ d a (.v r) => moved d fun e => some (x a (elem (t.v r) t.sewW e))
  | .vgather _ d a (.s r) => moved d fun _ => some (x a ((t.s r).toNat % 2 ^ t.sewW))
  | .viota _ d => moved d fun e => is.idxOf? e
  | .vcompress _ d a => some (d, fun e => is[e]?.map fun k => elem (t.v a) t.sewW k)
  | .vinsr _ d a b => some (d, fun e =>
      if e = (t.s b).toNat ∧ e < t.vec.vlmaxs then some (t.s a).toNat else none)
  | _ => none

/-- Registers and operation of the integer reductions (R162). -/
def Claims.reduction (w : Nat) : Instr → Option (VReg × VReg × VSrc × (BitVec w → BitVec w → BitVec w))
  | .vredsum _ d a b => some (d, a, b, fun x y => x + y)
  | .vredmin _ d a b => some (d, a, b, fun x y => if x.slt y then x else y)
  | .vredmax _ d a b => some (d, a, b, fun x y => if y.slt x then x else y)
  | .vredminu _ d a b => some (d, a, b, fun x y => if x.ult y then x else y)
  | .vredmaxu _ d a b => some (d, a, b, fun x y => if y.ult x then x else y)
  | .vredand _ d a b => some (d, a, b, fun x y => x &&& y)
  | .vredor _ d a b => some (d, a, b, fun x y => x ||| y)
  | .vredxor _ d a b => some (d, a, b, fun x y => x ^^^ y)
  | _ => none

/-- Destination, addresses and broadcast of the vector loads (R166, R169). -/
def Claims.vload (s : State) : Instr → Option (VReg × VForm × Bool)
  | .vld _ d a => some (d, vform s.me a none false 0, false)
  | .vldff _ d a => some (d, vform s.me a none false 0, false)
  | .vldx _ d a b => some (d, vform s.me a (some b) false 0, false)
  | .vldq _ d a => some (d, vringForm (s.core s.cur.place.core) s.me a false, false)
  | .vldbc _ d a => some (d, vform s.me a none true 0, true)
  | _ => none

/-- Data register and addresses of the vector stores (R166, R169). -/
def Claims.vstore (s : State) : Instr → Option (VReg × VForm)
  | .vst _ d a => some (d, vform s.me a none false 1)
  | .vstx _ d a b => some (d, vform s.me a (some b) false 1)
  | .vstq _ d a => some (d, vringForm (s.core s.cur.place.core) s.me a true)
  | _ => none

/-- What a vector instruction leaves of its strand: every vector register but one, the scalar, mask and route registers,
the task and trap registers; the instruction has completed. -/
def Claims.vectorFrame (t t' : Strand) (d : Option VReg) : Prop :=
  (∀ r, some r ≠ d → t'.v r = t.v r) ∧ t'.scalars = t.scalars ∧ t'.masks = t.masks ∧ t'.routes = t.routes ∧
  t'.task = t.task ∧ t'.trap = t.trap ∧ t'.held = t.held ∧ t'.run = t.run ∧ t'.pc = t.complete.pc

/-- Each byte of the stored elements reads as the element's (R166), unless an element stored later in the same instruction reaches
the byte, or brings its line to another generation. -/
def Claims.stored (t : State) (p : Place) (size : Nat) (img : VImage) (good : List (Nat × VLoc)) : Prop :=
  ∀ pre e l post j, good = pre ++ (e, l) :: post → j < size →
    let b := BitVec.ofNat 8 (elem img (8 * size) e / 256 ^ j)
    (∀ off, l = .buffer off → (∀ g ∈ post, ∀ o, g.2 = .buffer o → off + j < o ∨ o + size ≤ off + j) →
      (t.core p.core).readLocalByte (off + j) = b) ∧
    (∀ pa x, l = .phys pa x →
      (∀ g ∈ post, ∀ q z, g.2 = .phys q z → (pa + j < q ∨ q + size ≤ pa + j) ∧
        (z.gen = x.gen ∨ isHost (pa + j) = true ∨ (∀ i, i < size → (pa + j) / 64 ≠ (q + i) / 64))) →
      t.physByte (dieOf p.core) x.key x.gen (pa + j) = b)

/-! ### Matrix unit, rings, copies -/

/-- No operation is in the matrix unit or waits for it, and the scale bytes that one reads are ready. -/
def Claims.unitFree (x : Core) (k : Nat) (rs : List (Nat × Nat)) : Prop :=
  x.mtx.busy = none ∧ x.mtx.queue = [] ∧ ∀ r ∈ rs, x.localWait (some k) r.1 r.2 = none

/-- None of some local ranges has a poisoned line. -/
def Claims.sound (x : Core) (rs : List (Nat × Nat)) : Prop := ∀ r ∈ rs, x.localPoisoned r.1 r.2 = false

/-- The matrix unit has taken an operation of the strand (R63, R188): it is to end in a number of clk, and none of its events has
happened; the strand is PARKED with its registers as they were, and no other strand has changed. -/
def Claims.mtxTaken (s t : State) (clk : Nat) (op : MtxOp) : Prop :=
  let p := s.cur.place
  (t.core p.core).mtx.busy = some op ∧ op.strand = p.strand ∧ op.endClk = s.now + clk ∧ op.flags = 0 ∧ op.got = [] ∧
  op.spoilt = none ∧ t.me.run = .parked ∧ t.me.wait = .matrix ∧ t.me.pc = s.me.pc ∧ t.me.scalars = s.me.scalars ∧
  t.me.vectors = s.me.vectors ∧ t.timers = s.timers ++ [(s.now + 1, { step := .matrixOpComplete, given := .core p.core })] ∧
  s.othersAs t p ∧ ∀ a, (t.core p.core).readLocalByte a = (s.core p.core).readLocalByte a

/-- The accumulator of output (i, c) of a tile at t0 (R180), and a residue latch. -/
def Claims.out (x : Core) (t0 i c : Nat) : Nat := leNat (x.readLocal (bufBase 3 + t0 + 32 * i + 4 * c) 4)
def Claims.latch (x : Core) (i c : Nat) : Nat × Nat × Nat := mgetD x.mtx.latches (8 * i + c) (0, 0, 0)

/-- Every local byte outside h rows of a tile reads as before. -/
def Claims.outsideTile (x y : Core) (t0 h : Nat) : Prop :=
  ∀ a, (a < bufBase 3 + t0 ∨ bufBase 3 + t0 + 32 * h ≤ a) → y.readLocalByte a = x.readLocalByte a

/-- The tile of h rows at t0 lies in C and is aligned (R181, checks 6 and 7). -/
def Claims.tileOk (t0 : Word) (h : Nat) : Prop := t0.toNat % 32 = 0 ∧ t0.toNat + 32 * h ≤ 65536

/-- A residue latch with a list of products added, channel by channel (R90). -/
def Claims.latched (fmt : Nat) (old : Nat × Nat × Nat) (terms : List (Nat × Nat)) : Nat × Nat × Nat :=
  let f := rnsFmt fmt
  let sum := fun (g : Nat × Nat × Nat → Nat) => (terms.map fun e => g (rnsSplit f e.1) * g (rnsSplit f e.2)).sum
  ((old.1 + sum (·.1)) % f.m1, (old.2.1 + sum (·.2.1)) % f.m2, (old.2.2 + sum (·.2.2)) % f.m3)

/-- A ring operation has completed: sD has a value, the strand moves on, and the ring is as given. -/
def Claims.ringDone (s t : State) (d : SReg) (v g : Nat) (r : Ring) : Prop :=
  let p := s.cur.place
  t.me.pc = s.me.complete.pc ∧ (∀ k, k ≠ d → t.me.s k = s.me.s k) ∧ (d ≠ 0 → t.me.s d = BitVec.ofNat 64 v) ∧
  (t.core p.core).ring g = r ∧ (∀ h, h ≠ g → (t.core p.core).ring h = (s.core p.core).ring h) ∧
  ∀ a, (t.core p.core).readLocalByte a = (s.core p.core).readLocalByte a

/-! ### Routes, remote operations, leases and groups -/

/-- The instruction has completed: the strand moves on with one scalar register at most changed, and no route register. -/
def Claims.ended (s t : State) (d : SReg) (v : Word) : Prop :=
  t.me.pc = s.me.complete.pc ∧ t.me.run = s.me.run ∧ (∀ r, r ≠ d → t.me.s r = s.me.s r) ∧ (d ≠ 0 → t.me.s d = v) ∧
  t.me.routes = s.me.routes ∧ t.me.vectors = s.me.vectors

/-- The strand is STALLED until the answer that a wait names, and its registers are as before. -/
def Claims.holds (s t : State) (w : Wait) (d : SReg) : Prop :=
  t.me.run = .stalled ∧ t.me.wait = w ∧ t.me.waitReg = d ∧ t.me.pc = s.me.pc ∧ t.me.scalars = s.me.scalars ∧
  t.me.vectors = s.me.vectors ∧ t.me.routes = s.me.routes

/-- A route register has taken a word and nothing else of the strand's registers changed; naming w0 has no effect. -/
def Claims.routeSet (s t : State) (d : RReg) (w : RouteWord) : Prop :=
  t.me.pc = s.me.complete.pc ∧ t.me.scalars = s.me.scalars ∧ (d ≠ 0 → t.me.w d = w) ∧ (∀ r, r ≠ d → t.me.w r = s.me.w r) ∧
  (d ≠ 0 → mget t.me.sheaves d.val = none ∧ mget t.me.routeFails d.val = none) ∧ s.othersAs t s.cur.place

/-- A packet of a strand's next operation, by its place among the operation's packets: register word, register, what it
does, and its payload. -/
def Claims.sentNo (s t : State) (j : Nat) (w : RouteWord) (wreg : Nat) (kind : PKind) (payload : List Byte) : Prop :=
  let c := s.cur.place.core
  (mget (t.core c).ni.out ((s.core c).ni.serial + j)).map
    (fun o => (o.pkt.word, o.pkt.wreg, o.pkt.strand, o.pkt.kind, o.pkt.payload)) =
  some (w, wreg, s.cur.place.strand, kind, payload)

/-! ### Steps without an encoding -/

/-- A strand's wait has ended and its instruction is complete: READY at the next PC, one scalar register at most changed. -/
def Claims.finished (s t : State) (p : Place) (v : Word) : Prop :=
  let u := s.strand p
  let w := t.strand p
  w.run = .ready ∧ w.pc = u.complete.pc ∧ (∀ r, r ≠ u.waitReg → w.s r = u.s r) ∧ (u.waitReg ≠ 0 → w.s u.waitReg = v) ∧
  w.vectors = u.vectors ∧ w.routes = u.routes

/-- A strand is READY to execute its instruction anew, with no register changed. -/
def Claims.woken (s t : State) (p : Place) : Prop :=
  (t.strand p).run = .ready ∧ (t.strand p).pc = (s.strand p).pc ∧ (t.strand p).scalars = (s.strand p).scalars ∧
  (t.strand p).vectors = (s.strand p).vectors

/-- A strand has taken a trap with a cause and a value (R74). -/
def Claims.trapped (s t : State) (p : Place) (cause : Nat) (tval : Word) : Prop :=
  let u := s.strand p
  let w := t.strand p
  w.run = .ready ∧ w.pc = u.trap.tvec ∧ w.trap.tcause = BitVec.ofNat 8 cause ∧ w.trap.tval = tval ∧ w.trap.priv = true ∧
  w.trap.ppriv = u.trap.priv ∧ w.trap.uieOn = false ∧ w.scalars = u.scalars

/-- A trap of the strand at a place is delivered (R75): its kernel runs. -/
def Claims.delivered (s : State) (p : Place) : Prop :=
  (s.strand p).trap.priv = false ∧ (s.strand p).trap.tvec ≠ 0 ∧ (s.strand p).ending = false

/-- The state of a copy slot. -/
def Claims.copyState (s : State) (c k : Nat) : Option CopyState := (mget (s.core c).copies k).map (·.state)

/-! ### Packets, leases, queues, host requests and management -/

/-- A packet has been answered to its sender on this module, under the sender's number of it (R209, R273). -/
def Claims.answered (s t : State) (k : Packet) (kind : PKind) (payload : List Byte) : Prop :=
  (mget t.packets s.packetNo).map (fun a => (a.kind, a.payload, a.core, a.strand, a.num)) =
    some (kind, payload, k.core, k.strand, k.num)

/-- A packet passes its CRC and its GCM check where it is received (R371, R400). -/
def Claims.genuine (s : State) (k : Packet) : Prop := k.damage = 0 ∧ s.keyFits k = true

/-- A core's NI encrypts: the core is not frozen, and its packet counter is not spent (R370, R379). -/
def Claims.encrypts (s : State) (c : Nat) : Prop := (s.core c).owner.frozen = false ∧ (s.core c).ni.nonce < 2 ^ 64 - 1

/-- The place that a packet has come to can answer it. -/
def Claims.canAnswer (s : State) (k : Packet) : Prop :=
  match k.loc with
  | .ni c => Claims.encrypts s c
  | .switch _ => True
  | _ => k.word ≠ 0

/-- No strand of a core waits in TAKE. -/
def Claims.noTakers (s : State) (c : Nat) : Prop := ∀ e ∈ (s.core c).strands, e.2.wait ≠ .take

/-- An unanswered packet of a core. -/
def State.outOf (s : State) (c num : Nat) : Option Outstanding := mget (s.core c).ni.out num

/-- An entry of a core's task queue. -/
def State.entry (s : State) (c n : Nat) : Option TaskEntry := mget (s.core c).queue n

/-- State and grant of a lease. -/
def Claims.leaseIs (s : State) (c h : Nat) (st : LeaseState) (g : Nat) : Prop :=
  (s.lease c h).map (fun l => (l.state, l.granted)) = some (st, g)

/-- An instruction is due with its operands, after what was due already. -/
def Claims.nowDue (s t : State) (i : Instr) (g : Given) : Prop :=
  ∃ r, t.agenda = s.agenda ++ { step := i, given := g } :: r

/-- Counter c of a die. -/
def State.counterAt (s : State) (d n : Nat) : Counter := (s.die d).counter n

/-- A request at the head of its interface passes checks 1 to 3 of R319 but for what it names. -/
def Claims.reqOk (s : State) (q i : Nat) (b : List Byte) (op : Nat) : Prop :=
  s.given = .request q i b ∧ (∃ r, (s.queue q).todo = (i, b) :: r) ∧ reqBits b 0 0 8 = op ∧
    s.pasidBound (reqPasid b) = true ∧ (4 ≤ op → (s.queue q).fn = 0)

/-- A request has been completed with a status (R397). -/
def Claims.replied (s t : State) (q : Nat) (b : List Byte) (status : Nat) : Prop :=
  t.completions = s.completions ++ [(q, reqBits b 0 48 16, status, reqBits b 0 8 1)]

/-- The security core has sent one message. -/
def Claims.told (s t : State) (m : MgmtMsg) : Prop := t.mgmtOut = s.mgmtOut ++ [m]

/-- The state of a context. -/
def Claims.ctxState (s : State) (c : Nat) : Option CtxState := (s.context c).map (·.state)

/-! ### Convoys, faults of vector accesses, and rounding -/

/-- Nothing is due, no limit has closed the clk, and the strand at a place is the one that issues next, with no trap or interrupt of its
own before that (R72). -/
def Claims.issuesNext (s : State) (p : Place) : Prop :=
  s.agenda = [] ∧ s.turn ≠ closedTurn ∧ s.nextStrand = some p ∧ (s.strand p).pendTrap = [] ∧
  (s.strand p).interruptDue = false ∧ ((s.strand p).ending && !(s.strand p).mid) = false

/-- A member of a convoy, an integer vector instruction without flags, has been executed on a strand under the convoy's mask (R67): each
element from VSTARTk to VL − 1 that the mask makes active has the value of its row, computed from the strand as it was before the member;
nothing else changed but VSTARTk, the PC and INSTRET. -/
def Claims.memberDone (m : MImage) (k : Nat) (i : Instr) (t u : Strand) : Prop :=
  ∃ d f, Claims.vint t i = some (d, f) ∧
    (∀ e, t.sewW * (e + 1) ≤ 4096 → BitVec.ofNat t.sewW (elem (u.v d) t.sewW e) =
      if t.vec.vstart k ≤ e ∧ e < t.vec.vl ∧ (Claims.allElements i = true ∨ m.getLsbD e = true) then (f e).1
      else BitVec.ofNat t.sewW (elem (t.v d) t.sewW e)) ∧
    (∀ r, r ≠ d → u.v r = t.v r) ∧ u.scalars = t.scalars ∧ u.masks = t.masks ∧ u.routes = t.routes ∧
    u.vec = t.vec.setVstart k 0 ∧ u.pc = t.pc + 4 ∧ u.time.instret = t.time.instret + 1 ∧ u.loops = t.loops ∧ u.run = t.run

/-- The members of a convoy from member k on, executed one after another. -/
def Claims.membersDone (m : MImage) : Nat → List Instr → Strand → Strand → Prop
  | _, [], t, u => u.vectors = t.vectors ∧ u.scalars = t.scalars ∧ u.masks = t.masks ∧ u.routes = t.routes ∧ u.vec = t.vec ∧
      u.pc = t.pc ∧ u.time.instret = t.time.instret ∧ u.loops = t.loops ∧ u.run = t.run
  | k, i :: r, t, u => ∃ x, Claims.memberDone m k i t x ∧ Claims.membersDone m (k + 1) r x u

/-- A convoy has trapped at member k (R66, R107): TEPC at the first member, and nothing of the convoy executed. -/
def Claims.convoyTrap (s t : State) (p : Place) (k cause : Nat) (tval : Word) : Prop :=
  Claims.trapped s t p cause tval ∧ (t.strand p).trap.tepc = addr57 (s.strand p).pc ∧
  (t.strand p).trap.member = BitVec.ofNat 2 k ∧ (t.strand p).vectors = (s.strand p).vectors ∧
  (t.strand p).masks = (s.strand p).masks ∧ (t.strand p).loft = (s.strand p).loft ∧
  (t.strand p).vec = (s.strand p).vec ∧ (t.strand p).time.instret = (s.strand p).time.instret ∧ s.othersAs t p

/-- A vector access has stopped at element e (R167): VSTART0 records it, and no register but perhaps a vector register changed. -/
def Claims.stoppedAt (s t : State) (e : Nat) : Prop :=
  t.me.vec = { s.me.vec with vstart0 := e } ∧ t.me.scalars = s.me.scalars ∧ t.me.masks = s.me.masks ∧ t.me.routes = s.me.routes ∧
  t.me.task = s.me.task ∧ t.me.held = s.me.held ∧ t.me.time.instret = s.me.time.instret ∧ s.othersAs t s.cur.place

/-- The strand has trapped at the instruction, at element e (R74, R167). -/
def Claims.elementTrap (s t : State) (e cause : Nat) (tval : Word) : Prop :=
  Claims.stoppedAt s t e ∧ t.me.trap.tcause = BitVec.ofNat 8 cause ∧ t.me.trap.tval = tval ∧ t.me.trap.tepc = addr57 s.me.pc ∧
  t.me.trap.member = 0 ∧ t.me.trap.ppriv = false ∧ t.me.trap.priv = true ∧ t.me.trap.uieOn = false ∧ t.me.pc = s.me.trap.tvec ∧
  t.me.run = .ready

/-- The strand waits for the page of element e (R56, R167): PARKED at its instruction with the page service that it is attached to, or
STALLED where the station has no record free (R356). -/
def Claims.elementParked (s t : State) (e : Nat) (va : Word) (kind : Nat) : Prop :=
  Claims.stoppedAt s t e ∧ t.me.pc = s.me.pc ∧ t.me.trap = s.me.trap ∧
  (t.attached s.cur.place = true → t.me.run = .parked ∧ t.me.wait = .page va.toNat kind) ∧
  (t.attached s.cur.place = false → t.me.run = .stalled ∧ t.me.lack = .service va.toNat kind)

/-- The elements below the stop are loaded, and every other element and register keeps its value. -/
def Claims.loadedBelow (s t : State) (p : Place) (d : VReg) (f : VForm) (c : VScan) : Prop :=
  (∀ r, r ≠ d → t.me.v r = s.me.v r) ∧
  ∀ k, s.me.sewW * (k + 1) ≤ 4096 → elem (t.me.v d) s.me.sewW k =
    match c.good.find? fun g => g.1 == k with
    | some g => (c.st.vcache p c.good).vread p f.acc g.2
    | none => elem (s.me.v d) s.me.sewW k

/-- The value of a finite number. -/
def Claims.val : FVal → Rat
  | .fin neg m e => (if neg then -1 else 1) * (m : Rat) * (2 : Rat) ^ e
  | _ => 0

/-- Whether a value is finite. -/
def Claims.isFinite : FVal → Bool
  | .fin .. => true
  | _ => false

/-- Whether an inexact magnitude between k and k + 1 units goes up (R96), by the magnitude y. -/
def Claims.goesUp (mode : Nat) (neg : Bool) (k : Nat) (y u : ℝ) : Prop :=
  let d := y - k * u
  match mode with
  | 0 => u < 2 * d ∨ (u = 2 * d ∧ k % 2 = 1)
  | 1 => False
  | 2 => neg = true
  | 3 => neg = false
  | _ => u ≤ 2 * d

/-- r units of 2^q are a magnitude y rounded to mw + 1 significant bits, or to fewer where a least unit is reached. -/
def Claims.roundedTo (mw mode : Nat) (neg : Bool) (least : Option Int) (y : ℝ) (r : Nat) (q : Int) : Prop :=
  ∃ k : Nat, k < 2 ^ (mw + 1) ∧ (2 ^ mw ≤ k ∨ least = some q) ∧ (∀ l, least = some l → l ≤ q) ∧
    k * (2 : ℝ) ^ q ≤ y ∧ y < (k + 1) * (2 : ℝ) ^ q ∧
    (y = k * (2 : ℝ) ^ q → r = k) ∧
    (y ≠ k * (2 : ℝ) ^ q → (Claims.goesUp mode neg k y ((2 : ℝ) ^ q) → r = k + 1) ∧
      (¬Claims.goesUp mode neg k y ((2 : ℝ) ^ q) → r = k))

/-- A code and its flags are an exact non-zero value, of a sign and a magnitude y, rounded once into a format with infinities (R96, R97):
overflow is decided after rounding, and so is tininess. -/
def Claims.rounds (f : FFmt) (mode : Nat) (neg : Bool) (y : ℝ) (c : Nat × BitVec 8) : Prop :=
  ∃ r q, Claims.roundedTo f.mw mode neg (some (f.emin - f.mw)) y r q ∧
    let z : ℝ := r * (2 : ℝ) ^ q
    let most : ℝ := (2 ^ (f.mw + 1) - 1) * (2 : ℝ) ^ ((f.bias : Int) - f.mw)
    (most < z → c.2 = flagOF ||| flagNX ∧
      c.1 = f.signed neg (if mode = 0 ∨ mode = 4 ∨ (mode = 3 ∧ neg = false) ∨ (mode = 2 ∧ neg = true) then f.infMag else f.infMag - 1)) ∧
    (z ≤ most → (∃ m e, f.dec c.1 = .fin neg m e ∧ (m : ℝ) * (2 : ℝ) ^ e = z) ∧ c.1 < 2 * f.signW ∧
      (z = y → c.2 = 0) ∧
      (z ≠ y → ∃ r' q', Claims.roundedTo f.mw mode neg none y r' q' ∧
        c.2 = if (r' : ℝ) * (2 : ℝ) ^ q' < (2 : ℝ) ^ f.emin then flagUF ||| flagNX else flagNX))

end Sys2Proof.Machine
end

