-- ==== Sys2Proof/Certificates/Slice0/Obligations.lean ====
section
/-!
DEFINITION. The statements for the provers, one proposition each. The docstring of each names the rules it is about.
-/

open Sys2Proof Sys2Proof.Machine

/-! ### Encoding -/

/-- Words printed in the spec decode to the instruction that stands beside them, and the zero word is refused as an
undefined function. (R104, R108, R141, R175, R228) -/
def Obligations.SpecWordsDecode : Prop :=
  decode 0x0238A30D = .ok (.div 7 5 6) ∧ decode 0x1028B003 = .ok (.srai 5 5 3) ∧
  decode 0x1E28C008 = .ok (.ldw 5 6 8) ∧ decode 0x6400A000 = .ok (.mlds 5) ∧ decode 0x64000002 = .ok .mswap ∧
  decode 0x5E386280 = .ok (.wlease 7 3 5) ∧ decode 0x5E38A001 = .ok (.wrelease 7 5) ∧ decode 0x00000001 = .ok .ecall ∧
  decode 0x00000000 = .error .undefinedFunction

/-- For every well-formed instruction with an encoding, with every operand at every value, decoding its word gives the
instruction back; a step without an encoding has no word. (R101, R102, R103, R104, R105) -/
def Obligations.DecodeEncodeAgree : Prop :=
  ∀ i : Instr, Sys2Proof.Laws.Encoding.Statement i

/-- Whenever a word decodes to an instruction, the instruction is well formed and its encoding is that very word: no two
words decode to one instruction, and no bit of a word is ignored. (R28, R36, R102, R103, R104, R106) -/
def Obligations.DecodedIsWellFormed : Prop :=
  ∀ (w : IWord) (i : Instr), decode w = .ok i → i.wf = true ∧ encode i = some w

/-! ### One step -/

/-- When nothing is due, the clk is not closed by a limit, the strand whose turn it is has no pending trap, no interrupt
due and no ended kernel, and the word it fetches at its PC stands outside a convoy and decodes to an instruction,
the step is that instruction executed in the state in which the strand has issued (with the fetched words in the
replay buffer and their lines in the instruction cache, and the bank marked that a full/empty access names); a word
of a convoy, and a vector word at which a pause may fall (log 86, the model's choice), begins the convoy at the PC.
(R59, R66, R72, R106, R107, R133) -/
def Obligations.StepRunsDecoded : Prop :=
  ∀ (s : State) (p : Place) (w : IWord),
    s.agenda = [] → s.turn ≠ closedTurn → s.nextStrand = some p → (s.strand p).pendTrap = [] →
    (s.strand p).interruptDue = false → ((s.strand p).ending && !(s.strand p).mid) = false →
    s.fetch p (s.strand p) (s.strand p).pc = .word w →
    let convoy := convoyMajor (wordMajor w) && (wordC w || s.mayPause p)
    (convoy = true → step s = .next ((s.issueAs p).issueConvoy p (s.strand p))) ∧
    ∀ i, convoy = false → decode w = .ok i →
      step s = exec i (((s.issueAs p).noted p i).fetched p (s.strand p) (s.strand p).pc w)

/-- In the same situation, a word that the decoder refuses raises ILLEGAL on its strand with TVAL holding the word. When
one step is due, its place in the clk allows it and no limit has closed the clk, the step of the machine is that
step executed with its own operands and taken off the agenda, or, as the open choice of log 2 falls, what comes when
nothing is chosen. (R76, R106, 95_what_each_step_holds) -/
def Obligations.StepsWithoutInstruction : Prop :=
  (∀ (s : State) (p : Place) (w : IWord) (e : DecodeError),
    s.agenda = [] → s.turn ≠ closedTurn → s.nextStrand = some p → (s.strand p).pendTrap = [] →
    (s.strand p).interruptDue = false → ((s.strand p).ending && !(s.strand p).mid) = false →
    s.fetch p (s.strand p) (s.strand p).pc = .word w →
    (convoyMajor (wordMajor w) && (wordC w || s.mayPause p)) = false →
    decode w = .error e →
    step s = .next ((s.issueAs p).raise p causeIllegal (w.setWidth 64))) ∧
  (∀ (s : State) (d : Due), s.agenda = [d] → s.turn ≠ closedTurn →
    (step s = if Config.pick s.draws % 2 = 0 ∧ s.mayTake d = true then exec d.step (s.takeDue 0 d)
      else ({ s with draws := s.draws + 1 } : State).advance) ∧
    (s.takeDue 0 d).given = d.given ∧ (s.takeDue 0 d).agenda = [] ∧ (s.takeDue 0 d).cores = s.cores ∧
    (s.takeDue 0 d).mem = s.mem)

/-- For every state and every word that decodes to an instruction outside a convoy, the step after State.withFetchWord
executes that instruction for a bound strand at the placed address. State.withFetchWord is the model's loading of a
program (log 1, DESIGN CHOICE): a LOCKED context 1, a kernel 0 on core 0, and its strand 0 READY at 0x8000. (R101,
R106) -/
def Obligations.PlacedInstructionRuns : Prop :=
  ∀ (s : State) (w : Nat) (i : Instr), w < 2 ^ 32 → decode (BitVec.ofNat 32 w) = .ok i →
    (wordC (BitVec.ofNat 32 w) && convoyMajor (wordMajor (BitVec.ofNat 32 w))) = false →
    ∃ t : State, step (s.withFetchWord 32 w) = exec i t ∧ t.bound = true ∧ t.me.pc = BitVec.ofNat 64 placedAt ∧
      t.mem = (s.withFetchWord 32 w).mem

/-! ### Memory and reset -/

/-- From every state whose memory lists strictly rising addresses and no byte equal to what an unlisted one reads as,
every step that answers a next state gives one whose memory does so too. (R15, R52, R248, R362) -/
def Obligations.MemoryStaysCanonical : Prop :=
  ∀ s t : State, Memory.wf s.mem = true → step s = .next t → Memory.wf t.mem = true

/-- In the reset state every core is FREE with no strand bound and every bay at generation 0, no context and no kernel
exists, every byte of device memory reads 0, memory is in its canonical form, and the first step is the next clk.
That reset is the state after a successful cold start is the model's reading (log 4, DEDUCED), and that unwritten
device memory reads 0 is its choice (logs 10 and 23). (R23, R55, R56, R391) -/
def Obligations.ResetIsIdle : Prop :=
  Memory.wf State.reset.mem = true ∧
  (∀ c, (State.reset.core c).owner.id = 0 ∧ (State.reset.core c).bayGen = [] ∧
    ∀ k, ((State.reset.core c).strand k).run = .unbound) ∧
  State.reset.contexts = [] ∧ State.reset.kernels = [] ∧
  (∀ d key pa, pa < deviceSize → State.reset.physByte d key 0 pa = 0) ∧
  step State.reset = .next { State.reset.tick with now := 1 }

/-! ### Scalar arithmetic -/

/-- For every bound strand, the ALU instructions but the divisions, the shifts by an immediate, LUI and ADDPC complete:
the destination takes the value of their row (s0 discards it), INSTRET counts one, the PC moves on, and nothing else
of the machine changes. (R119, R121, R122, R123, R117) -/
def Obligations.ScalarResults : Prop :=
  ∀ (i : Instr) (s : State) (d : SReg) (v : Word), s.bound = true → Claims.scalarValue s.me i = some (d, v) →
    exec i s = s.done fun t => t.setS d v

/-- ADDI, ANDI, ORI, XORI, SLTI and SLTIU give a + i, a and i, a or i, a xor i, 1 if sa < i read signed, and 1 if a < i
read unsigned, with i the sign-extended immediate, for every bound strand; SLTIU with 1 gives 1 exactly when sA is
0. (R121) -/
def Obligations.ImmediateResults : Prop :=
  (∀ (s : State) (d a : SReg) (imm : BitVec 13), s.bound = true →
    exec (.addi d a imm) s = (s.done fun t => t.setS d (t.s a + imm.signExtend 64)) ∧
    exec (.andi d a imm) s = (s.done fun t => t.setS d (t.s a &&& imm.signExtend 64)) ∧
    exec (.ori d a imm) s = (s.done fun t => t.setS d (t.s a ||| imm.signExtend 64)) ∧
    exec (.xori d a imm) s = (s.done fun t => t.setS d (t.s a ^^^ imm.signExtend 64)) ∧
    exec (.slti d a imm) s =
      (s.done fun t => t.setS d (if (t.s a).toInt < (imm.signExtend 64).toInt then 1 else 0)) ∧
    exec (.sltiu d a imm) s =
      (s.done fun t => t.setS d (if (t.s a).toNat < (imm.signExtend 64).toNat then 1 else 0))) ∧
  ∀ (s : State) (d a : SReg), s.bound = true →
    exec (.sltiu d a 1) s = (s.done fun t => t.setS d (if t.s a = 0 then 1 else 0))

/-- MULH writes bits 127 to 64 of the signed product taken at 128 bits, MULHU those of the unsigned product. CLZ writes
the number n with every bit above position 63 - n clear and, for a non-zero operand, bit 63 - n set, and 64 for 0;
CTZ the same from below; POPC the number of 1 bits. (R119) -/
def Obligations.HighProductsAndCounts : Prop :=
  (∀ (s : State) (d a b : SReg), s.bound = true →
    exec (.mulh d a b) s =
      (s.done fun t => t.setS d (((t.s a).signExtend 128 * (t.s b).signExtend 128).extractLsb' 64 64)) ∧
    exec (.mulhu d a b) s =
      (s.done fun t => t.setS d (((t.s a).setWidth 128 * (t.s b).setWidth 128).extractLsb' 64 64))) ∧
  (∀ (s : State) (d a : SReg), s.bound = true → d ≠ 0 →
    (∃ n, exec (.clz d a) s = (s.done fun t => t.setS d (BitVec.ofNat 64 n)) ∧ n ≤ 64 ∧
      (∀ k, 64 - n ≤ k → (s.me.s a).getLsbD k = false) ∧ (n < 64 → (s.me.s a).getLsbD (63 - n) = true)) ∧
    (∃ n, exec (.ctz d a) s = (s.done fun t => t.setS d (BitVec.ofNat 64 n)) ∧ n ≤ 64 ∧
      (∀ k, k < n → (s.me.s a).getLsbD k = false) ∧ (n < 64 → (s.me.s a).getLsbD n = true)) ∧
    exec (.popc d a) s =
      (s.done fun t => t.setS d (BitVec.ofNat 64 ((List.range 64).filter fun k => (t.s a).getLsbD k).length)))

/-- DIV and REM give the quotient rounded toward zero and the remainder with the sign of the dividend; a zero divisor
gives -1 (2^64 - 1 unsigned) and the dividend and sets IDZ, MIN / -1 gives MIN and 0 and sets IOV; the flag is kept
on a vector strand only. (R120, R37) -/
def Obligations.DivisionResults : Prop :=
  ∀ (s : State) (d a b : SReg), s.bound = true →
    let x := s.me.s a
    let y := s.me.s b
    let corner := x = BitVec.intMin 64 ∧ y = -1
    let sf : BitVec 8 := if y = 0 then flagIDZ else if corner then flagIOV else 0
    let uf : BitVec 8 := if y = 0 then flagIDZ else 0
    let to' := fun (f : BitVec 8) (v : Word) => s.done fun t => (t.addFlags (s.isVector s.cur.place) f).setS d v
    exec (.div d a b) s = to' sf (if y = 0 then -1 else if corner then x else x.sdiv y) ∧
    exec (.rem d a b) s = to' sf (if y = 0 then x else if corner then 0 else x.srem y) ∧
    exec (.divu d a b) s = to' uf (if y = 0 then -1 else x / y) ∧
    exec (.remu d a b) s = to' uf (if y = 0 then x else x % y)

/-- When a scalar arithmetic instruction (division included) answers a next state, every other scalar register, every
mask, vector and route register, every control register but VFLAGS (divisions only) and INSTRET, every other strand
and every byte of memory are as before. (R117, R119, R120, R121, R122, R123) -/
def Obligations.ScalarFrame : Prop :=
  ∀ (i : Instr) (s s' : State) (d : SReg), Claims.scalarDest i = some d → exec i s = .next s' →
    s.me.sameBut s'.me d ∧ s.me.vec.sameButFlags s'.me.vec ∧
    (Claims.isDivision i = false → s'.me.vec = s.me.vec) ∧ s.othersAs s' s.cur.place ∧ s.memoryAs s' ∧ s'.mem = s.mem

/-! ### Loads, stores and atomics -/

/-- A load whose address passes the checks completes: from a local buffer that nothing holds back, with the bytes there;
from memory, with the bytes that the youngest overlapping buffered store forwards when it covers them, or with those
of the line in the data cache when no buffered store overlaps. LDB, LDH and LDW extend the sign, LDBU, LDHU and LDWU
zeros, LDD takes 64 bits. Nothing else changes but the granary's copy of a host line. (R124, R125, R251) -/
def Obligations.LoadResults : Prop :=
  ∀ (i : Instr) (s : State) (d a : SReg) (imm : BitVec 13) (n : Nat) (sg : Bool),
    s.bound = true → Claims.loadForm i = some (d, a, imm, n, sg) →
    let p := s.cur.place
    let x := s.me.s a + imm.signExtend 64
    let value := fun (b : List Byte) =>
      if sg then (BitVec.ofNat (8 * n) (leNat b)).signExtend 64 else BitVec.ofNat 64 (leNat b)
    (∀ off, s.target p s.me x n 0 = .buffer off → (s.core p.core).localWait (some p.strand) off n = none →
      (s.core p.core).localPoisoned off n = false →
      exec i s = s.done fun t => t.setS d (value ((s.core p.core).readLocal off n))) ∧
    (∀ pa e b, s.target p s.me x n 0 = .phys pa e → sbLookup (s.core p.core).sb pa n = .forward b →
      exec i s = (s.cacheHostLine (dieOf p.core) pa).done fun t => t.setS d (value b)) ∧
    (∀ pa e, s.target p s.me x n 0 = .phys pa e → sbLookup (s.core p.core).sb pa n = .miss →
      mhas s.owned (pa / 64) = false → mhas (s.core p.core).dcache (pa / 64) = true → s.physPoisoned pa n = false →
      exec i s = (s.cacheHostLine (dieOf p.core) pa).done fun t =>
        t.setS d (value (s.physRead (dieOf p.core) e.key e.gen pa n)))

/-- A load, store or atomic whose address is not a multiple of its size traps MISALIGN; one in the local window that its
unit may not reach, or outside the buffer, traps SPACE; one outside the window with an address of 2^57 or more traps
LOAD-PAGE or STORE-PAGE; TVAL is the address and the access has no other effect. Atomics and stores reach only G
through the window, loads W and G. (R46, R48, R124, R136) -/
def Obligations.AccessChecks : Prop :=
  ∀ (i : Instr) (s : State) (x : Word) (n kind : Nat), s.bound = true → Claims.access s.me i = some (x, n, kind) →
    let p := s.cur.place
    let window := x.toNat / 2 ^ 32 = 0xFF000000
    let space := x.toNat / 2 ^ 24 % 256
    let off := x.toNat % 2 ^ 24
    let limit := if space = 4 then 0x6000 else 98304
    let reach := (space = 4 ∨ kind = 0 ∧ space = 1) ∧ off + n ≤ limit
    (x.toNat % n ≠ 0 → exec i s = .next (s.raise p causeMisalign x)) ∧
    (x.toNat % n = 0 → window → ¬ reach → exec i s = .next (s.raise p causeSpace x)) ∧
    (x.toNat % n = 0 → ¬ window → 2 ^ 57 ≤ x.toNat →
      exec i s = .next (s.raise p (if kind = 0 then causeLoadPage else causeStorePage) x))

/-- A store to a local buffer that nothing holds back completes with the low bytes of its register at the offset,
little-endian, and every other byte of every buffer and of memory as before; a store to memory with room in the
store buffer completes with one entry added last, its drain due, and every byte of memory as before. No register
changes. (R126, R52, R3) -/
def Obligations.StoreResults : Prop :=
  ∀ (i : Instr) (s : State) (b a : SReg) (imm : BitVec 13) (n : Nat),
    s.bound = true → Claims.storeForm i = some (b, a, imm, n) →
    let p := s.cur.place
    let x := s.me.s a + imm.signExtend 64
    (∀ off, s.target p s.me x n 1 = .buffer off → (s.core p.core).localWait (some p.strand) off n = none →
      ∃ t, exec i s = .next t ∧ t.me = s.me.complete ∧ s.othersAs t p ∧
        (∀ k, k < n → (t.core p.core).readLocalByte (off + k) = (s.me.s b).extractLsb' (8 * k) 8) ∧
        (∀ c y, (c ≠ p.core ∨ y < off ∨ off + n ≤ y) → (t.core c).readLocalByte y = (s.core c).readLocalByte y) ∧
        ∀ d key gen pa, t.physByte d key gen pa = s.physByte d key gen pa) ∧
    (∀ pa e, s.target p s.me x n 1 = .phys pa e → (s.core p.core).sb.length < 16 →
      ∃ t, exec i s = .next t ∧ t.me = s.me.complete ∧ s.othersAs t p ∧ s.memoryAs t ∧
        (t.core p.core).sb = (s.core p.core).sb ++
          [{ strand := p.strand, pa := pa, bytes := leBytes n (s.me.s b).toNat, key := e.key, gen := e.gen }] ∧
        t.agenda = s.agenda ++ [{ step := .storeBufferDrain, given := .core p.core }])

/-- When traps are delivered and no byte is damaged, a load in any next state leaves every byte and every other strand
as before, and of its own strand every scalar register but its destination and every mask, vector and route
register; a store changes no register in any next state and no byte outside the bytes at the local offset it
computes. (R74, R124, R125, R126, R127) -/
def Obligations.AccessFrame : Prop :=
  (∀ (i : Instr) (s t : State) (d a : SReg) (imm : BitVec 13) (n : Nat) (sg : Bool),
    Claims.loadForm i = some (d, a, imm, n, sg) → s.delivers = true → s.poisoned = [] →
    (s.core s.cur.place.core).bad = [] → exec i s = .next t →
    s.othersAs t s.cur.place ∧ s.me.keepsBut t.me d ∧
    (∀ c y, (t.core c).readLocalByte y = (s.core c).readLocalByte y) ∧
    ∀ e key gen pa, isHost pa = false → t.physByte e key gen pa = s.physByte e key gen pa) ∧
  ∀ (i : Instr) (s t : State) (b a : SReg) (imm : BitVec 13) (n : Nat),
    Claims.storeForm i = some (b, a, imm, n) → s.delivers = true → exec i s = .next t →
    s.othersAs t s.cur.place ∧ s.me.keepsBut t.me 0 ∧
    (∀ e key gen pa, t.physByte e key gen pa = s.physByte e key gen pa) ∧
    ∀ c y, (∀ off, s.target s.cur.place s.me (s.me.s a + imm.signExtend 64) n 1 = .buffer off →
        c ≠ s.cur.place.core ∨ y < off ∨ off + n ≤ y) →
      (t.core c).readLocalByte y = (s.core c).readLocalByte y

/-- An atomic on a word of G that nothing holds back, or on a word of memory whose line no engine owns, completes once
none of the strand's stores is buffered and none of its operations unanswered: the destination takes the old word
sign-extended, the word becomes what the operation gives (a compare-and-swap that fails leaves it), and every other
local byte is as before. The memory form leaves every local byte as before, every byte of memory outside its line
unless it sets the D bits of its page, and every other device byte of its line that no die holds dirty and no other
key wrote; its way to the memory is then open. Until then the atomic is STALLED. (R136, R137, R247, R250, R254) -/
def Obligations.AtomicResults : Prop :=
  ∀ (i : Instr) (s : State) (op : AmoOp) (d a b : SReg) (wide : Bool),
    s.bound = true → Claims.atomicForm i = some (op, d, a, b, wide) →
    let p := s.cur.place
    let n := if wide then 8 else 4
    let new := fun (old : BitVec (8 * n)) => amoNew op old ((s.me.s b).setWidth (8 * n)) ((s.me.s d).setWidth (8 * n))
    let kind := if op = .cas then 4 else 3
    let out := (s.core p.core).ni.out.any fun e => e.2.ofStrand p.strand
    let clear := (s.core p.core).sbOf p.strand = false ∧ out = false
    (∀ off, s.target p s.me (s.me.s a) n kind = .buffer off → ¬ clear →
      exec i s = .next (s.stall p (if (s.core p.core).sbOf p.strand then .bufferStrand else .acks))) ∧
    (∀ off, s.target p s.me (s.me.s a) n kind = .buffer off → clear → (s.core p.core).localWait (some p.strand) off n = none →
      (s.core p.core).localPoisoned off n = false →
      let old : BitVec (8 * n) := BitVec.ofNat (8 * n) (leNat ((s.core p.core).readLocal off n))
      ∃ t, exec i s = .next t ∧ t.me = (s.me.setS d (old.signExtend 64)).complete ∧ s.othersAs t p ∧
        leNat ((t.core p.core).readLocal off n) = (new old).toNat ∧
        (∀ c y, (c ≠ p.core ∨ y < off ∨ off + n ≤ y) → (t.core c).readLocalByte y = (s.core c).readLocalByte y) ∧
        ∀ e key gen pa, t.physByte e key gen pa = s.physByte e key gen pa) ∧
    (∀ pa e, s.target p s.me (s.me.s a) n kind = .phys pa e → ¬ clear →
      exec i s = .next (s.stall p (if (s.core p.core).sbOf p.strand then .bufferStrand else .acks))) ∧
    (∀ pa e, s.target p s.me (s.me.s a) n kind = .phys pa e → clear →
      mhas s.owned (pa / 64) = false → s.memoryOpen p.core pa = true → s.physPoisoned pa n = false →
      let s1 := (s.recallAll (pa / 64)).cacheHostLine (dieOf p.core) pa
      let old : BitVec (8 * n) := BitVec.ofNat (8 * n) (leNat (s1.physRead (dieOf p.core) e.key e.gen pa n))
      ∃ t, exec i s = .next t ∧ t.me = (s.me.setS d (old.signExtend 64)).complete ∧ s.othersAs t p ∧
        leNat (t.physRead (dieOf p.core) e.key e.gen pa n) = (new old).toNat ∧
        (∀ c y, (t.core c).readLocalByte y = (s.core c).readLocalByte y) ∧
        (e.dirty = true → ∀ f key gen y, y / 64 ≠ pa / 64 → t.physByte f key gen y = s.physByte f key gen y) ∧
        (e.dirty = true → isHost pa = false → (∀ f y, y / 64 = pa / 64 → mget (s.die f).dirty y = none) →
          (mget s.lineKey (pa / 64) = none ∨ mget s.lineKey (pa / 64) = some e.key) →
          ∀ f y, y / 64 = pa / 64 → (y < pa ∨ pa + n ≤ y) → t.physByte f e.key e.gen y = s.physByte f e.key e.gen y))

/-! ### Control flow -/

/-- Outside a loop body a branch goes to PC + 4 times its offset when its comparison holds and otherwise completes; JAL
and JALR write PC + 4 and go to their target, JALR reading sA first, and a JALR target that is not a multiple of 4
traps MISALIGN with no register written. Inside a loop body each of them traps LOOP. (R128, R129, R132) -/
def Obligations.BranchesAndJumps : Prop :=
  (∀ (i : Instr) (s : State) (c : Bool) (imm : BitVec 13), s.bound = true → Claims.branch s.me i = some (c, imm) →
    (s.me.inBody = true → exec i s = .next (s.raise s.cur.place causeLoop (wordOf i))) ∧
    (s.me.inBody = false → exec i s = .next (s.setStrand s.cur.place
      (if c then s.me.completeAt (s.me.pc + imm.signExtend 64 * 4) else s.me.complete)))) ∧
  (∀ (s : State) (d : SReg) (imm : BitVec 19), s.bound = true → s.me.inBody = false →
    exec (.jal d imm) s = .next (s.setStrand s.cur.place
      ((s.me.setS d (s.me.pc + 4)).completeAt (s.me.pc + imm.signExtend 64 * 4)))) ∧
  (∀ (s : State) (d a : SReg) (imm : BitVec 13), s.bound = true → s.me.inBody = false →
    let x := s.me.s a + imm.signExtend 64
    (x.toNat % 4 = 0 → exec (.jalr d a imm) s = .next (s.setStrand s.cur.place
      ((s.me.setS d (s.me.pc + 4)).completeAt x))) ∧
    (x.toNat % 4 ≠ 0 → exec (.jalr d a imm) s = .next (s.raise s.cur.place causeMisalign x))) ∧
  (∀ (s : State) (d a : SReg) (imm : BitVec 13) (off : BitVec 19), s.bound = true → s.me.inBody = true →
    exec (.jal d off) s = .next (s.raise s.cur.place causeLoop (wordOf (.jal d off))) ∧
    exec (.jalr d a imm) s = .next (s.raise s.cur.place causeLoop (wordOf (.jalr d a imm))))

/-- With the nest not suspended, the level equal to the depth and the body within the enclosing body, a LOOP word with a
count starts a level at the next word and with count 0 goes past the body; otherwise, and for a register count of
2^32 or more, it traps LOOP. When an instruction completes at the last word of the innermost body and the nest is
not suspended, a pass that is left takes the PC back to the body with the count one lower; the last pass ends the
level, and the PC goes on after the body unless the enclosing body ends at the same word, whose level is then
stepped too. Anywhere else, and while the nest is suspended, the PC moves on by 4 and the nest stays. (R130, R133,
R134, R131) -/
def Obligations.LoopNest : Prop :=
  (∀ (i : Instr) (s : State) (level : Nat) (len : BitVec 5) (n : Nat), s.bound = true →
    Claims.loopForm s.me i = some (level, len, n) →
    let b1 := s.me.pc + BitVec.ofNat 64 (4 * (len.toNat + 1))
    let ok := n < 2 ^ 32 ∧ s.me.suspended = false ∧ level = s.me.loops.length ∧
      ∀ r, s.me.loops.head? = some r → b1.toNat ≤ r.last.toNat
    (ok → n ≠ 0 → ∃ t, exec i s = .next (s.setStrand s.cur.place t) ∧ t.pc = s.me.pc + 4 ∧
      t.loops = { remaining := n, initial := n, body := s.me.pc + 4, len := len.toNat } :: s.me.loops ∧
      t.scalars = s.me.scalars ∧ t.trap = s.me.trap) ∧
    (ok → n = 0 → exec i s = .next (s.setStrand s.cur.place (s.me.completeAt (b1 + 4)))) ∧
    (¬ ok → exec i s = .next (s.raise s.cur.place causeLoop (wordOf i)))) ∧
  ((∀ (t : Strand) (r : LoopRec) (rest : List LoopRec), t.suspended = false → t.loops = r :: rest →
    (t.pc = r.last → 1 < r.remaining →
      t.complete.pc = r.body ∧ t.complete.loops = { r with remaining := r.remaining - 1 } :: rest ∧
      t.complete.stepped = true) ∧
    (t.pc = r.last → r.remaining ≤ 1 → (∀ q, rest.head? = some q → q.last ≠ t.pc) →
      t.complete.pc = t.pc + 4 ∧ t.complete.loops = rest) ∧
    (t.pc = r.last → r.remaining ≤ 1 →
      t.complete.pc = ({ t with loops := rest } : Strand).complete.pc ∧
      t.complete.loops = ({ t with loops := rest } : Strand).complete.loops) ∧
    (t.pc ≠ r.last → t.complete.pc = t.pc + 4 ∧ t.complete.loops = t.loops ∧ t.complete.stepped = false)) ∧
  ∀ t : Strand, (t.suspended = true ∨ t.loops = []) → t.complete.pc = t.pc + 4 ∧ t.complete.loops = t.loops)

/-! ### Control registers and system functions -/

/-- At a privilege that may use the register, CSRR, and CSRS and CSRC with A = 0, write the register's value to sD and
nothing else; CSRW, CSRS and CSRC apply sA, old or sA, and old and not sA to the register and write the old value to
sD, unless that would leave an illegal VCFG on a vector strand. A supervisor register at user privilege traps PRIV
with the word. (R36, R38, R138) -/
def Obligations.CsrResults : Prop :=
  ∀ (s : State) (d a : SReg) (n : BitVec 11), s.bound = true →
    let p := s.cur.place
    let old := s.csrRead p s.me n.toNat
    let legal := fun (w : Word) => n.toNat ≠ 1 ∨ s.isVector p = false ∨ vcfgLegal w.toNat = true
    let write := fun (w : Word) =>
      Host.Outcome.next (((s.csrWrite p s.me n.toNat w).1).setStrand p
        (((s.csrWrite p s.me n.toNat w).2.setS d old).complete))
    (csrSup n.toNat = true → s.me.trap.priv = false →
      exec (.csrr d n) s = .next (s.raise p causePriv (wordOf (.csrr d n))) ∧
      exec (.csrw d a n) s = .next (s.raise p causePriv (wordOf (.csrw d a n))) ∧
      exec (.csrs d a n) s = .next (s.raise p causePriv (wordOf (.csrs d a n))) ∧
      exec (.csrc d a n) s = .next (s.raise p causePriv (wordOf (.csrc d a n)))) ∧
    ((csrSup n.toNat = false ∨ s.me.trap.priv = true) →
      exec (.csrr d n) s = (s.done fun t => t.setS d old) ∧
      exec (.csrs d 0 n) s = (s.done fun t => t.setS d old) ∧
      exec (.csrc d 0 n) s = (s.done fun t => t.setS d old) ∧
      (legal (s.me.s a) → exec (.csrw d a n) s = write (s.me.s a)) ∧
      (a ≠ 0 → legal (old ||| s.me.s a) → exec (.csrs d a n) s = write (old ||| s.me.s a)) ∧
      (a ≠ 0 → legal (old &&& ~~~s.me.s a) → exec (.csrc d a n) s = write (old &&& ~~~s.me.s a)))

/-- On a vector strand, CSRW, CSRS and CSRC whose result has an illegal VCFG field raise ILLEGAL with their word and
leave every register as it was; a legal result sets the five fields, and where it changes SEW, VLMAXS to the VLMAX
of the new SEW for the lanes of the partition (for the saved lane count in pass mode, which goes on) and VL to the
smaller of itself and that. A strand is bound with VLMAXS and VL 0. (R38) -/
def Obligations.VcfgWrites : Prop :=
  (∀ (i : Instr) (s : State) (d a : SReg) (w : Word), s.bound = true → s.isVector s.cur.place = true →
    let p := s.cur.place
    let old := s.csrRead p s.me 0x001
    ((i = .csrw d a 0x001 ∧ w = s.me.s a) ∨ (i = .csrs d a 0x001 ∧ a ≠ 0 ∧ w = old ||| s.me.s a) ∨
      (i = .csrc d a 0x001 ∧ a ≠ 0 ∧ w = old &&& ~~~s.me.s a)) →
    let f := fun (lo n : Nat) => (w.extractLsb' lo n).toNat
    let legal := f 0 2 ≠ 3 ∧ f 2 3 ≠ 7 ∧ f 5 3 ≤ 4 ∧ f 8 2 ≠ 3 ∧ f 10 3 ≤ 4
    let lanes := match s.me.pass with
      | some l => l
      | none => (s.core p.core).lanes p.strand
    let top := lanes * 8 * 32 / (8 * 2 ^ f 0 2)
    let set := { s.me.vec with sew := f 0 2, scope := f 2 3, space := f 5 3, vfmt := f 8 2, rnd := f 10 3 }
    (¬legal → exec i s = .next (s.raise p causeIllegal (wordOf i)) ∧
      (s.alone = true → s.delivers = true → ∃ t, exec i s = .next t ∧ Claims.trapTaken s t causeIllegal (wordOf i))) ∧
    (legal → exec i s = (s.done fun t => ({ t with
      vec := if f 0 2 = s.me.vec.sew then set else { set with vlmaxs := top, vl := min s.me.vec.vl top } } : Strand).setS d old))) ∧
  ∀ (s : State) (ctx : Nat) (q : Program) (gs : List (Nat × List Place)) (p : Place),
    (s.boundStrand ctx q gs p).vec.vlmaxs = 0 ∧ (s.boundStrand ctx q gs p).vec.vl = 0

/-- After CSRW by a strand that may use the register (a vector strand for the vector registers), the register reads as
the written value cut to its fields: whole for VSTRIDE, TVAL and TIMECMP, bits [56:2] for the addresses, the stated
low bits for the others, min with VLMAXS for VL, TSTATUS with its PRIV bit kept, and a read-only register as before.
TIMER reads as the written value in the next clk and counts every clk from there. UIP keeps of its bits 0 to 5 those
written as 1, and takes bit 6 as written, but that a bit that the device sets in the same clk is set after the
write. At supervisor privilege BAYLOCK locks the bays 0 to 61 written as 1, the writer the holder of those newly
locked; DUTYMODE reads as the module setting, a write to it on a fabric manager core is due at the security core and
on another core is discarded. A write to VLMAXS, an identity register, CYCLE, INSTRET or BARQ, and on a scalar
strand to a vector register, which reads 0, is discarded. (R36, R37, R39, R40, R41, R42, R43, R71, R77, R139, R140) -/
def Obligations.CsrWriteThenRead : Prop :=
  (∀ (s t : State) (d a : SReg) (n : BitVec 11) (v : Word), s.bound = true → s.me.trap.priv = true →
    s.isVector s.cur.place = true → s.me.pass = none → (n.toNat = 1 → vcfgLegal (s.me.s a).toNat = true) →
    Claims.csrKept s.me n.toNat (s.me.s a) = some v → exec (.csrw d a n) s = .next t →
    t.csrRead s.cur.place t.me n.toNat = v) ∧
  (∀ (s : State) (d a : SReg), s.bound = true → ∃ t, exec (.csrw d a 0x050) s = .next t ∧ ∀ k : Nat,
    ({ t with now := s.now + 1 + k } : State).csrRead s.cur.place t.me 0x050 = s.me.s a + BitVec.ofNat 64 k) ∧
  ∀ (s : State) (d a : SReg), s.bound = true →
    let p := s.cur.place
    let x := s.core p.core
    let w := s.me.s a
    let discarded := fun (n : BitVec 11) (old : Word) => exec (.csrw d a n) s = (s.done fun t => t.setS d old)
    (∃ t, exec (.csrw d a 0x031) s = .next t ∧ s.othersAs t p ∧ ∀ k : Nat, k < 7 →
      (t.csrRead p t.me 0x031).getLsbD k =
        ((if k < 6 then s.me.trap.uip.getLsbD k && w.getLsbD k else w.getLsbD k) ||
          (s.me.trap.uipAt == s.now && s.me.trap.uipSet.getLsbD k))) ∧
    (s.me.trap.priv = true → (∀ b, 62 ≤ b → mget x.locks b = none) →
      ∃ t, exec (.csrw d a 0x060) s = .next t ∧ s.othersAs t p ∧ (∀ b, mget (t.core p.core).locks b =
        if b < 62 ∧ w.getLsbD b = true then some ((mget x.locks b).getD p.strand) else none) ∧
      (msorted x.locks = true → t.csrRead p t.me 0x060 = w &&& 0x3FFFFFFFFFFFFFFF)) ∧
    s.csrRead p s.me 0x061 = BitVec.ofNat 64 s.duty ∧
    (s.me.trap.priv = true → isManager p.core = true → ∃ t, exec (.csrw d a 0x061) s = .next t ∧ t.duty = s.duty ∧
      s.othersAs t p ∧ Claims.nowDue s t .setDuty (.duty (w.toNat % 256))) ∧
    (s.me.trap.priv = true → isManager p.core = false → discarded 0x061 (BitVec.ofNat 64 s.duty)) ∧
    (∀ n : BitVec 11, n.toNat ∈ [0x008, 0x020, 0x021, 0x022, 0x023, 0x054, 0x055, 0x062] →
      discarded n (s.csrRead p s.me n.toNat)) ∧
    (s.isVector p = false → ∀ n : BitVec 11, n.toNat ≤ 0x00A → s.csrRead p s.me n.toNat = 0 ∧ discarded n 0)

/-- Outside a loop body ECALL, BREAK and TRAP trap with their cause and value and TEPC at the instruction itself; raised
at supervisor privilege they fault the kernel, whose strands become UNBOUND, one within a vector instruction once it
has ended it. UIRET at supervisor privilege raises ILLEGAL, which faults the kernel too; ERET and WFI raise PRIV at
user privilege. In a loop body ECALL, BREAK, TRAP and UIRET trap LOOP with their word: that the body comes before
UIRET's ILLEGAL is the model's choice (log 51). (R142, R75, R132, R328) -/
def Obligations.SystemCalls : Prop :=
  (∀ (i : Instr) (s : State) (cause : Nat) (v : Word), s.bound = true → s.alone = true → s.me.inBody = false →
    Claims.systemCall s.me i = some (cause, v) →
    (s.delivers = true → ∃ t, exec i s = .next t ∧ Claims.trapTaken s t cause v) ∧
    (∀ k q, s.me.trap.priv = true → s.me.ending = false → (s.core s.cur.place.core).kern = some k → mget s.kernels k = some q →
      q.state ≠ .faulted → q.state ≠ .retired →
      ∃ t, exec i s = .next t ∧ Claims.kernelFaulted s t k cause v)) ∧
  (∀ (s : State) (k : Nat) (q : Kernel), s.bound = true → s.me.trap.priv = true → s.me.inBody = false →
    s.me.ending = false → (s.core s.cur.place.core).kern = some k → mget s.kernels k = some q → q.state ≠ .faulted → q.state ≠ .retired →
    ∃ t, exec .uiret s = .next t ∧ Claims.kernelFaulted s t k causeIllegal 4) ∧
  (∀ s : State, s.bound = true → s.me.trap.priv = false →
    exec .eret s = .next (s.raise s.cur.place causePriv 3) ∧ exec .wfi s = .next (s.raise s.cur.place causePriv 5)) ∧
  ∀ (i : Instr) (s : State), s.bound = true → s.me.inBody = true → (i = .uiret ∨ (Claims.systemCall s.me i).isSome = true) →
    exec i s = .next (s.raise s.cur.place causeLoop (wordOf i))

/-- A delivered trap saves cause, value, address, privilege, UIE.ON and the handler flag, and runs the handler at TVEC
at supervisor privilege with interrupts off; ERET at supervisor privilege, outside a loop body, sets the PC to TEPC,
the privilege to PPRIV and UIE.ON to PUIEN and returns to the interrupt handler if INUI is 1; entering and returning
at once gives back the PC, the privilege, UIE.ON, every register and the suspension of the nest of an instruction at
an aligned address below 2^57. In a user-interrupt handler at user privilege, outside a loop body, UIRET sets the PC
to the shadow s31 with its low two bits dropped (which is the model's choice, log 82, where they are not 0), returns
the names to the ordinary copy, sets UIE.ON and resumes the nest; outside a handler it raises ILLEGAL with its word.
(R74, R75, R134, R73, R29) -/
def Obligations.TrapsAndReturns : Prop :=
  ((∀ (s : State) (p : Place) (cause : Nat) (v : Word), (s.strand p).trap.priv = false → (s.strand p).trap.tvec ≠ 0 →
    (s.strand p).ending = false → (s.cur.member = 0 ∨ s.cur.place ≠ p) →
    Claims.trapTaken { s with cur := { s.cur with place := p, member := 0 } }
      { (s.raise p cause v) with cur := { s.cur with place := p, member := 0 } } cause v) ∧
  (∀ s : State, s.bound = true → s.me.trap.priv = true → s.me.inBody = false → ∃ t, exec .eret s = .next t ∧ s.othersAs t s.cur.place ∧
    t.me.pc = s.me.trap.tepc ∧ t.me.trap.priv = s.me.trap.ppriv ∧ t.me.trap.uieOn = s.me.trap.puien ∧
    t.me.inUi = s.me.trap.inui ∧ t.me.suspTrap = false ∧ t.me.shadow = s.me.shadow ∧ t.me.scalars = s.me.scalars) ∧
  ∀ (t : Strand) (cause : Nat) (v : Word) (m : Nat), addr57 t.pc = t.pc → t.trap.priv = false →
    let u := (t.enterTrap cause v t.pc m).leaveTrap
    u.pc = t.pc ∧ u.trap.priv = false ∧ u.trap.uieOn = t.trap.uieOn ∧ u.inUi = t.inUi ∧ u.suspTrap = false ∧
    u.scalars = t.scalars ∧ u.vectors = t.vectors ∧ u.masks = t.masks ∧ u.routes = t.routes ∧ u.loops = t.loops) ∧
  (∀ s : State, s.bound = true → s.me.trap.priv = false → s.me.inBody = false →
    (s.me.inUi = true → ∃ t, exec .uiret s = .next t ∧ s.othersAs t s.cur.place ∧ t.me.pc = s.me.s 31 &&& ~~~3 ∧
      t.me.shadow = false ∧ t.me.inUi = false ∧ t.me.trap.uieOn = true ∧ t.me.suspUi = false ∧
      t.me.scalars = s.me.scalars) ∧
    (s.me.inUi = false → exec .uiret s = .next (s.raise s.cur.place causeIllegal 4)))

/-- Outside a loop body, at supervisor privilege on a quiescent core, SLOTW loads entries 0-15 from sA and 16-31 from sB
and completes, so that the next clk chooses by the new table; at any other time it raises ILLEGAL with TVAL holding
BARQ; at user privilege it raises PRIV. In a loop body, at supervisor privilege, it traps LOOP; that order, PRIV
before LOOP before ILLEGAL, is the model's choice (log 51). At supervisor privilege and outside a loop body WFI
makes its strand WAITING at the core barrier; the leader of a quiescent core instead completes, and every strand
that waited there is READY with its WFI completed. HALT outside a loop body, with no store of the strand buffered,
makes the strand UNBOUND and clears every bay lock it holds; in a body it traps LOOP, and while a store is buffered
it is STALLED. (R61, R132, R62, R77, R144) -/
def Obligations.CoreWideInstructions : Prop :=
  (∀ (s : State) (a b : SReg), s.bound = true →
    let p := s.cur.place
    (s.me.trap.priv = true → s.me.inBody = false → (s.core p.core).quiet = true → ∃ t, exec (.slotw a b) s = .next t ∧
      (t.core p.core).slot0 = s.me.s a ∧ (t.core p.core).slot1 = s.me.s b ∧ t.me = s.me.complete ∧ s.othersAs t p ∧
      ∀ e, e < 32 → (t.core p.core).slotEntry e = bits (if e < 16 then s.me.s a else s.me.s b).toNat (4 * (e % 16)) 4) ∧
    (s.me.trap.priv = true → s.me.inBody = true → exec (.slotw a b) s = .next (s.raise p causeLoop (wordOf (.slotw a b)))) ∧
    (s.me.trap.priv = true → s.me.inBody = false → (s.core p.core).quiet = false →
      exec (.slotw a b) s = .next (s.raise p causeIllegal (s.core p.core).barq)) ∧
    (s.me.trap.priv = false → exec (.slotw a b) s = .next (s.raise p causePriv (wordOf (.slotw a b))))) ∧
  ((∀ s : State, s.bound = true → s.me.trap.priv = true → s.me.inBody = false →
    let p := s.cur.place
    let leads := ((s.core p.core).quiescent && mhas (s.core p.core).barWaiting p.strand) = true
    (¬ leads → ∃ t, exec .wfi s = .next t ∧ t.me.run = .waiting ∧ t.me.wait = .coreBarrier ∧
      mhas (t.core p.core).barWaiting p.strand = true ∧ s.othersAs t p) ∧
    (leads → s.me.run = .ready → ∃ t, exec .wfi s = .next t ∧ (t.core p.core).barWaiting = [] ∧ (t.core p.core).quiescent = false ∧
      t.me.pc = s.me.complete.pc ∧
      ∀ k u, k ≠ p.strand → mget (s.core p.core).strands k = some u → u.run = .waiting → u.wait = .coreBarrier →
        (t.core p.core).strand k = u.finish 0)) ∧
  ∀ s : State, s.bound = true →
    let p := s.cur.place
    (s.me.inBody = true → exec .halt s = .next (s.raise p causeLoop 6)) ∧
    (s.me.inBody = false → (s.core p.core).sbOf p.strand = true → exec .halt s = .next (s.stall p .bufferStrand)) ∧
    (s.me.inBody = false → (s.core p.core).sbOf p.strand = false → ∃ t, exec .halt s = .next t ∧
      (t.strand p).run = .unbound ∧ (∀ b, mget (t.core p.core).locks b ≠ some p.strand) ∧ s.othersAs t p))

/-! ### Ordering, full/empty words and tasks -/

/-- FENCE and FENCEREL of scope none, and of another scope once the strand has no store in the store buffer and no
unanswered operation, and FENCEENG once its copy commands have ended too, complete and change no register; at module
scope or wider no dirty line is left in the die's granary; FENCE, FENCEACQ and FENCEENG of scope system drop the
host lines that the die caches. FENCEACQ waits for nothing. A release that finds a store of the strand buffered is
STALLED. That a release at module scope or wider writes back every dirty line of the die, not only those that the
strand wrote or acquired, is the model's choice (log 25). (R239, R240, R251, R252, R255) -/
def Obligations.FenceResults : Prop :=
  ∀ (s : State) (sc : Fin 7), s.bound = true →
    let p := s.cur.place
    let x := s.core p.core
    let out := x.ni.out.any fun e => e.2.ofStrand p.strand
    let clear := sc.val = 0 ∨ (x.sbOf p.strand = false ∧ out = false)
    let engines := x.copies.all fun e => !e.2.active || e.2.strand != p.strand
    let ends := fun (t : State) (acquires releases : Bool) =>
      t.me = s.me.complete ∧ s.othersAs t p ∧
      (acquires = true → sc.val = 6 → (t.die (dieOf p.core)).hostLines = []) ∧
      (releases = true → 4 ≤ s.effScope p sc.val → (t.die (dieOf p.core)).writers = [])
    (clear → ∃ t, exec (.fence sc) s = .next t ∧ ends t true true) ∧
    (clear → ∃ t, exec (.fencerel sc) s = .next t ∧ ends t false true) ∧
    (∃ t, exec (.fenceacq sc) s = .next t ∧ ends t true false) ∧
    (clear → x.sbOf p.strand = false → engines = true → ∃ t, exec (.fenceeng sc) s = .next t ∧ ends t true true) ∧
    (sc.val ≠ 0 → x.sbOf p.strand = true → exec (.fence sc) s = .next (s.stall p .bufferStrand) ∧
      exec (.fencerel sc) s = .next (s.stall p .bufferStrand)) ∧
    (x.sbOf p.strand = true → exec (.fenceeng sc) s = .next (s.stall p .bufferStrand))

/-- With the wake token set SLEEP (outside a loop body) and WFEV complete and clear it; otherwise the strand is WAITING.
YIELD makes the strand WAITING with its end due in 32 clk. Outside a loop body: WAKE completes, and a bound sibling
that neither sleeps nor waits for an event holds the wake token; SIGNAL with a legal scope and a clear release is
STALLED until its answer, with the decrement due, and scope 7 raises ILLEGAL; RECOAT with an aligned operand and
reserved bits 0 whose operands agree with those of the strands at the rendezvous makes the strand WAITING and the
kernel lists it there. (R234, R241, R235, R236) -/
def Obligations.EventsAndRendezvous : Prop :=
  (∀ (s : State) (sc : Fin 7), s.bound = true →
    let p := s.cur.place
    (s.me.inBody = false → s.me.wakeToken = true →
      exec .sleep s = (s.done fun t => { t with wakeToken := false })) ∧
    (s.me.inBody = false → s.me.wakeToken = false → ∃ t, exec .sleep s = .next t ∧ t.me.run = .waiting ∧
      t.me.wait = .sleep ∧ t.me.pc = s.me.pc ∧ s.othersAs t p) ∧
    (s.me.wakeToken = true → ∃ t, exec (.wfev sc) s = .next t ∧
      t.me = ({ s.me with wakeToken := false } : Strand).complete ∧ s.othersAs t p) ∧
    (s.me.wakeToken = false → ∃ t, exec (.wfev sc) s = .next t ∧ t.me.run = .waiting ∧ t.me.wait = .wfev sc.val ∧
      t.me.pc = s.me.pc ∧ s.othersAs t p) ∧
    (s.me.inBody = false → ∃ t, exec .yield s = .next t ∧ t.me.run = .waiting ∧ t.me.wait = .yield ∧
      t.timers = s.timers ++ [(s.now + 32, { step := .yieldExpiry, given := .place p })] ∧ s.othersAs t p)) ∧
  ((∀ (s : State) (a : SReg) (k : Nat), s.bound = true → s.me.inBody = false → s.me.run = .ready →
    bits (s.me.s a).toNat 0 3 = k → k ≠ s.cur.place.strand →
    let q : Place := { core := s.cur.place.core, strand := k }
    (s.strand q).run ≠ .unbound → (s.strand q).run ≠ .waiting →
    ∃ t, exec (.wake a) s = .next t ∧ t.me = s.me.complete ∧ t.strand q = { s.strand q with wakeToken := true }) ∧
  (∀ (s : State) (d a : SReg), s.bound = true → s.me.inBody = false →
    let p := s.cur.place
    let sc := bits (s.me.s a).toNat 16 3
    (sc = 7 → exec (.signal d a) s = .next (s.raise p causeIllegal (wordOf (.signal d a)))) ∧
    (sc ≠ 7 → s.releaseWait p sc = none → ∃ t, exec (.signal d a) s = .next t ∧ t.me.run = .stalled ∧
      t.me.wait = .answer ∧ t.me.waitReg = d ∧ s.othersAs t p ∧
      ∃ r, t.agenda = r ++ [⟨.counterSignal,
        .signal (bits (s.me.s a).toNat 12 4) (bits (s.me.s a).toNat 0 12) (s.ctxOf p) p true sc⟩])) ∧
  ∀ (s : State) (a b : SReg) (k : Nat) (q : Kernel), s.bound = true → s.me.inBody = false →
    (s.me.s a).toNat % 256 = 0 → (s.me.s b).toNat < 2 ^ 14 → (s.core s.cur.place.core).kern = some k →
    mget s.kernels k = some q → (∀ r ∈ q.rendezvous, r.2 = (s.me.s a, s.me.s b)) →
    ∃ t, exec (.recoat a b) s = .next t ∧ t.me.run = .waiting ∧ t.me.wait = .recoat ∧ s.othersAs t s.cur.place ∧
      (mget t.kernels k).map (·.rendezvous) = some (q.rendezvous ++ [(s.cur.place, s.me.s a, s.me.s b)]))

/-- On an aligned G word below the loft that nothing holds back and no strand waits at: a full word is read by LDFULL,
which empties it, and by LDFULLK, which keeps it; an empty one is filled with sD by STFULL; STFILL fills and FECLR
empties in either case; each completes and leaves every other word's bytes and tags alone. LDFULL and LDFULLK on an
empty word, and STFULL on a full one, make the strand WAITING. (R49, R213, R237, R238) -/
def Obligations.FullEmptyResults : Prop :=
  ∀ (s : State) (d a : SReg), s.bound = true → s.me.run = .ready →
    let p := s.cur.place
    let x := s.core p.core
    let g := (s.me.s a).toNat
    let free := g % 8 = 0 ∧ g + 8 ≤ 0x6000 ∧ x.localWait (some p.strand) (0x38000 + g) 8 = none ∧
      x.localPoisoned (0x38000 + g) 8 = false ∧ x.feWaiters g [0, 1, 2] = []
    let clear := x.sbOf p.strand = false ∧ (x.ni.out.any fun e => e.2.ofStrand p.strand) = false
    let ends := fun (i : Instr) (t' : Strand) (v : Word) (full : Bool) => ∃ t, exec i s = .next t ∧ t.me = t'.complete ∧
      (t.core p.core).feWord g = v ∧ (t.core p.core).isFull (g / 8) = full ∧
      (∀ w, w ≠ g / 8 → (t.core p.core).isFull w = x.isFull w) ∧
      ∀ y, (y < 0x38000 + g ∨ 0x38000 + g + 8 ≤ y) → (t.core p.core).readLocalByte y = x.readLocalByte y
    let waits := fun (i : Instr) (k : Nat) => ∃ t v, exec i s = .next t ∧ t.me.run = .waiting ∧ t.me.wait = .fe g k v ∧
      s.memoryAs t ∧ s.othersAs t p
    (free → x.isFull (g / 8) = true →
      ends (.ldfull d a) (s.me.setS d (x.feWord g)) (x.feWord g) false ∧
      ends (.ldfullk d a) (s.me.setS d (x.feWord g)) (x.feWord g) true ∧
      (clear → waits (.stfull d a) 2)) ∧
    (free → x.isFull (g / 8) = false →
      waits (.ldfull d a) 0 ∧ waits (.ldfullk d a) 1 ∧ (clear → ends (.stfull d a) s.me (s.me.s d) true)) ∧
    (free → clear → ends (.stfill d a) s.me (s.me.s d) true) ∧
    (free → ends (.feclr a) s.me (x.feWord g) false)

/-- Outside a loop body, TAKE by a strand that holds no task takes the selected packet from the queue: sD becomes ENTRY,
s10 to s14 the arguments, the task registers the packet's formats, scales, TASKID and current PRIO, and the task is
held; with no packet the strand is WAITING; with a task held it raises ILLEGAL. RETIRE of a held task, once the
release is clear, completes and ends it, and makes the decrement due that SIGNAL asks for; without a task it raises
ILLEGAL. (R233, R234, R303, R305) -/
def Obligations.TakeAndRetire : Prop :=
  (∀ (s : State) (d : SReg), s.bound = true → s.me.inBody = false →
    let p := s.cur.place
    (s.me.held ≠ none → exec (.take d) s = .next (s.raise p causeIllegal (wordOf (.take d)))) ∧
    (s.me.held = none → (s.core p.core).select s.me = none → ∃ t, exec (.take d) s = .next t ∧ t.me.run = .waiting ∧
      t.me.wait = .take ∧ s.othersAs t p) ∧
    (∀ n e, s.me.held = none → (s.core p.core).select s.me = some (n, e) → ∃ t, exec (.take d) s = .next t ∧
      s.othersAs t p ∧ mget (t.core p.core).queue n = none ∧ t.me.held ≠ none ∧
      (d ≠ 0 → t.me.s d = BitVec.ofNat 64 (bits e.packet.toNat 0 48)) ∧
      (∀ k, k < 5 → d.val ≠ 10 + k → t.me.s (Fin.ofNat 32 (10 + k)) = BitVec.ofNat 64 (bits e.packet.toNat (128 + 64 * k) 64)) ∧
      t.me.task.taskid.toNat = bits e.packet.toNat 448 32 ∧ t.me.task.taskpri.toNat = e.prio % 4 ∧
      t.me.task.fmta.toNat = bits e.packet.toNat 64 5 ∧ t.me.task.fmtb.toNat = bits e.packet.toNat 69 5 ∧
      t.me.task.fmtc.toNat = bits e.packet.toNat 74 5 ∧ t.me.task.scla.toNat = bits e.packet.toNat 80 18 ∧
      t.me.task.sclb.toNat = bits e.packet.toNat 98 18)) ∧
  ∀ (s : State) (a : SReg), s.bound = true → s.me.inBody = false →
    let p := s.cur.place
    (s.me.held = none → exec (.retire a) s = .next (s.raise p causeIllegal (wordOf (.retire a)))) ∧
    (∀ h, s.me.held = some h → s.releaseWait p (max 1 h.scope) = none → ∃ t, exec (.retire a) s = .next t ∧
      t.me = ({ s.me with held := none } : Strand).complete ∧ s.othersAs t p ∧
      (h.signal = true → ∃ r, t.agenda = r ++ [⟨.counterSignal,
        .signal (bits (s.me.s a).toNat 12 4) (bits (s.me.s a).toNat 0 12) (s.ctxOf p) p false h.scope⟩]))

/-- Outside a loop body, POST of 64 readable bytes at an aligned G offset with a free queue entry and no foreign counter
completes with sD = 1 and the packet in the lowest free entry, ELIGIBLE or waiting for its arm as DEPV says (when no
strand waits in TAKE), and with the queue full or a foreign counter with sD = 0 and the queue as before; POSTW over
a route that passes its checks completes and its packet is unanswered at the NI. (R233, R234, R304) -/
def Obligations.PostResults : Prop :=
  (∀ (s : State) (d a : SReg) (b : List Byte), s.bound = true → s.me.inBody = false → s.me.run = .ready →
    let p := s.cur.place
    let x := s.core p.core
    let w : WorkPacket := BitVec.ofNat 512 (leNat b)
    gCheck (s.me.s a) 64 64 = none → s.fetchLocal p (0x38000 + (s.me.s a).toNat) 64 = .bytes b →
    (mfree x.queue 64 = none ∨ s.foreignCounter p.core (s.ctxOf p) w = true →
      exec (.post d a) s = (s.done fun t => t.setS d 0)) ∧
    (∀ n, mfree x.queue 64 = some n → s.foreignCounter p.core (s.ctxOf p) w = false → s.releaseWait p 1 = none →
      (x.strands.all fun e => e.2.run != .waiting || e.2.wait != .take) = true →
      ∃ t, exec (.post d a) s = .next t ∧ t.me = (s.me.setS d 1).complete ∧ s.othersAs t p ∧
        (mget (t.core p.core).queue n).map (fun e => (e.packet, e.prio, e.state)) =
          some (w, bits w.toNat 48 2, if bit w.toNat 79 then .waiting else .eligible))) ∧
  ∀ (s : State) (a : RReg) (b : SReg) (data : List Byte), s.bound = true → s.me.inBody = false → s.sends = true →
    let p := s.cur.place
    let w := s.me.w a
    let prio := bits (leNat data) 48 2
    checkHead w (s.ctxOf p) a.val rightS [0x06, 0x86] = none → gCheck (s.me.s b) 64 64 = none →
    s.fetchLocal p (0x38000 + (s.me.s b).toNat) 64 = .bytes data → checkWindow w (unitOff w prio) 1 1 = none →
    s.releaseWait p (pathScope w) = none →
    ∃ t, exec (.postw a b) s = .next t ∧ t.me = s.me.complete ∧ s.othersAs t p ∧
      Claims.sent s t w a.val (.postw prio) data

/-! ### Vector instructions -/

/-- Every instruction that names a vector register, the matrix and fabric ones among them, raises NO-LANES with its word
on a strand that owns no lanes, whatever its other operands. On a vector strand a floating or special-function
instruction whose VCFG.SEW is not the width of the VFMT format raises ILLEGAL with its word; VSCAN whose destination
is its source does so too, and a vector store to space W traps SPACE with sA. (R30, R76, R106, R148, R48, R163,
R167) -/
def Obligations.VectorChecks : Prop :=
  (∀ (i : Instr) (s : State), s.bound = true → s.isVector s.cur.place = false → Claims.namesVector i = true →
    exec i s = .next (s.raise s.cur.place causeNoLanes (wordOf i))) ∧
  ((∀ (i : Instr) (s : State), s.bound = true → s.isVector s.cur.place = true → Claims.isFloat i = true →
    s.me.vec.sew ≠ (if s.me.vec.vfmt = 0 then 2 else 1) →
    exec i s = .next (s.raise s.cur.place causeIllegal (wordOf i))) ∧
  (∀ (s : State) (c : Bool) (d : VReg), s.bound = true → s.isVector s.cur.place = true →
    exec (.vscan c d d) s = .next (s.raise s.cur.place causeIllegal (wordOf (.vscan c d d)))) ∧
  ∀ (s : State) (c : Bool) (d b : VReg) (a : SReg), s.bound = true → s.isVector s.cur.place = true →
    s.me.vec.space = 1 →
    exec (.vst c d a) s = .next (s.raise s.cur.place causeSpace (s.me.s a)) ∧
    exec (.vstx c d a b) s = .next (s.raise s.cur.place causeSpace (s.me.s a)))

/-- On a vector strand SETVL sets VLMAXS to lanes·256/SEW for the core's lanes, VL and sD to the smaller of it and the
request (VLMAXS when A = 0), the fields of VCFG to the word's, VSTART0 to VSTART3 to 0 and leaves pass mode; outside
pass mode no vector or mask register changes. On a scalar strand it writes 0 and changes nothing else. (R31, R37,
R69, R70, R152) -/
def Obligations.SetvlResults : Prop :=
  ∀ (s : State) (d a : SReg) (rnd : Fin 5) (vfmt : Fin 3) (sp : Fin 5) (sc : Fin 7) (sew : Fin 3), s.bound = true →
    let p := s.cur.place
    let lanes := (s.core p.core).lanes p.strand
    let top := lanes * 256 / (8 * 2 ^ sew.val)
    let vl := min (if a = 0 then top else (s.me.s a).toNat) top
    (s.isVector p = false → exec (.setvl d a rnd vfmt sp sc sew) s = (s.done fun t => t.setS d 0)) ∧
    (s.isVector p = true → ∃ t, exec (.setvl d a rnd vfmt sp sc sew) s = .next t ∧ s.othersAs t p ∧
      t.me.vec = { s.me.vec with
        rnd := rnd.val, vfmt := vfmt.val, space := sp.val, scope := sc.val, sew := sew.val, vlmaxs := top, vl := vl,
        vstart0 := 0, vstart1 := 0, vstart2 := 0, vstart3 := 0 } ∧
      t.me.pass = none ∧ (d ≠ 0 → t.me.s d = BitVec.ofNat 64 vl) ∧ (∀ r, r ≠ d → t.me.s r = s.me.s r) ∧
      (s.me.pass = none → t.me.vectors = s.me.vectors ∧ t.me.masks = s.me.masks))

/-- On a vector strand with the named registers resident, outside a convoy, an integer vector instruction without flags
(VADD to VMSUB, minima and maxima, logic, shifts, VMERGE, VMV, VABS) completes: each element from VSTART0 to VL - 1
that the mask makes active (for VMERGE every one) takes the value of its row computed at the element width from the
elements before the instruction; every other element and register keeps its value, and VSTART0 is 0. (R64, R65,
R146, R147, R153) -/
def Obligations.IntVectorResults : Prop :=
  ∀ (i : Instr) (s : State) (d : VReg) (f : Claims.ElemFn s.me.sewW), s.vecReady (Claims.vecNeeds i) = true →
    Claims.vint s.me i = some (d, f) →
    ∃ t, exec i s = .next t ∧ s.othersAs t s.cur.place ∧ s.memoryAs t ∧
      (∀ e, s.me.sewW * (e + 1) ≤ 4096 → BitVec.ofNat s.me.sewW (elem (t.me.v d) s.me.sewW e) =
        if s.me.vec.vstart0 ≤ e ∧ e < s.me.vec.vl ∧ (Claims.allElements i = true ∨ (s.me.m s.me.vec.vmsel).getLsbD e = true)
        then (f e).1 else BitVec.ofNat s.me.sewW (elem (s.me.v d) s.me.sewW e)) ∧
      Claims.vectorFrame s.me t.me (some d) ∧ t.me.vec = { s.me.vec with vstart0 := 0 }

/-- VDIV, VDIVU, VREM and VREMU follow the division rule at the element width and the saturating sums and differences
clamp; IDZ, IOV and SAT are added to VFLAGS exactly when an active element sets them. (R37, R151, R154) -/
def Obligations.FlaggedVectorResults : Prop :=
  ∀ (i : Instr) (s : State) (d : VReg) (f : Claims.ElemFn s.me.sewW), s.vecReady (Claims.vecNeeds i) = true →
    Claims.vintFlagged s.me i = some (d, f) →
    let active := fun (e : Nat) => decide (s.me.vec.vstart0 ≤ e) && decide (e < s.me.vec.vl) &&
      (s.me.m s.me.vec.vmsel).getLsbD e
    ∃ t, exec i s = .next t ∧ s.othersAs t s.cur.place ∧ s.memoryAs t ∧
      (∀ e, s.me.sewW * (e + 1) ≤ 4096 → BitVec.ofNat s.me.sewW (elem (t.me.v d) s.me.sewW e) =
        if active e then (f e).1 else BitVec.ofNat s.me.sewW (elem (s.me.v d) s.me.sewW e)) ∧
      Claims.vectorFrame s.me t.me (some d) ∧
      (∀ k, t.me.vec.vflags.getLsbD k =
        (s.me.vec.vflags.getLsbD k || (List.range s.me.vec.vl).any fun e => active e && (f e).2.getLsbD k)) ∧
      { t.me.vec with vflags := 0 } = { s.me.vec with vflags := 0, vstart0 := 0 }

/-- With SEW the width of the format (for the floating and special-function instructions), each active element (every
one for MTOV) takes the code that the operation gives on the decoded operands in the rounding mode of VCFG, the
flags of all of them are added to VFLAGS, and every other element and register keeps its value. VFCVT does the same
with the containers of its destination format, once its own checks pass. The codes of the special functions are the
model's choice within the bound of R158, which is not stated here (log 9); the flags of NaN operands and the ends of
a range are its reading (logs 17 and 38). (R146, R148, R151, R155, R156, R157, R158, R165) -/
def Obligations.FloatVectorResults : Prop :=
  ∀ (i : Instr) (s : State) (d : VReg) (w : Nat) (f : Nat → Nat × BitVec 8), s.vecReady (Claims.vecNeeds i) = true →
    Claims.velem s.me i = some (d, w, f) → s.vecCheck s.cur.place s.me i = none →
    let active := fun (e : Nat) => decide (s.me.vec.vstart0 ≤ e) && decide (e < s.me.vec.vl) &&
      (Claims.allElements i || (s.me.m s.me.vec.vmsel).getLsbD e)
    ∃ t, exec i s = .next t ∧ s.othersAs t s.cur.place ∧ s.memoryAs t ∧
      (∀ e, w * (e + 1) ≤ 4096 → elem (t.me.v d) w e = if active e then (f e).1 % 2 ^ w else elem (s.me.v d) w e) ∧
      Claims.vectorFrame s.me t.me (some d) ∧
      (∀ k, t.me.vec.vflags.getLsbD k =
        (s.me.vec.vflags.getLsbD k || (List.range s.me.vec.vl).any fun e => active e && (f e).2.getLsbD k)) ∧
      { t.me.vec with vflags := 0 } = { s.me.vec with vflags := 0, vstart0 := 0 }

/-- A comparison into a mask register other than m0 sets bit e to the comparison of the elements e for each active e and
leaves every other bit, mask and vector register; a floating comparison needs SEW to be the format's width, and
VFCLT and VFCLE set NV when an active element meets a NaN. (R28, R146, R164) -/
def Obligations.CompareResults : Prop :=
  ∀ (i : Instr) (s : State) (d : MReg) (f : Nat → Bool × BitVec 8), s.vecReady (Claims.vecNeeds i) = true → d ≠ 0 →
    Claims.vcompare s.me i = some (d, f) → s.vecCheck s.cur.place s.me i = none →
    let active := fun (e : Nat) => decide (s.me.vec.vstart0 ≤ e) && decide (e < s.me.vec.vl) &&
      (s.me.m s.me.vec.vmsel).getLsbD e
    ∃ t, exec i s = .next t ∧ s.othersAs t s.cur.place ∧ s.memoryAs t ∧
      (∀ e, e < 512 → (t.me.m d).getLsbD e = if active e then (f e).1 else (s.me.m d).getLsbD e) ∧
      (∀ r, r ≠ d → t.me.m r = s.me.m r) ∧ Claims.vectorFrame s.me { t.me with masks := s.me.masks } none ∧
      (∀ k, t.me.vec.vflags.getLsbD k =
        (s.me.vec.vflags.getLsbD k || (List.range s.me.vec.vl).any fun e => active e && (f e).2.getLsbD k))

/-- MAND, MOR, MXOR, MANDN, MNOT and MFROMV write bits VSTART0 to VL - 1 of a mask register other than m0, and MSKFT and
MSKBF bits 0 to VL - 1 from the first 1 of their source, leaving the other bits; MPOPC counts the source's 1 bits
below VL and MFIRST gives the lowest, or -1; with VSTART0 not 0, MPOPC, MFIRST, MSKFT and MSKBF write nothing, set
VSTART0 to 0 and complete; that the written bit of the scalar destination then stays as it was is the model's choice
(log 102). (R26, R28, R149, R165) -/
def Obligations.MaskResults : Prop :=
  (∀ (i : Instr) (s : State) (d : MReg) (f : Nat → Bool), s.bound = true → s.alone = true → d ≠ 0 →
    Claims.maskBits s.me i = some (d, f) →
    ∃ t, exec i s = .next t ∧ s.othersAs t s.cur.place ∧
      (∀ e, e < 512 → (t.me.m d).getLsbD e =
        if s.me.vec.vstart0 ≤ e ∧ e < s.me.vec.vl ∧ (Claims.isUnsplitMask i = true → s.me.vec.vstart0 = 0) then f e
        else (s.me.m d).getLsbD e) ∧
      (∀ r, r ≠ d → t.me.m r = s.me.m r) ∧ t.me.scalars = s.me.scalars ∧ t.me.vectors = s.me.vectors ∧
      t.me.vec = { s.me.vec with vstart0 := 0 }) ∧
  (∀ (s : State) (c : Bool) (d : MReg) (a : VReg), s.vecReady [(a.val, false)] = true → d ≠ 0 →
    ∃ t, exec (.mfromv c d a) s = .next t ∧ s.othersAs t s.cur.place ∧
      (∀ e, e < 512 → (t.me.m d).getLsbD e =
        if s.me.vec.vstart0 ≤ e ∧ e < s.me.vec.vl then elem (s.me.v a) s.me.sewW e != 0 else (s.me.m d).getLsbD e) ∧
      (∀ r, r ≠ d → t.me.m r = s.me.m r)) ∧
  ∀ (s : State) (c : Bool) (d : SReg) (a : MReg), s.bound = true → s.alone = true →
    let ones := (List.range s.me.vec.vl).filter fun e => (s.me.m a).getLsbD e
    let skipped := s.done fun t => { t with vec := { t.vec with vstart0 := 0 } }
    (s.me.vec.vstart0 = 0 →
      exec (.mpopc c d a) s = (s.done fun t => t.setS d (BitVec.ofNat 64 ones.length)) ∧
      exec (.mfirst c d a) s = (s.done fun t => t.setS d (match ones with | [] => -1 | e :: _ => BitVec.ofNat 64 e))) ∧
    (s.me.vec.vstart0 ≠ 0 → exec (.mpopc c d a) s = skipped ∧ exec (.mfirst c d a) s = skipped)

/-- With VSTART0 = 0 each active element of VXCHG, the slides, VGATHER and VIOTA takes the element its rule names (0
from at or above VLMAXS; VSLIDEUP leaves the elements below the distance; VIOTA numbers the active elements),
VCOMPRESS packs the active elements, VINSR writes one element, and every other element and register keeps its value;
with VSTART0 not 0 nothing is written. (R149, R159, R160, R161) -/
def Obligations.PermutationResults : Prop :=
  ∀ (i : Instr) (s : State) (d : VReg) (f : Nat → Option Nat), s.vecReady (Claims.vecNeeds i) = true →
    Claims.permuted s.me i = some (d, f) → s.me.vec.vl * s.me.sewW ≤ 4096 →
    ∃ t, exec i s = .next t ∧ s.othersAs t s.cur.place ∧ s.memoryAs t ∧
      (∀ e, s.me.sewW * (e + 1) ≤ 4096 → elem (t.me.v d) s.me.sewW e =
        if s.me.vec.vstart0 = 0 then ((f e).map fun n => n % 2 ^ s.me.sewW).getD (elem (s.me.v d) s.me.sewW e)
        else elem (s.me.v d) s.me.sewW e) ∧
      Claims.vectorFrame s.me t.me (some d) ∧ t.me.vec = { s.me.vec with vstart0 := 0 }

/-- With VSTART0 = 0 an integer reduction writes element 0 with the operation over the active elements and the start
operand, and nothing when none is active; VFREDSUM writes the fixed-order sum with its flags; VSCAN, at any VSTART0,
gives each active element the running sum (from SCANCARRY when VSTART0 is not 0) and clears SCANCARRY; VEXTR writes
the sign-extended element, or 0 at or above VLMAXS. Every other element and register keeps its value. With VSTART0
not 0 the reductions and VEXTR write nothing, set VSTART0 to 0 and complete; that the written bit of VEXTR's
destination then stays as it was is the model's choice (log 102). (R99, R149, R161, R162, R163) -/
def Obligations.ReductionResults : Prop :=
  (∀ (i : Instr) (s : State) (d a : VReg) (b : VSrc)
    (f : BitVec s.me.sewW → BitVec s.me.sewW → BitVec s.me.sewW),
    s.vecReady (Claims.vecNeeds i) = true → s.me.vec.vstart0 = 0 → s.me.sewW ≤ 64 →
    Claims.reduction s.me.sewW i = some (d, a, b, f) →
    let xs := (activeIn (s.me.m s.me.vec.vmsel) 0 s.me.vec.vl).map fun e => BitVec.ofNat s.me.sewW (elem (s.me.v a) s.me.sewW e)
    ∃ t, exec i s = .next t ∧ s.othersAs t s.cur.place ∧ Claims.vectorFrame s.me t.me (some d) ∧
      t.me.vec = s.me.vec ∧
      (∀ e, e ≠ 0 → elem (t.me.v d) s.me.sewW e = elem (s.me.v d) s.me.sewW e) ∧
      BitVec.ofNat s.me.sewW (elem (t.me.v d) s.me.sewW 0) = (match xs with
        | [] => BitVec.ofNat s.me.sewW (elem (s.me.v d) s.me.sewW 0)
        | x :: r => f (r.foldl f x) (BitVec.ofNat s.me.sewW (srcElem s.me s.me.sewW b 0)))) ∧
  (∀ (s : State) (c : Bool) (d a : VReg) (b : VSrc), s.vecReady (Claims.vecNeeds (.vfredsum c d a b)) = true →
    s.me.vec.vstart0 = 0 → s.me.sewFits = true →
    let w := s.me.sewW
    let xs := (activeIn (s.me.m s.me.vec.vmsel) 0 s.me.vec.vl).map fun e => (e, elem (s.me.v a) s.me.sewW e)
    let r := freduce s.me.fmt s.me.vec.rnd (s.laneCount s.cur.place) s.me.sewW xs
    ∃ t, exec (.vfredsum c d a b) s = .next t ∧ s.othersAs t s.cur.place ∧
      Claims.vectorFrame s.me t.me (some d) ∧
      { t.me.vec with vflags := 0 } = { s.me.vec with vflags := 0 } ∧
      (∀ e, e ≠ 0 → w * (e + 1) ≤ 4096 → elem (t.me.v d) w e = elem (s.me.v d) w e) ∧
      (r.1 = none → t.me.v d = s.me.v d ∧ t.me.vec = s.me.vec) ∧
      ∀ x, r.1 = some x →
        let v := s.me.fmt.round s.me.vec.rnd
          (fadd s.me.vec.rnd (s.me.fmt.dec (srcElem s.me s.me.sewW b 0)) (s.me.fmt.dec x))
        elem (t.me.v d) s.me.sewW 0 = v.1 % 2 ^ s.me.sewW ∧ t.me.vec.vflags = s.me.vec.vflags ||| (r.2 ||| v.2)) ∧
  (∀ (s : State) (c : Bool) (d a : VReg), s.vecReady (Claims.vecNeeds (.vscan c d a)) = true → d ≠ a →
    let w := s.me.sewW
    let c0 := if s.me.vec.vstart0 = 0 then 0 else s.me.vec.scancarry.toNat
    let on := fun (e : Nat) => decide (s.me.vec.vstart0 ≤ e) && decide (e < s.me.vec.vl) && (s.me.m s.me.vec.vmsel).getLsbD e
    ∃ t, exec (.vscan c d a) s = .next t ∧ s.othersAs t s.cur.place ∧ Claims.vectorFrame s.me t.me (some d) ∧
      t.me.vec = { s.me.vec with vstart0 := 0, scancarry := 0 } ∧
      ∀ e, w * (e + 1) ≤ 4096 → elem (t.me.v d) w e =
        if on e then (c0 + (((List.range (e + 1)).filter on).map fun k => elem (s.me.v a) w k).sum) % 2 ^ w
        else elem (s.me.v d) w e) ∧
  (∀ (i : Instr) (s : State) (d a : VReg) (b : VSrc), s.vecReady (Claims.vecNeeds i) = true → s.me.vec.vstart0 ≠ 0 →
    s.vecCheck s.cur.place s.me i = none →
    ((∃ f, Claims.reduction s.me.sewW i = some (d, a, b, f)) ∨ ∃ c, i = .vfredsum c d a b) →
    ∃ t, exec i s = .next t ∧ s.othersAs t s.cur.place ∧ Claims.vectorFrame s.me t.me (some d) ∧
      t.me.v d = s.me.v d ∧ t.me.vec = { s.me.vec with vstart0 := 0 }) ∧
  ∀ (s : State) (c : Bool) (d : SReg) (a : VReg) (b : SReg), s.vecReady (Claims.vecNeeds (.vextr c d a b)) = true →
    ∃ t, exec (.vextr c d a b) s = .next t ∧ s.othersAs t s.cur.place ∧ t.me.vectors = s.me.vectors ∧
      t.me.masks = s.me.masks ∧ t.me.vec = { s.me.vec with vstart0 := 0 } ∧ t.me.pc = s.me.complete.pc ∧
      (s.me.vec.vstart0 ≠ 0 → t.me.scalars = s.me.scalars) ∧
      (s.me.vec.vstart0 = 0 → (∀ r, r ≠ d → t.me.s r = s.me.s r) ∧ (d ≠ 0 → t.me.s d =
        if (s.me.s b).toNat < s.me.vec.vlmaxs then (BitVec.ofNat s.me.sewW (elem (s.me.v a) s.me.sewW (s.me.s b).toNat)).signExtend 64
        else 0))

/-- When every active element passes its checks and nothing holds it back, VLD, VLDX, VLDQ and VLDFF give each active
element the bytes at its address, VLDBC every active element those at the base, and leave the other elements and
registers; VST, VSTX and VSTQ, once their release is clear, complete with no register changed but VSTART0, each byte
of each stored element reading as it where no later element of the instruction reaches it, every local byte outside
the elements as before, and every byte of memory outside their lines as the translations left it. A load leaves
every local byte as before and every device byte as the translations left it. That an offset in SPACE 1 to 4 is
computed without wrapping, and the order of what an element waits for, are the model's choices (logs 40, 41). (R166,
R167, R168, R169, R170) -/
def Obligations.VectorMemoryResults : Prop :=
  (∀ (i : Instr) (s : State) (d : VReg) (f : VForm) (bc : Bool), s.vecReady (Claims.vecNeeds i) = true →
    Claims.vload s i = some (d, f, bc) → s.vecCheck s.cur.place s.me i = none →
    let p := s.cur.place
    let is := activeIn (s.me.m s.me.vec.vmsel) s.me.vec.vstart0 s.me.vec.vl
    let c := s.vscan p s.me f.acc f.addr (if bc then is.take 1 else is)
    c.stop = none → (∀ e ∈ c.good, c.st.vpoisoned p f.acc e.2 = false) →
    ∃ t, exec i s = .next t ∧ s.othersAs t p ∧ Claims.vectorFrame s.me t.me (some d) ∧
      t.me.vec = { s.me.vec with vstart0 := 0 } ∧
      (∀ c' y, (t.core c').readLocalByte y = (s.core c').readLocalByte y) ∧
      (∀ e key gen y, isHost y = false → t.physByte e key gen y = c.st.physByte e key gen y) ∧
      (∀ e, s.me.sewW * (e + 1) ≤ 4096 → e ∉ is → elem (t.me.v d) s.me.sewW e = elem (s.me.v d) s.me.sewW e) ∧
      ∀ e ∈ is, s.me.sewW * (e + 1) ≤ 4096 → ∀ l, (if bc then c.good.head?.map (·.2) else (c.good.find? fun g => g.1 == e).map (·.2)) = some l →
        elem (t.me.v d) s.me.sewW e = (c.st.vcache p c.good).vread p f.acc l) ∧
  ∀ (i : Instr) (s : State) (d : VReg) (f : VForm), s.vecReady (Claims.vecNeeds i) = true →
    Claims.vstore s i = some (d, f) → s.vecCheck s.cur.place s.me i = none →
    s.releaseWait s.cur.place s.me.vec.scope = none →
    let p := s.cur.place
    let s0 := s.releaseEffect p s.me.vec.scope
    let is := activeIn (s.me.m s.me.vec.vmsel) s.me.vec.vstart0 s.me.vec.vl
    let c := s0.vscan p s.me f.acc f.addr is
    c.stop = none →
    ∃ t, exec i s = .next t ∧ s.othersAs t p ∧ Claims.vectorFrame s.me t.me none ∧
      t.me.vec = { s.me.vec with vstart0 := 0 } ∧
      Claims.stored t p f.acc.size (s.me.v d) c.good ∧
      (∀ c' y, (c' = p.core → ∀ e ∈ c.good, ∀ off, e.2 = .buffer off → y < off ∨ off + f.acc.size ≤ y) →
        (t.core c').readLocalByte y = (s.core c').readLocalByte y) ∧
      ∀ g key gen y, (∀ e ∈ c.good, ∀ pa x, e.2 = .phys pa x → ∀ i, i < f.acc.size → y / 64 ≠ (pa + i) / 64) →
        t.physByte g key gen y = c.st.physByte g key gen y

/-- An element is checked in the order of R167: alignment, the buffer and the loft for SPACE 1 to 4, the top address
bits and the translation for SPACE 0. A load or store whose element e fails leaves the elements below e loaded or
stored, no other register changed, VSTART0 = e and the PC at the instruction: a cause that no page service can mend
traps with TVAL at the element; a page fault leaves the strand PARKED with the page service, or STALLED where its
station has no record free. VLDFF does so for its first active element only: where a later one fails it completes
with VL = e, VSTART0 = 0 and no page service. That an offset in SPACE 1 to 4 is computed without wrapping, that a
page which its service could not bring traps, and the order of waits are the model's choices (logs 40, 41, 61).
(R56, R74, R167, R168, R170, R356) -/
def Obligations.VectorFaults : Prop :=
  (∀ (s : State) (p : Place) (t : Strand) (a : VAccess) (x : Int), a.slot = none → (a.size = 1 ∨ a.size = 2 ∨ a.size = 4) →
    let r := (s.vlocate p t a x).2
    let v := BitVec.ofInt 64 x
    let limit : Int := if a.space = 1 then 98304 else if a.space = 4 then 24576 else 65536
    (1 ≤ a.space → a.space ≤ 4 →
      (x % (a.size : Int) ≠ 0 → r = .error (.trap causeMisalign v)) ∧
      (x % (a.size : Int) = 0 → x < 0 ∨ limit ≤ x → r = .error (.trap causeSpace v)) ∧
      (x % (a.size : Int) = 0 → 0 ≤ x → x < limit → r = .ok (.buffer (bufBase a.space + x.toNat)))) ∧
    (a.space = 0 → a.kind ≤ 1 →
      let cause := if a.kind = 0 then causeLoadPage else causeStorePage
      (v.toNat % a.size ≠ 0 → r = .error (.trap causeMisalign v)) ∧
      (v.toNat % a.size = 0 → 2 ^ 57 ≤ v.toNat → r = .error (.trap cause v)) ∧
      (v.toNat % a.size = 0 → v.toNat < 2 ^ 57 →
        (∀ e, (s.translate p.core v.toNat a.kind).2 = .ok e → r = .ok (.phys (e.pa v.toNat) e)) ∧
        ((s.translate p.core v.toNat a.kind).2 = .error .bad → r = .error (.trap cause v)) ∧
        ((s.translate p.core v.toNat a.kind).2 = .error .evicted → t.walked = none → r = .error (.page v a.kind .evicted))))) ∧
  (∀ (i : Instr) (s : State) (d : VReg) (f : VForm) (bc : Bool) (e : Nat) (w : VFail), s.vecReady (Claims.vecNeeds i) = true →
    Claims.vload s i = some (d, f, bc) → s.vecCheck s.cur.place s.me i = none →
    let p := s.cur.place
    let is := activeIn (s.me.m s.me.vec.vmsel) s.me.vec.vstart0 s.me.vec.vl
    let c := s.vscan p s.me f.acc f.addr (if bc then is.take 1 else is)
    c.stop = some (e, .fail w) → (∀ g ∈ c.good, c.st.vpoisoned p f.acc g.2 = false) →
    let later := (∃ b r a, i = .vldff b r a) ∧ is.head? ≠ some e
    (∀ cause x, w = .trap cause x → ¬later → s.delivers = true →
      ∃ t, exec i s = .next t ∧ Claims.elementTrap s t e cause x ∧ Claims.loadedBelow s t p d f c) ∧
    (∀ x kind why, w = .page x kind why → ¬later →
      ∃ t, exec i s = .next t ∧ Claims.elementParked s t e x kind ∧ Claims.loadedBelow s t p d f c) ∧
    ((∀ pa, w ≠ .spoilt pa) → later → ∃ t, exec i s = .next t ∧ Claims.loadedBelow s t p d f c ∧ s.othersAs t p ∧
      t.me.vec = { s.me.vec with vl := e, vstart0 := 0 } ∧ t.me.pc = s.me.complete.pc ∧ t.me.run = s.me.run ∧
      t.me.trap = s.me.trap ∧ t.me.scalars = s.me.scalars ∧ ∀ g, (t.die g).services = (c.st.die g).services)) ∧
  ∀ (i : Instr) (s : State) (d : VReg) (f : VForm) (e : Nat) (w : VFail), s.vecReady (Claims.vecNeeds i) = true →
    Claims.vstore s i = some (d, f) → s.vecCheck s.cur.place s.me i = none →
    s.releaseWait s.cur.place s.me.vec.scope = none →
    let p := s.cur.place
    let is := activeIn (s.me.m s.me.vec.vmsel) s.me.vec.vstart0 s.me.vec.vl
    let c := (s.releaseEffect p s.me.vec.scope).vscan p s.me f.acc f.addr is
    c.stop = some (e, .fail w) →
    (∀ cause x, w = .trap cause x → s.delivers = true →
      ∃ t, exec i s = .next t ∧ Claims.elementTrap s t e cause x ∧ t.me.vectors = s.me.vectors ∧
        Claims.stored t p f.acc.size (s.me.v d) c.good) ∧
    (∀ x kind why, w = .page x kind why →
      ∃ u : State, exec i s = .next (u.parkOn p x kind why) ∧ Claims.elementParked s (u.parkOn p x kind why) e x kind ∧
        u.me.vectors = s.me.vectors ∧ (u.parkOn p x kind why).me.vectors = s.me.vectors ∧
        Claims.stored u p f.acc.size (s.me.v d) c.good)

/-- Outside a loop nest, with the registers of all members resident and no pause possible, a convoy of integer
instructions without flags leaves what its members executed one after another leave, all under the mask read at
issue; the PC moves past all of them and INSTRET counts each. Words with C = 1 that follow one another form such a
convoy when their unit classes differ. A following word of another major, of a class already used, or VLDFF, and a
fifth member, trap CONVOY with TEPC at the first member, the member's number in TSTATUS (its low two bits for the
fifth, as R9 gives) and the member's word in TVAL, or for the fifth its address; nothing of the convoy is executed
and no register is moved to or from the loft. (R9, R34, R66, R67, R68, R76, R107, R150) -/
def Obligations.Convoys : Prop :=
  (∀ (s : State) (p : Place) (ms : List Member),
    let t := s.strand p
    Claims.issuesNext s p → (s.issueAs p).mayPause p = false → t.loops = [] → t.midMask = none → s.isVector p = true →
    (∃ w, s.fetch p t t.pc = .word w ∧ convoyMajor (wordMajor w) = true ∧ wordC w = true) →
    (s.issueAs p).gather p t 5 0 [] t.pc [] [] = .members ms → (∀ m ∈ ms, (Claims.vint t m.instr).isSome = true) →
    (t.reside (s.residentCap p) (s.spills p) (ms.map fun m => vecNeeds m.instr).flatten).2.moves = 0 →
    ∃ t', step s = .next t' ∧ Claims.membersDone (t.m t.vec.vmsel) 0 (ms.map (·.instr)) t (t'.strand p) ∧
      s.othersAs t' p ∧ s.memoryAs t') ∧
  (∀ (s : State) (p : Place) (w1 w2 : IWord) (i1 i2 : Instr) (c1 : UnitClass),
    let t := s.strand p
    t.loops = [] → s.isVector p = true → s.fetch p t t.pc = .word w1 → s.fetch p t (t.pc + 4) = .word w2 → wordC w1 = true →
    unitClass w1 = some c1 → isVldff w1 = false → decode w1 = .ok i1 →
    let g := (s.issueAs p).gather p t 5 0 [] t.pc [] []
    (convoyMajor (wordMajor w2) = true → unitClass w2 ≠ some c1 → isVldff w2 = false → wordC w2 = false → decode w2 = .ok i2 →
      g = .members [{ pc := t.pc, word := w1, instr := i1 }, { pc := t.pc + 4, word := w2, instr := i2 }]) ∧
    (Claims.issuesNext s p → convoyMajor (wordMajor w1) = true → Claims.delivered s p →
      (convoyMajor (wordMajor w2) = false ∨ unitClass w2 = some c1 ∨ isVldff w2 = true →
        ∃ t', step s = .next t' ∧ Claims.convoyTrap s t' p 1 causeConvoy (w2.setWidth 64)) ∧
      (convoyMajor (wordMajor w2) = true → unitClass w2 ≠ some c1 → isVldff w2 = false → ∀ e, decode w2 = .error e →
        ∃ t', step s = .next t' ∧ Claims.convoyTrap s t' p 1 causeIllegal (w2.setWidth 64)))) ∧
  (∀ (s : State) (p : Place) (w : IWord),
    let t := s.strand p
    Claims.issuesNext s p → Claims.delivered s p → t.loops = [] → s.fetch p t t.pc = .word w → isVldff w = true →
    wordC w = true → ∃ t', step s = .next t' ∧ Claims.convoyTrap s t' p 0 causeConvoy (w.setWidth 64)) ∧
  ∀ (s : State) (p : Place) (w : Nat → IWord) (i : Nat → Instr) (c : Nat → UnitClass),
    let t := s.strand p
    Claims.issuesNext s p → Claims.delivered s p → t.loops = [] → s.isVector p = true →
    (∀ k, k < 4 → s.fetch p t (t.pc + BitVec.ofNat 64 (4 * k)) = .word (w k) ∧ convoyMajor (wordMajor (w k)) = true ∧
      wordC (w k) = true ∧ isVldff (w k) = false ∧ unitClass (w k) = some (c k) ∧ decode (w k) = .ok (i k)) →
    (∀ j k, j < k → k < 4 → c j ≠ c k) →
    ∃ t', step s = .next t' ∧ Claims.convoyTrap s t' p 4 causeConvoy (t.pc + 16)

/-- In FP32, FP16 and BF16, for every mode: sums, products and fused sums of finite operands are exact values, an exact
zero with the sign of R96; these, quotients and square roots of finite operands are rounded once, a tie by the mode,
with NX when inexact, UF when tiny after rounding and inexact, and OF with the result of the mode beyond the largest
finite value; the invalid operations give the canonical NaN with NV, a quotient by zero an infinity with DZ, and a
NaN operand the canonical NaN. That a NaN operand alone sets no flag, and that infinity times zero plus NaN sets NV
or not as the implementation has it, are the model's reading (log 17), and so is that overflow is decided after
rounding (log 38). In FP32, FP16 and BF16 a special function gives the value and flags of its row for NaN,
infinities, zeros and the inputs outside its domain; another finite input sets OF or UF exactly where R158 says. In
FP32 VEXP2 of an integer, VLOG2 of a power of 2 and VRCP of a power of 2 are exact where the result is
representable. VRCP of any other finite input is within 1 ulp of 1/x. Every function's result is within its bound of
the value that the model evaluates; which code within it, and the evaluation itself, whose distance from the real
function is not stated here, are the model's choice (log 9). (R84, R85, R96, R97, R155, R158) -/
def Obligations.FloatArithmetic : Prop :=
  (∀ f : FFmt, (f = fFP32 ∨ f = fFP16 ∨ f = fBF16) →
    (∀ c : Nat, c < 2 ^ (1 + f.ew + f.mw) →
      let sign : Rat := if c / 2 ^ (f.ew + f.mw) % 2 = 1 then -1 else 1
      let e : Nat := c / 2 ^ f.mw % 2 ^ f.ew
      let m : Nat := c % 2 ^ f.mw
      (e = 2 ^ f.ew - 1 → f.dec c = if m = 0 then .inf (c / 2 ^ (f.ew + f.mw) % 2 == 1) else .nan) ∧
      (e ≠ 2 ^ f.ew - 1 → Claims.isFinite (f.dec c) = true ∧ Claims.val (f.dec c) =
        if e = 0 then sign * ((m : Rat) / 2 ^ f.mw) * (2 : Rat) ^ (1 - (f.bias : Int))
        else sign * (1 + (m : Rat) / 2 ^ f.mw) * (2 : Rat) ^ ((e : Int) - f.bias))) ∧
    (∀ (mode : Nat) (neg : Bool) (m : Nat) (e : Int), mode < 5 →
      (m = 0 → f.roundTo mode (.fin neg m e) = (f.signed neg 0, 0)) ∧
      (m ≠ 0 → Claims.rounds f mode neg ((m : ℝ) * (2 : ℝ) ^ e) (f.roundTo mode (.fin neg m e)))) ∧
    (∀ mode, f.roundTo mode .nan = (f.nanCode, 0) ∧ f.dec f.nanCode = .nan ∧
      ∀ n, f.roundTo mode (.inf n) = (f.signed n f.infMag, 0) ∧ f.dec (f.signed n f.infMag) = .inf n) ∧
    (∀ (mode : Nat) (x : Bool) (m : Nat) (e : Int) (y : Bool) (n : Nat) (g : Int), mode < 5 →
      let a : FVal := .fin x m e
      let b : FVal := .fin y n g
      Claims.val (fadd mode a b).1 = Claims.val a + Claims.val b ∧ (fadd mode a b).2 = 0 ∧ Claims.isFinite (fadd mode a b).1 = true ∧
      (Claims.val a + Claims.val b = 0 → (fadd mode a b).1 = .fin (if m = 0 ∧ n = 0 ∧ x = y then x else mode == 2) 0 0) ∧
      fmul a b = (.fin (x != y) (m * n) (e + g), 0) ∧ Claims.val (fmul a b).1 = Claims.val a * Claims.val b ∧
      (∀ z k h, Claims.val (ffma mode a b (.fin z k h)).1 = Claims.val a * Claims.val b + Claims.val (.fin z k h) ∧
        (ffma mode a b (.fin z k h)).2 = 0) ∧
      (m ≠ 0 → n ≠ 0 → Claims.rounds f mode (x != y) (((m : ℝ) * (2 : ℝ) ^ e) / ((n : ℝ) * (2 : ℝ) ^ g)) (fdiv f mode a b)) ∧
      (m = 0 → n ≠ 0 → fdiv f mode a b = (f.signed (x != y) 0, 0)) ∧
      (m ≠ 0 → n = 0 → fdiv f mode a b = (f.signed (x != y) f.infMag, flagDZ)) ∧
      (m = 0 → n = 0 → fdiv f mode a b = (f.nanCode, flagNV)) ∧
      (m ≠ 0 → Claims.rounds f mode false (Real.sqrt ((m : ℝ) * (2 : ℝ) ^ e)) (fsqrt f mode (.fin false m e))) ∧
      (m ≠ 0 → fsqrt f mode (.fin true m e) = (f.nanCode, flagNV)) ∧ fsqrt f mode (.fin x 0 e) = (f.signed x 0, 0)) ∧
    ∀ (mode : Nat) (x y : Bool) (m : Nat) (e : Int), mode < 5 →
      let b : FVal := .fin y m e
      (∀ v, fadd mode .nan v = (.nan, 0) ∧ fadd mode v .nan = (.nan, 0) ∧ fmul .nan v = (.nan, 0) ∧ fmul v .nan = (.nan, 0) ∧
        fdiv f mode .nan v = (f.nanCode, 0) ∧ fdiv f mode v .nan = (f.nanCode, 0) ∧
        ∀ w, (ffma mode .nan v w).1 = .nan ∧ (ffma mode v .nan w).1 = .nan ∧ (ffma mode v w .nan).1 = .nan) ∧
      fsqrt f mode .nan = (f.nanCode, 0) ∧
      fadd mode (.inf x) (.inf y) = (if x = y then (.inf x, 0) else (.nan, flagNV)) ∧
      fadd mode (.inf x) b = (.inf x, 0) ∧ fadd mode b (.inf x) = (.inf x, 0) ∧
      fmul (.inf x) (.inf y) = (.inf (x != y), 0) ∧
      fmul (.inf x) b = (if m = 0 then (.nan, flagNV) else (.inf (x != y), 0)) ∧
      fmul b (.inf x) = (if m = 0 then (.nan, flagNV) else (.inf (y != x), 0)) ∧
      fdiv f mode (.inf x) (.inf y) = (f.nanCode, flagNV) ∧ fdiv f mode (.inf x) b = (f.signed (x != y) f.infMag, 0) ∧
      fdiv f mode b (.inf x) = (f.signed (y != x) 0, 0) ∧
      fsqrt f mode (.inf x) = (if x = true then (f.nanCode, flagNV) else (f.signed false f.infMag, 0))) ∧
  (∀ f : FFmt, (f = fFP32 ∨ f = fFP16 ∨ f = fBF16) →
    let inf := fun (n : Bool) => f.signed n f.infMag
    let zero := fun (n : Bool) => f.signed n 0
    let one := fun (n : Bool) => f.signed n (f.bias * 2 ^ f.mw)
    let bad : Nat × BitVec 8 := (f.nanCode, flagNV)
    let limit := f.signW
    (∀ fn c, f.dec c = .nan → sfOf f fn c = (f.nanCode, 0)) ∧
    (∀ n, sfOf f .exp2 (inf n) = (if n = true then zero false else inf false, 0) ∧
      sfOf f .log2 (inf n) = (if n = true then bad else (inf false, 0)) ∧ sfOf f .log2 (zero n) = (inf true, flagDZ) ∧
      sfOf f .rcp (inf n) = (zero n, 0) ∧ sfOf f .rcp (zero n) = (inf n, flagDZ) ∧
      sfOf f .rsqrt (inf n) = (if n = true then bad else (zero false, 0)) ∧ sfOf f .rsqrt (zero n) = (inf n, flagDZ) ∧
      sfOf f .sin (inf n) = bad ∧ sfOf f .sin (zero n) = (zero n, 0) ∧
      sfOf f .cos (inf n) = bad ∧ sfOf f .cos (zero n) = (one false, 0) ∧
      sfOf f .tanh (inf n) = (one n, 0) ∧ sfOf f .tanh (zero n) = (zero n, 0) ∧
      sfOf f .sigm (inf n) = (if n = true then zero false else one false, 0)) ∧
    (∀ (c : Nat) (neg : Bool) (m : Nat) (e : Int), c < 2 * limit → f.dec c = .fin neg m e →
      let r := fun (fn : SfFn) => (sfOf f fn c).1
      let fl := fun (fn : SfFn) => (sfOf f fn c).2
      let small := fun (x : Nat) => x % limit < 2 ^ f.mw
      (m ≠ 0 → neg = true → sfOf f .log2 c = bad ∧ sfOf f .rsqrt c = bad) ∧
      (m ≠ 0 → neg = false → fl .log2 = 0 ∧ fl .rsqrt = 0) ∧
      fl .sin = 0 ∧ fl .cos = 0 ∧ fl .tanh = 0 ∧
      fl .exp2 = (if r .exp2 % limit = f.infMag then flagOF else if small (r .exp2) then flagUF else 0) ∧
      (m ≠ 0 → fl .rcp = if r .rcp % limit = f.infMag then flagOF else if small (r .rcp) then flagUF else 0) ∧
      fl .sigm = (if small (r .sigm) then flagUF else 0) ∧
      (m ≠ 0 → m < 2 ^ f.mw → ∀ fn, fn = .sin ∨ fn = .tanh → r fn ≠ 0 ∧ small (r fn) ∧ (bit (r fn) (f.ew + f.mw) = neg)) ∧
      (m ≠ 0 → r .rcp % limit ≠ f.infMag →
        ∃ q : Int, f.emin - f.mw ≤ q ∧ (f.emin - f.mw < q → (2 : Rat) ^ (q + f.mw) ≤ |1 / Claims.val (f.dec c)|) ∧
          |Claims.val (f.dec (r .rcp)) - 1 / Claims.val (f.dec c)| ≤ (2 : Rat) ^ q) ∧
      ∀ fn, (m ≠ 0 ∨ fn = .exp2 ∨ fn = .sigm) → (neg = true → fn ≠ .log2 ∧ fn ≠ .rsqrt) → r fn % limit ≠ f.infMag →
        let a := sfEval fn neg m e
        let v : Rat := (a.1 : Rat) * (2 : Rat) ^ a.2
        let ulps : Rat := if f = fFP32 ∧ (fn = .sin ∨ fn = .cos ∨ fn = .tanh ∨ fn = .sigm) then 2 else 1
        (f = fFP32 ∧ (fn = .sin ∨ fn = .cos) ∧ (2 : Rat) ^ (16 : Nat) < (m : Rat) * (2 : Rat) ^ e ∧
          |Claims.val (f.dec (r fn)) - v| ≤ (2 : Rat) ^ (-22 : Int)) ∨
        ∃ q : Int, f.emin - f.mw ≤ q ∧ (f.emin - f.mw < q → (2 : Rat) ^ (q + f.mw) ≤ |v|) ∧
          |Claims.val (f.dec (r fn)) - v| ≤ ulps * (2 : Rat) ^ q) ∧
    (f = fFP32 → ∀ (c : Nat) (neg : Bool) (m : Nat) (e : Int), c < 2 ^ 32 → f.dec c = .fin neg m e → ∀ k : Int,
      (Claims.val (f.dec c) = k → -149 ≤ k → k ≤ 127 → Claims.val (f.dec (sfOf f .exp2 c).1) = (2 : Rat) ^ k) ∧
      (Claims.val (f.dec c) = (2 : Rat) ^ k → Claims.val (f.dec (sfOf f .log2 c).1) = k) ∧
      (∀ s : Rat, (s = 1 ∨ s = -1) → Claims.val (f.dec c) = s * (2 : Rat) ^ k → -127 ≤ k →
        Claims.val (f.dec (sfOf f .rcp c).1) = s * (2 : Rat) ^ (-k))))

/-! ### Matrix unit, rings and copies -/

/-- With the checks passed, the matrix unit free and the scale bytes ready, MMA, MOPA and MSLIDE begin and PARK their
strand for their clk. Once the events of the operation have happened, with value formats each output of the tile has
the exact dot product of its scaled operands added and rounded once, the flags are those of the outputs, and every
local byte outside the tile keeps its value; with residue formats each latch takes the products channel by channel.
The rows as events, and the residues at issue, are the model's reading (log 27); MSLIDE containers beyond the
register image are open (log 26) and are not stated. (R90, R92, R93, R94, R180, R181, R182, R183, R184, R188) -/
def Obligations.MatrixProducts : Prop :=
  ∀ (s : State) (d : SReg) (a b : VReg) (rep : BitVec 4),
    let p := s.cur.place
    let x := s.core p.core
    let u := s.me
    let n := rep.toNat + 1
    let breg := 32 * s.laneCount p
    let fa := u.task.fmta.toNat
    let fb := u.task.fmtb.toNat
    let fc := u.task.fmtc.toNat
    let wa := containerBits fa
    let wb := containerBits fb
    let t0 := (u.s d).toNat
    let pl := x.mtx.active
    let kp := pl.depth fb
    let z := toInt 32 (u.v b).toNat
    let ranges := fun (na nb : Nat) => if isRns fa then [] else scaleRange fa u.offA na ++ scaleRange fb u.offB nb
    let ready := fun (h na nb : Nat) => pairingOk fa fb fc = true ∧ Claims.unitFree x p.strand (ranges na nb) ∧ Claims.sound x (ranges na nb) ∧
      (isRns fa = true ∨ (Claims.tileOk (u.s d) h ∧ scalesClear fa u.offA na = true ∧ scalesClear fb u.offB nb = true))
    let gives := fun (i : Instr) (h clk : Nat) (vals : Nat → Nat → List (FVal × FVal)) (codes : Nat → Nat → List (Nat × Nat)) (good : Prop) =>
      ∃ t op, exec i s = .next t ∧ Claims.mtxTaken s t clk op ∧
        let e := op.settle (t.core p.core)
        (isRns fa = false → Claims.outsideTile x e.1 t0 h ∧ (Claims.sound x (tileRange t0 h) → e.2.spoilt = none) ∧
          (good → (∀ r c, r < h → c < 8 → Claims.out e.1 t0 r c = (accumulate fc (Claims.out x t0 r c) (vals r c)).1) ∧
            ∀ k, e.2.flags.getLsbD k = (List.range h).any fun r => (List.range 8).any fun c =>
              (accumulate fc (Claims.out x t0 r c) (vals r c)).2.getLsbD k)) ∧
        (isRns fa = true → (∀ y, e.1.readLocalByte y = x.readLocalByte y) ∧ e.2.flags = 0 ∧ (good → ∀ r c, r < h → c < 8 →
          Claims.latch e.1 r c = Claims.latched fa (Claims.latch x r c) (codes r c)))
    (let h := n * breg * 8 / (kp * wa)
     let img := u.group breg a.val n
     s.vecReady (groupNeeds a.val n false ++ [srcReg b]) = true → a.val + n ≤ 64 → (pl.loaded = true → pl.pfmt.toNat = fb) →
     1 ≤ h → (isRns fa = true → h ≤ 256) → ready h (h * kp) (8 * kp) →
     gives (.mma d a b rep) h (h * (if fa = 0x10 then 2 else 1) + 4)
       (fun r c => ((List.range kp).map fun k => (pl.column fb c k).map fun cb =>
         ((fmul (lessZero fa (container img wa (r * kp + k)) z) (scaleOf x fa u.offA (r * kp + k))).1,
          (fmul (decContainer fb cb) (scaleOf x fb u.offB (c * kp + k))).1)).flatten)
       (fun r c => ((List.range kp).map fun k => (pl.column fb c k).map fun cb => (container img wa (r * kp + k), cb)).flatten)
       True) ∧
    (let h := n * breg * 8 / wa
     let ys := u.group breg b.val n
     s.vecReady (srcReg a :: groupNeeds b.val n false) = true → b.val + n ≤ 64 → 1 ≤ h → (isRns fa = true → h ≤ 256) →
     ready h h 8 →
     gives (.mopa d a b rep) h (h + 4)
       (fun r c => [scaledPair x fa u.offA r (container ys wa r) fb u.offB c (container (u.v a).toNat wb c)])
       (fun r c => [(container ys wa r, container (u.v a).toNat wb c)]) True) ∧
    (s.vecReady [srcReg a, srcReg b] = true → ready 1 n (n + 7) →
     gives (.mslide d a b rep) 1 (n + 4)
       (fun _ c => (List.range n).map fun q =>
         scaledPair x fa u.offA q (container (u.v b).toNat wa q) fb u.offB (c + q) (container (u.v a).toNat wb (c + q)))
       (fun _ c => (List.range n).map fun q => (container (u.v b).toNat wa q, container (u.v a).toNat wb (c + q)))
       (wb * (n + 7) ≤ 8 * breg))

/-- With the checks passed, the unit free and the scale bytes ready each begins and PARKS its strand for its clk. Once
the events of the operation have happened and it has ended: MRDC has copied the rows into the registers of its group
and changed nothing else; MZERO has zeroed its rows and no other byte; MDRAIN has added each latch's value to the
accumulator (a NaN scale gives the NaN code) and cleared the latch, leaving the rows beyond; MLDS and MLDSS have
loaded the shadow plane from W with its tag and left the active one; MSWAP has exchanged the planes whole and left
the latches. The rows as events, and the latches and planes at issue, are the model's reading (log 27). (R91, R176,
R177, R179, R181, R186, R187, R188) -/
def Obligations.MatrixMoves : Prop :=
  ∀ (s : State) (d : SReg) (a : VReg) (rep : BitVec 4), s.bound = true →
    let p := s.cur.place
    let x := s.core p.core
    let u := s.me
    let n := rep.toNat + 1
    let breg := 32 * s.laneCount p
    let fa := u.task.fmta.toNat
    let fb := u.task.fmtb.toNat
    let t0 := (u.s d).toNat
    (let h := n * breg / 32
     s.vecReady (groupNeeds a.val n true) = true → a.val + n ≤ 64 → Claims.tileOk (u.s d) h → Claims.unitFree x p.strand [] →
     ∃ t op, exec (.mrdc d a rep) s = .next t ∧ Claims.mtxTaken s t ((h + 1) / 2 + 2) op ∧
       let e := op.settle (t.core p.core)
       e.1 = t.core p.core ∧ (Claims.sound x (tileRange t0 h) → e.2.spoilt = none) ∧
       ∀ r : VReg, (e.2.finishStrand t.me).v r = if a.val ≤ r.val ∧ r.val < a.val + n then
         imageOf (x.readLocal (bufBase 3 + t0 + breg * (r.val - a.val)) breg) else u.v r) ∧
    (Claims.tileOk (u.s d) (16 * n) → Claims.unitFree x p.strand [] →
     ∃ t op, exec (.mzero d rep) s = .next t ∧ Claims.mtxTaken s t (8 * n) op ∧
       let e := op.settle (t.core p.core)
       e.2.spoilt = none ∧ e.2.flags = 0 ∧ Claims.outsideTile x e.1 t0 (16 * n) ∧
       ∀ y, bufBase 3 + t0 ≤ y → y < bufBase 3 + t0 + 512 * n → e.1.readLocalByte y = 0) ∧
    (let h := 16 * n
     let na := if fa = 0x1D then h * 16 - 15 else 0
     let nb := if fb = 0x1D then 8 * 16 - 15 else 0
     let value := fun (r c : Nat) => rnsValue (rnsFmt fa) (Claims.latch x r c)
     pairingOk fa fb u.task.fmtc.toNat = true → isRns fa = true → isRns fb = true → Claims.tileOk (u.s d) h →
     scalesClear fa u.offA na = true → scalesClear fb u.offB nb = true →
     Claims.unitFree x p.strand (scaleRange fa u.offA na ++ scaleRange fb u.offB nb) →
     Claims.sound x (scaleRange fa u.offA na ++ scaleRange fb u.offB nb) →
     ∃ t op, exec (.mdrain d rep) s = .next t ∧ Claims.mtxTaken s t (16 * n + 4) op ∧
       let e := op.settle (t.core p.core)
       Claims.outsideTile x e.1 t0 h ∧ (Claims.sound x (tileRange t0 h) → e.2.spoilt = none) ∧
       (∀ r c, r < h → c < 8 → Claims.latch e.1 r c = (0, 0, 0)) ∧
       (∀ r c, h ≤ r → c < 8 → Claims.latch e.1 r c = Claims.latch x r c) ∧
       (u.task.fmtc = 0 → ∀ r c, r < h → c < 8 →
         Claims.out e.1 t0 r c = ofInt 32 (toInt 32 (Claims.out x t0 r c) + value r c)) ∧
       (u.task.fmtc = 1 → ∀ r c, r < h → c < 8 →
         let sa := scaleOf x fa u.offA (16 * r)
         let sb := scaleOf x fb u.offB (16 * c)
         Claims.out e.1 t0 r c = if sa = .nan ∨ sb = .nan then fFP32.nanCode else
           (accumulate 1 (Claims.out x t0 r c) [((fmul (ofScaled (value r c) 0) sa).1, sb)]).1)) ∧
    (let o := t0
     let size := if fb = 0x10 then 512 else 256
     o % 64 = 0 → o + size ≤ 98304 → Claims.unitFree x p.strand [] → Claims.sound x [(o, size)] →
     ∃ t op, exec (.mlds d) s = .next t ∧ Claims.mtxTaken s t (if fb = 0x10 then 8 else 4) op ∧
       let e := op.settle (t.core p.core)
       let m := (e.2.finish e.1).mtx
       e.1 = t.core p.core ∧ m.active = x.mtx.active ∧ m.latches = x.mtx.latches ∧
       m.shadow.loaded = true ∧ m.shadow.sparse = 0 ∧ m.shadow.pfmt = u.task.fmtb ∧
       (fb ≠ 0x10 → m.shadow.image.toNat = leNat (x.readLocal o 256)) ∧
       (fb = 0x10 → ∀ c k, c < 8 → k < 16 → m.shadow.stored fb c k =
         leNat (x.readLocal (o + 4 * (16 * c + k)) 4) / 2 ^ 13 * 2 ^ 13)) ∧
    (let o := bits t0 0 32
     let code := bits t0 32 2
     let size := 256 + 4 * kOf fb
     code ≠ 3 → (containerBits fb = 4 ∨ containerBits fb = 8) → o % 64 = 0 → o + size ≤ 98304 →
     Claims.unitFree x p.strand [] → Claims.sound x [(o, size)] →
     ∃ t op, exec (.mldss d) s = .next t ∧ Claims.mtxTaken s t (4 + kOf fb / 16) op ∧
       let e := op.settle (t.core p.core)
       let m := (e.2.finish e.1).mtx
       e.1 = t.core p.core ∧ m.active = x.mtx.active ∧ m.latches = x.mtx.latches ∧
       m.shadow.loaded = true ∧ m.shadow.sparse.toNat = code + 1 ∧ m.shadow.pfmt = u.task.fmtb ∧
       m.shadow.image.toNat = leNat (x.readLocal o 256) ∧
       m.shadow.meta'.toNat = leNat (x.readLocal (o + 256) (4 * kOf fb))) ∧
    (Claims.unitFree x p.strand [] →
     ∃ t op, exec .mswap s = .next t ∧ Claims.mtxTaken s t 1 op ∧
       let e := op.settle (t.core p.core)
       let m := (e.2.finish e.1).mtx
       e.1 = t.core p.core ∧ m.active = x.mtx.shadow ∧ m.shadow = x.mtx.active ∧ m.latches = x.mtx.latches)

/-- For a READY strand: RINGCFG of slot size 0 unconfigures the ring and of a legal geometry configures it empty with
the strand as OWNER, when no copy command names it; RSTAT reports the fields of a configured ring and 0 of another;
RWAITF and RWAITE complete with the count they wait for when it is there and make the strand WAITING when not; RADVH
consumes n filled slots and RADVT, once its release is clear, produces n free ones, sD becoming FILLED; every one of
the four traps SPACE with sA on an unconfigured ring or when n cannot be met. Other rings and local memory keep
their values. (R189, R190, R191, R192, R193, R194) -/
def Obligations.RingResults : Prop :=
  ∀ (s : State) (d a b : SReg), s.bound = true → s.me.run = .ready →
    let p := s.cur.place
    let x := s.core p.core
    let g := (s.me.s a).toNat % 16
    let r := x.ring g
    let n := (s.me.s b).toNat
    let space := s.raise p causeSpace (s.me.s a)
    (let h := (s.me.s b).toNat % 16
     let sp := bits n 4 3
     let slot := bits n 8 8
     let count := bits n 16 10 + 1
     (x.copies.all fun e => !(e.2.active && (e.2.names h true || e.2.names h false))) = true → sp < 5 →
     (slot = 0 → ∃ t, exec (.ringcfg a b) s = .next t ∧ Claims.ringDone s t 0 0 h .reset) ∧
     (slot ≠ 0 → (s.me.s a).toNat % 64 = 0 →
      (if sp = 0 then (s.me.s a).toNat < 2 ^ 57 else inBuffer sp (s.me.s a).toNat (64 * slot * count) = true) →
      ∃ t, exec (.ringcfg a b) s = .next t ∧ Claims.ringDone s t 0 0 h
        { base := (s.me.s a).toNat, space := sp, slot := slot, count := count, prod := 0, cons := 0, filled := 0,
          thresh := min (bits n 32 11) count, owner := p.strand })) ∧
    (r.slot = 0 → exec (.rstat d a) s = (s.done fun t => t.setS d 0)) ∧
    (r.slot ≠ 0 → r.filled < 2 ^ 11 → r.prod < 2 ^ 10 → r.cons < 2 ^ 10 → r.space < 8 →
      ∃ v : Word, exec (.rstat d a) s = (s.done fun t => t.setS d v) ∧ (v.extractLsb' 0 11).toNat = r.filled ∧
        (v.extractLsb' 16 10).toNat = r.prod ∧ (v.extractLsb' 32 10).toNat = r.cons ∧
        (v.extractLsb' 48 3).toNat = r.space ∧ v.getLsbD 63 = true) ∧
    (r.slot = 0 → exec (.rwaitf d a b) s = .next space ∧ exec (.rwaite d a b) s = .next space ∧
      exec (.radvh d a b) s = .next space ∧ exec (.radvt d a b) s = .next space) ∧
    (r.slot ≠ 0 →
      (r.count < n → exec (.rwaitf d a b) s = .next space ∧ exec (.rwaite d a b) s = .next space) ∧
      (n ≤ r.count → n ≤ r.filled → ∃ t, exec (.rwaitf d a b) s = .next t ∧ Claims.ringDone s t d r.filled g r) ∧
      (n ≤ r.count → r.filled < n → ∃ t, exec (.rwaitf d a b) s = .next t ∧ t.me.run = .waiting ∧
        t.me.wait = .ring g true n ∧ s.othersAs t p) ∧
      (n ≤ r.count → n ≤ r.count - r.filled → ∃ t, exec (.rwaite d a b) s = .next t ∧
        Claims.ringDone s t d (r.count - r.filled) g r) ∧
      (n ≤ r.count → r.count - r.filled < n → ∃ t, exec (.rwaite d a b) s = .next t ∧ t.me.run = .waiting ∧
        t.me.wait = .ring g false n ∧ s.othersAs t p) ∧
      (r.filled < n → exec (.radvh d a b) s = .next space) ∧
      (n ≤ r.filled → ∃ t, exec (.radvh d a b) s = .next t ∧ Claims.ringDone s t d (r.filled - n) g
        { r with cons := (r.cons + n) % r.count, filled := r.filled - n }) ∧
      (r.count - r.filled < n → exec (.radvt d a b) s = .next space) ∧
      (n ≤ r.count - r.filled → s.releaseWait p s.me.vec.scope = none → ∃ t, exec (.radvt d a b) s = .next t ∧
        Claims.ringDone s t d (r.filled + n) g { r with prod := (r.prod + n) % r.count, filled := r.filled + n }))

/-- For a READY strand: CPY of a descriptor that passes its checks takes the lowest slot that is neither WAITING nor
RUNNING, with the descriptor and the strand in it, and sD is its number; with none it is STALLED; a misaligned
descriptor address traps MISALIGN. CPYWAIT completes with the mask of DONE slots once no named slot is active and is
WAITING otherwise; CPYSTAT gives the state, reason and strand of a slot; CPYCAN cancels the active slots it names,
at once and with their mask in sD where no write is in flight, and completes with 0 when it names none. (R196, R198,
R199, R204, R205) -/
def Obligations.CopyResults : Prop :=
  ∀ (s : State) (d a : SReg), s.bound = true → s.me.run = .ready →
    let p := s.cur.place
    let x := s.core p.core
    let g := (s.me.s a).toNat
    let active := fun (k : Nat) => ((mget x.copies k).map CopySlot.active).getD false
    (g % 64 ≠ 0 → exec (.cpy d a) s = .next (s.raise p causeMisalign (s.me.s a))) ∧
    (g % 64 = 0 → g + 192 ≤ 0x6000 → x.localWait (some p.strand) (0x38000 + g) 192 = none →
      x.localPoisoned (0x38000 + g) 192 = false →
      let q := copyDescOf (leNat (x.readLocal (0x38000 + g) 192))
      let route := q.dring = none ∧ q.dspace = 7
      1 ≤ q.dims.length → q.dims.length ≤ 10 → q.scope ≠ 7 → q.sspace ≤ 4 → q.dspace ≠ 5 → q.dspace ≠ 6 →
      x.copyCheck (s.me.s a) (x.copySpaces q).1 q.sring q.src q.sext false = none →
      x.copyCheck (s.me.s a) (x.copySpaces q).2 q.dring q.dst q.dext true = none →
      (route → checkMembers s.me (s.ctxOf p) rightW [1, 2, 4] q.window.1 q.window.2 1 (s.me.sheafOf (Fin.ofNat 16 q.droute)) = none) →
      ((∀ k, k < 4 → active k = true) → exec (.cpy d a) s = .next (s.stall p .copySlot)) ∧
      ∀ k, k < 4 → active k = false → (∀ j, j < k → active j = true) →
        ∃ t, exec (.cpy d a) s = .next t ∧ t.me.pc = s.me.complete.pc ∧ (∀ r, r ≠ d → t.me.s r = s.me.s r) ∧
          (d ≠ 0 → t.me.s d = BitVec.ofNat 64 k) ∧
          (mget (t.core p.core).copies k).map (fun c => (c.desc, c.strand, c.active, c.serial)) =
            some (q, p.strand, true, x.copySerial)) ∧
    (let mask := g % 16
     let named := fun (k : Nat) => decide (k < 4) && mask.testBit k
     ((∀ k, named k = true → active k = false) →
       (∃ t, exec (.cpywait d a) s = .next t ∧ t.me.pc = s.me.complete.pc ∧ (∀ r, r ≠ d → t.me.s r = s.me.s r) ∧
         (d ≠ 0 → ∀ k, (t.me.s d).getLsbD k = (named k && ((mget x.copies k).map (·.state)) == some .done))) ∧
       ∃ t, exec (.cpycan d a) s = .next t ∧ t.me = (s.me.setS d 0).complete) ∧
     (∀ k, named k = true → active k = true → ∃ t, exec (.cpywait d a) s = .next t ∧ t.me.run = .waiting ∧
       t.me.wait = .copy mask ∧ s.othersAs t p) ∧
     ((∀ k q, named k = true → mget x.copies k = some q → q.active = true → q.failing = 0 ∧ q.sent = []) →
       ∃ t, exec (.cpycan d a) s = .next t ∧ t.me.pc = s.me.complete.pc ∧
         (d ≠ 0 → ∀ k, (t.me.s d).getLsbD k = (named k && active k)) ∧
         ∀ k, named k = true → active k = true → (mget (t.core p.core).copies k).map (·.state) = some .cancelled)) ∧
    (let k := g % 4
     (mget x.copies k = none → exec (.cpystat d a) s = (s.done fun t => t.setS d 0)) ∧
     (∀ q, mget x.copies k = some q → q.reason < 16 → q.strand < 8 → ∃ t, exec (.cpystat d a) s = .next t ∧
       t.me.pc = s.me.complete.pc ∧ (∀ r, r ≠ d → t.me.s r = s.me.s r) ∧
       (d ≠ 0 → ((t.me.s d).extractLsb' 0 4).toNat = (match q.state with
           | .free => 0 | .waiting => 1 | .running => 2 | .done => 3 | .failed => 4 | .cancelled => 5) ∧
         ((t.me.s d).extractLsb' 4 4).toNat = q.reason ∧ ((t.me.s d).extractLsb' 8 3).toNat = q.strand)))

/-! ### Routes, remote operations, leases and groups -/

/-- With the 32 bytes at sA ready: WLD of zeros clears the register, of a sealed word of the strand's own context writes
it, of a sealed word of another context traps ROUTE-OWNER, and of a word whose TAG is wrong traps ROUTE-RIGHTS and
counts a tag failure; WST stores the register's 32 bytes; WNARROW and WDLG of a register that passes the head checks
with right N or D write a sealed word with the narrowed window, rights and flags or the new OWNER, and nothing else;
WCLR makes the register null; WINFO reads the fields, the target, the sheaf, the failure record or, for selectors 12
to 15, 0; WSTRIPE groups two to four named registers in one sheaf, takes a single one out of its sheaf, which a lone
register left in it leaves too, and raises ILLEGAL for w0 or for more than four; WMINT, on a manager core at
supervisor privilege, writes a sealed word with only the rights its endpoint accepts, and elsewhere traps PRIV. That
a seal is a keyed checksum of the model's own is its choice (log 8). (R208, R214, R215, R216, R217, R218, R220,
R264, R265) -/
def Obligations.RouteRegisterResults : Prop :=
  ∀ (s : State) (d a : RReg) (b e : SReg), s.bound = true →
    let p := s.cur.place
    let x := s.core p.core
    let g := (s.me.s b).toNat
    let there := g % 32 = 0 ∧ g + 32 ≤ 0x6000 ∧ x.localWait (some p.strand) (0x38000 + g) 32 = none
    let sound := x.localPoisoned (0x38000 + g) 32 = false
    let w : RouteWord := BitVec.ofNat 256 (leNat (x.readLocal (0x38000 + g) 32))
    let k := s.fabricKey
    let ctx := s.ctxOf p
    let from' := s.me.w a
    (there → sound →
      (w = 0 → ∃ t, exec (.wld d b) s = .next t ∧ Claims.routeSet s t d 0) ∧
      (w ≠ 0 → sealOk k w = true → wOwner w = ctx → ∃ t, exec (.wld d b) s = .next t ∧ Claims.routeSet s t d w) ∧
      (w ≠ 0 → sealOk k w = true → wOwner w ≠ ctx →
        exec (.wld d b) s = .next (s.raise p causeRouteOwner (BitVec.ofNat 64 (wOwner w)))) ∧
      (w ≠ 0 → sealOk k w = false → exec (.wld d b) s =
        .next ((s.raise p causeRouteRights (BitVec.ofNat 64 (0xFF00 + d.val))).countTagFail (dieOf p.core) ctx))) ∧
    (there → ∃ t, exec (.wst d b) s = .next t ∧ t.me = s.me.complete ∧ s.othersAs t p ∧
      leNat ((t.core p.core).readLocal (0x38000 + g) 32) = (s.me.w d).toNat ∧
      ∀ y, (y < 0x38000 + g ∨ 0x38000 + g + 32 ≤ y) → (t.core p.core).readLocalByte y = x.readLocalByte y) ∧
    (let off := bits g 0 20
     let len := bits g 20 20
     from' ≠ 0 → wOwner from' = ctx → wRights from' &&& rightN = rightN → len ≠ 0 → off + len ≤ wLen from' →
     ∃ t n, exec (.wnarrow d a b) s = .next t ∧ Claims.routeSet s t d n ∧ sealOk k n = true ∧
       wPath n = wPath from' ∧ wEndp n = wEndp from' ∧ wBase n = (wBase from' + off) % 2 ^ 20 ∧ wLen n = len ∧
       wRights n = wRights from' &&& bits g 40 8 ∧ wFlags n = wFlags from' &&& bits g 48 8 ∧
       wGen n = wGen from' ∧ wOwner n = wOwner from') ∧
    (from' ≠ 0 → wOwner from' = ctx → wRights from' &&& rightD = rightD →
     ∃ t n, exec (.wdlg d a b) s = .next t ∧ Claims.routeSet s t d n ∧ sealOk k n = true ∧
       wPath n = wPath from' ∧ wEndp n = wEndp from' ∧ wBase n = wBase from' ∧ wLen n = wLen from' ∧
       wRights n = (if g.testBit 16 then wRights from' else wRights from' - rightD) ∧ wFlags n = wFlags from' ∧
       wGen n = wGen from' ∧ wOwner n = g % 2 ^ 16) ∧
    (∃ t, exec (.wclr d) s = .next t ∧ Claims.routeSet s t d 0) ∧
    (∃ v : Word, exec (.winfo e a b) s = (s.done fun t => t.setS e v) ∧
      (from' = 0 → v = 0) ∧
      (from' ≠ 0 → v.toNat = (match g % 16 with
        | 0 => wEndp from' | 1 => wBase from' | 2 => wLen from' | 3 => wRights from' | 4 => wGen from'
        | 5 => wOwner from' | 6 => wFlags from' | 10 => wPath from' % 2 ^ 64 | 11 => wPath from' / 2 ^ 64
        | _ => v.toNat)) ∧
      (from' ≠ 0 → g % 16 = 7 → v = BitVec.ofNat 64 (match walkPath (wPath from') (wEndp from') with
        | none => 2 ^ 64 - 1
        | some q => dieOf q.core + 2 ^ 8 * xOf q.core + 2 ^ 16 * yOf q.core +
            (q.fibs.zipIdx.map fun f => f.1.2 * 2 ^ (32 + 8 * f.2)).sum)) ∧
      (from' ≠ 0 → g % 16 = 8 → v = BitVec.ofNat 64 (match mget s.me.sheaves a.val with
        | none => 0
        | some i => 1 + 2 * i + 2 ^ 16 * ((s.me.sheafMembers i).map fun j => 2 ^ j).sum)) ∧
      (from' ≠ 0 → g % 16 = 9 → v = BitVec.ofNat 64 (let f := mgetD s.me.routeFails a.val (0, 0); f.1 + 2 ^ 16 * f.2)) ∧
      (12 ≤ g % 16 → v = 0)) ∧
    (let mask := g % 2 ^ 16 ||| 2 ^ d.val
     let named := fun (r : Nat) => decide (r < 16) && mask.testBit r
     let w0 := s.me.w d
     (mask.testBit 0 = true ∨ 4 < (maskRegs mask).length →
       exec (.wstripe d b) s = .next (s.raise p causeIllegal (wordOf (.wstripe d b)))) ∧
     (mask.testBit 0 = false → (maskRegs mask).length = 1 → msorted s.me.sheaves = true →
       ∃ t, exec (.wstripe d b) s = .next t ∧ t.me.pc = s.me.complete.pc ∧ t.me.routes = s.me.routes ∧
         mget t.me.sheaves d.val = none ∧
         ∀ r, r ≠ d.val → mget t.me.sheaves r =
           match mget s.me.sheaves d.val with
           | none => mget s.me.sheaves r
           | some i => if mget s.me.sheaves r = some i ∧ (s.me.sheafMembers i).length ≤ 2 then none else mget s.me.sheaves r) ∧
     (mask.testBit 0 = false → 2 ≤ (maskRegs mask).length → (maskRegs mask).length ≤ 4 →
       (∀ r, named r = true → s.me.wn r ≠ 0 ∧ wOwner (s.me.wn r) = ctx ∧ (wFlags (s.me.wn r)).testBit 0 = true ∧
         pathInfo (wPath (s.me.wn r)) (wEndp (s.me.wn r)) = pathInfo (wPath w0) (wEndp w0) ∧
         wEndp (s.me.wn r) = wEndp w0 ∧ wBase (s.me.wn r) = wBase w0 ∧ wLen (s.me.wn r) = wLen w0) →
       (∃ i, i < 4 ∧ ∀ q ∈ s.me.sheaves, q.2 = i → named q.1 = true) →
       ∃ t i, exec (.wstripe d b) s = .next t ∧ t.me.pc = s.me.complete.pc ∧ t.me.routes = s.me.routes ∧ i < 4 ∧
         (∀ r, named r = true → mget t.me.sheaves r = some i) ∧
         ∀ r, named r = false → mget t.me.sheaves r ≠ some i)) ∧
    (s.me.trap.priv = false ∨ isManager p.core = false →
      exec (.wmint d b) s = .next (s.raise p causePriv (wordOf (.wmint d b)))) ∧
    (s.me.trap.priv = true → isManager p.core = true → there → sound → wLen w ≠ 0 → endpListed (wEndp w) = true →
      (∀ q ∈ segments (wPath w), q.1 < 8) →
      ∃ t n, exec (.wmint d b) s = .next t ∧ Claims.routeSet s t d n ∧ sealOk k n = true ∧
        wPath n = wPath w ∧ wEndp n = wEndp w ∧ wBase n = wBase w ∧ wLen n = wLen w ∧
        wRights n = wRights w &&& rightsKept (wEndp w) ∧ wGen n = wGen w ∧ wOwner n = wOwner w ∧ wFlags n = wFlags w % 4)

/-- For a register that passes the checks, RLD and RAMO send one packet and STALL until the response; RST and RSTF send
one and complete; RLDV sends one packet for each 256 B chunk that has an active element and STALLS, or completes
when none has; RSTV sends the elements' bytes chunk by chunk and completes; SEND and SENDV send their payload, tag
and strand and complete; RECV takes the oldest message into G, or makes the strand WAITING. On a null register RLD,
RST, RSTF and a legal RAMO trap ROUTE-NULL with its number. That the chunks of RLDV and RSTV are cut from the first
byte of the extent of the active elements is the model's reading (log 49). (R208, R209, R221, R224, R225, R226,
R227) -/
def Obligations.RemoteResults : Prop :=
  ∀ (s : State) (d : SReg) (e : VReg) (a : RReg) (b : SReg) (op : BitVec 3), s.bound = true → s.sends = true →
    let p := s.cur.place
    let x := s.core p.core
    let w := s.me.w a
    let off := (s.me.s b).toNat
    let ctx := s.ctxOf p
    let serial := x.ni.serial
    let ok := fun (need : Nat) (endps : List Nat) => checkRoute w ctx a.val need endps off 8 8 = none
    let clear := s.releaseWait p (pathScope w) = none
    let bytes := leBytes 8 (s.me.s d).toNat
    (w = 0 → exec (.rld d a b) s = .next (s.raise p causeRouteNull (BitVec.ofNat 64 a.val)) ∧
      exec (.rst d a b) s = .next (s.raise p causeRouteNull (BitVec.ofNat 64 a.val)) ∧
      exec (.rstf d a b) s = .next (s.raise p causeRouteNull (BitVec.ofNat 64 a.val)) ∧
      (ramoForm d op = true → exec (.ramo d a b op) s = .next (s.raise p causeRouteNull (BitVec.ofNat 64 a.val)))) ∧
    (ok rightR [1, 2, 3, 4] → ∃ t, exec (.rld d a b) s = .next t ∧ Claims.holds s t (.remote serial) d ∧
      Claims.sent s t w a.val (.rld off) []) ∧
    (ok rightW [1, 2, 4] → ∃ t, exec (.rst d a b) s = .next t ∧ Claims.ended s t 0 0 ∧
      Claims.sent s t w a.val (.rst off) bytes) ∧
    (ok (rightW + rightF) [4] → clear → ∃ t, exec (.rstf d a b) s = .next t ∧ Claims.ended s t 0 0 ∧
      Claims.sent s t w a.val (.rstf off) bytes) ∧
    (ramoForm d op = true → ok rightA [4] → clear → ∃ t, exec (.ramo d a b op) s = .next t ∧
      Claims.holds s t (.remote serial) d ∧ Claims.sent s t w a.val
        (.ramo off op.toNat (if op = 2 then s.me.s (Fin.ofNat 32 (d.val + 1)) else s.me.s d) (s.me.s d)) []) ∧
    (let n := s.me.sewW / 8
     let first := s.me.vec.vstart0
     let count := s.me.vec.vl - first
     let is := activeIn (s.me.m s.me.vec.vmsel) first s.me.vec.vl
     let ex := fun (r : Nat) (need : Nat) (endps : List Nat) =>
       checkRoute (s.me.wn r) ctx r need endps (off + first * n) (count * n) n = none
     (s.vecReady [dstReg e] = true → ex a.val rightR [1, 2, 3, 4] →
       (is = [] → ∃ t, exec (.rldv e a b) s = .next t ∧ t.me.pc = s.me.complete.pc ∧ t.me.v e = s.me.v e ∧
         t.me.vec = { s.me.vec with vstart0 := 0 }) ∧
       (is ≠ [] → ∃ t, exec (.rldv e a b) s = .next t ∧ Claims.holds s t (.remote serial) 0 ∧
         ∀ j c, (chunksOf is first n count)[j]? = some c →
           Claims.sentNo s t j w a.val (.rldv n (c.2.map fun i => off + i * n)) [])) ∧
     (s.vecReady [srcReg e] = true → (∀ r ∈ s.me.sheafOf a, ex r rightW [1, 2, 4]) →
       ∃ t, exec (.rstv e a b) s = .next t ∧ t.me.pc = s.me.complete.pc ∧ t.me.vectors = s.me.vectors ∧
         t.me.vec = { s.me.vec with vstart0 := 0 } ∧
         ∀ j c, (chunksOf is first n count)[j]? = some c → ∀ r,
           (sortBy id (s.me.sheafOf a))[c.1 % (s.me.sheafOf a).length]? = some r →
           Claims.sentNo s t j (s.me.wn r) r (.rstv n (c.2.map fun i => off + i * n))
             (c.2.map fun i => leBytes n (elem (s.me.v e) s.me.sewW i)).flatten)) ∧
    (let head := checkHead w ctx a.val rightS [0x05, 0x85] = none
     let window := fun (v : Word) => checkWindow w (unitOff w (msgStrand v)) 1 1 = none
     let g := bits off 0 15
     let n := bits off 32 9
     (1 ≤ n → n ≤ 256 → head → g % 8 = 0 → g + n ≤ 0x6000 → x.localWait (some p.strand) (0x38000 + g) n = none →
       x.localPoisoned (0x38000 + g) n = false → window (s.me.s d) → clear →
       ∃ t, exec (.send d a b) s = .next t ∧ Claims.ended s t 0 0 ∧
         Claims.sent s t w a.val (.send (msgStrand (s.me.s d)) (msgTag (s.me.s d))) (x.readLocal (0x38000 + g) n)) ∧
     (s.vecReady [srcReg e] = true → 1 ≤ s.me.vec.vl → s.me.vec.vl * (s.me.sewW / 8) ≤ 256 → head → window (s.me.s b) → clear →
       ∃ t, exec (.sendv e a b) s = .next t ∧ Claims.ended s t 0 0 ∧
         Claims.sent s t w a.val (.send (msgStrand (s.me.s b)) (msgTag (s.me.s b)))
           (leBytes (s.me.vec.vl * (s.me.sewW / 8)) (s.me.v e).toNat))) ∧
    (off % 8 = 0 → off + 256 ≤ 0x6000 →
      (x.oldestFor p.strand = none → ∃ t, exec (.recv d b) s = .next t ∧ t.me.run = .waiting ∧ t.me.wait = .recv off ∧
        s.othersAs t p) ∧
      ∀ k m, x.oldestFor p.strand = some (k, m) → x.localWait (some p.strand) (0x38000 + off) m.payload.length = none →
        ∃ t, exec (.recv d b) s = .next t ∧ Claims.ended s t d m.word ∧ mget (t.core p.core).inbox k = none ∧
          (t.core p.core).readLocal (0x38000 + off) m.payload.length = m.payload ∧
          ∀ y, (y < 0x38000 + off ∨ 0x38000 + off + m.payload.length ≤ y) →
            (t.core p.core).readLocalByte y = x.readLocalByte y)

/-- WLEASE over a GATE and a FIB segment takes the lowest entry not in use in state REQUESTED, sends its request and
gives the handle, or -1 with no entry; WRELEASE gives the state and leaves an entry in use RELEASED; WLSTAT reports
the fields. On a group in one of its slots, outside its present phase's arrival and with the plot-scope release
clear, GBAR and GRED send their arrival and WAIT, GARRIVE sends it and completes with the phase; GWAIT completes on
a passed phase and otherwise WAITS with a watch sent; GINFO reports size, rank and phase; a group in no slot, or a
second arrival, raises ILLEGAL. WGEN on a manager core at supervisor privilege asks for the port's advance and
STALLS, and elsewhere traps PRIV. (R219, R228, R229, R230, R231, R232, R339, R341, R343) -/
def Obligations.LeaseAndGroupResults : Prop :=
  ∀ (s : State) (d : SReg) (w : RReg) (a b : SReg), s.bound = true → s.sends = true →
    let p := s.cur.place
    let x := s.core p.core
    let v := (s.me.s a).toNat
    let u := (s.me.s b).toNat
    let live := fun (h : Nat) => ((mget x.leases h).map Lease.live).getD false
    let illegal := fun (i : Instr) => exec i s = .next (s.raise p causeIllegal (wordOf i))
    (∀ dir reach, checkHead (s.me.w w) (s.ctxOf p) w.val rightL anyEndp = none → leasePath (s.me.w w) = some (dir, reach) →
      (u % 32 = 0 → illegal (.wlease d w b)) ∧
      (u % 32 ≠ 0 → (∀ h, h < 16 → live h = true) → exec (.wlease d w b) s = (s.done fun t => t.setS d (BitVec.allOnes 64))) ∧
      (u % 32 ≠ 0 → ∀ h, h < 16 → live h = false → (∀ j, j < h → live j = true) →
        ∃ t, exec (.wlease d w b) s = .next t ∧ Claims.ended s t d (BitVec.ofNat 64 h) ∧
          Claims.sent s t (s.me.w w) w.val (.wlease h x.ni.serial) [] ∧
          (mget (t.core p.core).leases h).map (fun l => (l.state, l.strand, l.dir, l.reach, l.asked, l.term)) =
            some (.requested, p.strand, dir, reach, u % 32, min 16000 (max 10 (bits u 16 16))))) ∧
    (mget x.leases (v % 16) = none →
      exec (.wrelease d a) s = (s.done fun t => t.setS d 0) ∧ exec (.wlstat d a) s = (s.done fun t => t.setS d 0)) ∧
    (∀ l, mget x.leases (v % 16) = some l →
      (∃ t, exec (.wrelease d a) s = .next t ∧ Claims.ended s t d (BitVec.ofNat 64 l.state.code) ∧
        (mget (t.core p.core).leases (v % 16)).map (·.state) = some (if l.live then .released else l.state)) ∧
      (l.granted < 32 → l.asked < 32 → l.reach < 4 → l.dir < 8 → l.strand < 8 →
        ∃ r : Word, exec (.wlstat d a) s = (s.done fun t => t.setS d r) ∧ (r.extractLsb' 0 3).toNat = l.state.code ∧
          r.getLsbD 3 = l.reclaimed ∧ (r.extractLsb' 4 5).toNat = l.granted ∧ (r.extractLsb' 9 5).toNat = l.asked ∧
          (r.extractLsb' 14 2).toNat = l.reach ∧ (r.extractLsb' 16 3).toNat = l.dir)) ∧
    (let g := v % 256
     let view := x.view g
     let ph := x.phaseOf g p.strand
     let op := bits v 8 3
     (s.me.slotOf g = none → illegal (.gbar d a) ∧ illegal (.garrive d a) ∧ illegal (.gwait d a b) ∧
       illegal (.gred d a b) ∧ illegal (.ginfo d a b)) ∧
     ∀ k, s.me.slotOf g = some k →
       let route := mgetD s.me.groupRoutes k 0
       let arrived := mhas view.arrived p.strand = true
       let clear := ¬ arrived ∧ s.releaseWait p 2 = none
       let past := 0 < ((BitVec.ofNat 32 ph - (s.me.s b).setWidth 32 : BitVec 32)).toNat ∧
         ((BitVec.ofNat 32 ph - (s.me.s b).setWidth 32 : BitVec 32)).toNat < 2 ^ 31
       (arrived → illegal (.gbar d a) ∧ illegal (.garrive d a) ∧ (op < 6 → illegal (.gred d a b))) ∧
       (6 ≤ op → illegal (.gred d a b)) ∧
       (clear → ∃ t, exec (.gbar d a) s = .next t ∧ t.me.run = .waiting ∧ t.me.wait = .barrier g 0 (BitVec.ofNat 32 ph) ∧ t.me.waitReg = d ∧
         ((t.core p.core).view g).arrived = mset view.arrived p.strand ph ∧
         Claims.sent s t route (16 + k) (.arrive g ph (.one p none)) []) ∧
       (clear → ∃ t, exec (.garrive d a) s = .next t ∧ Claims.ended s t d (BitVec.ofNat 64 ph) ∧
         ((t.core p.core).view g).arrived = mset view.arrived p.strand ph ∧
         Claims.sent s t route (16 + k) (.arrive g ph (.one p none)) []) ∧
       (clear → op < 6 → ∃ t, exec (.gred d a b) s = .next t ∧ t.me.run = .waiting ∧ t.me.wait = .barrier g 2 (BitVec.ofNat 32 ph) ∧
         ((t.core p.core).view g).arrived = mset view.arrived p.strand ph ∧ Claims.sent s t route (16 + k)
           (.arrive g ph (.one p (some { op := op, value := (s.me.s b).setWidth 32 }))) []) ∧
       (past → ∃ t, exec (.gwait d a b) s = .next t ∧ Claims.ended s t d (BitVec.ofNat 64 ph)) ∧
       (¬past → ∃ t, exec (.gwait d a b) s = .next t ∧ t.me.run = .waiting ∧
         t.me.wait = .barrier g 1 ((s.me.s b).setWidth 32) ∧ Claims.sent s t route (16 + k) (.watch g p) []) ∧
       ∃ r : Word, exec (.ginfo d a b) s = (s.done fun t => t.setS d r) ∧
         ∀ q, s.groupOf p.core g = some q → (u % 4 = 0 → r = BitVec.ofNat 64 q.members.length) ∧
           (u % 4 = 1 → r = BitVec.ofNat 64 (q.members.findIdx fun m => m == p)) ∧
           (u % 4 = 2 → r = BitVec.ofNat 64 ph)) ∧
    (s.me.trap.priv = false ∨ isManager p.core = false → exec (.wgen d a) s = .next (s.raise p causePriv (wordOf (.wgen d a)))) ∧
    (s.me.trap.priv = true → isManager p.core = true → bits v 16 8 < 160 → 1 ≤ bits v 32 4 → bits v 32 4 < 9 →
      (v.testBit 36 = true → bits v 8 7 = 64 ∧ bits v 16 8 = 80 ∧ (bits v 32 4 = 5 ∨ bits v 32 4 = 6)) →
      ∃ t, exec (.wgen d a) s = .next t ∧ Claims.holds s t .answer d ∧
        (mget t.packets s.packetNo).map (fun q => (q.kind, q.target)) =
          some (if v.testBit 36 then (.wgen (managerBase + bits v 4 4) (0x80 + bits v 32 4), managerBase + bits v 4 4)
            else (.wgen (coreAt (bits v 4 4) (bits v 8 7) (bits v 16 8)) (bits v 32 4), coreAt (bits v 4 4) (bits v 8 7) (bits v 16 8))))

/-! ### Steps of strands and of the copy engine -/

/-- LOFT_MOVES_COMPLETE and RESOURCE_AVAILABLE make a strand that lacked what is now there READY; LOAD_MISS_FILL caches
the line and readies the strands that lacked it; CORE_BARRIER_QUIESCENT sets QUIESCENT and completes the first bound
strand's WFI; MATRIX_OP_COMPLETE, from the last clk of an operation whose lines are ready, leaves the bytes of all
its events, frees the unit, and completes the parked strand with what it read and its flags, and before that clk
leaves the strand PARKED; TIMECMP_MATCH sets UIP.TIMER; YIELD_EXPIRY completes a due YIELD; USER_INTERRUPT_ENTRY
goes to UIVEC with the return address and the causes in shadow s31 and s30; FEWAIT_LIMIT completes a bounded wait
with its limit result or traps FE-WAIT; BARWAIT_LIMIT leaves a barrier wait limited and traps a RECOAT of a kernel
that is not RECOATING; CPYCAN_COMPLETE completes with the mask of the slots that it cancelled. That a matrix
operation ends at its last clk with the bytes of all its events is the model's reading (log 27), and so is that
BARWAIT_LIMIT only marks a barrier wait, whose withdrawal follows (log 65); the way that LOAD_MISS_FILL finds open
is its choice (log 20). (R35, R42, R56, R62, R72, R73, R118, R188, R205, R234, R345, R386) -/
def Obligations.WaitEndSteps : Prop :=
  (∀ (s : State) (p : Place), s.given = .place p →
    let u := s.strand p
    (u.run = .stalled → u.lack = .loft → ∃ t, exec .loftMovesComplete s = .next t ∧ Claims.woken s t p ∧ s.othersAs t p) ∧
    (u.run = .stalled → u.wait = .none → s.lackMet p u.lack = true →
      ∃ t, exec .resourceAvailable s = .next t ∧ Claims.woken s t p ∧ s.othersAs t p) ∧
    (u.run ≠ .unbound → ∃ t, exec .timecmpMatch s = .next t ∧ (t.strand p).trap.uip = u.trap.uip ||| 1 ∧ s.othersAs t p) ∧
    (u.run = .waiting → u.wait = .yield → u.yieldEnd ≤ s.now →
      ∃ t, exec .yieldExpiry s = .next t ∧ Claims.finished s t p 0 ∧ s.othersAs t p) ∧
    (u.run = .ready → u.interruptDue = true → ∃ t, exec .userInterruptEntry s = .next t ∧ (t.strand p).pc = u.trap.uivec ∧
      (t.strand p).inUi = true ∧ (t.strand p).shadow = true ∧ (t.strand p).trap.uieOn = false ∧
      (t.strand p).s 31 = u.pc ∧ (t.strand p).s 30 = u.causes.setWidth 64 ∧ (t.strand p).run = .ready ∧ s.othersAs t p) ∧
    (u.interruptible = true → u.wait = .sleep → ∃ t, exec .userInterruptEntry s = .next t ∧
      (t.strand p).pc = u.trap.uivec ∧ (t.strand p).s 31 = u.complete.pc ∧ (t.strand p).run = .ready ∧ s.othersAs t p) ∧
    (u.run = .waiting →
      (∀ off k v, u.wait = .fe off k v → Claims.delivered s p → ∃ t, exec .fewaitLimit s = .next t ∧
        Claims.trapped s t p causeFeWait (BitVec.ofNat 64 off)) ∧
      (∀ g filled n, u.wait = .ring g filled n → ∃ t, exec .fewaitLimit s = .next t ∧ Claims.finished s t p
        (BitVec.ofNat 64 (((s.core p.core).ring g).waitCount filled))) ∧
      (∀ mask, u.wait = .copy mask → ∃ t, exec .fewaitLimit s = .next t ∧ Claims.finished s t p
        (BitVec.ofNat 64 ((s.core p.core).doneMask mask))) ∧
      (u.wait = .take ∨ u.wait = .sleep ∨ (∃ g, u.wait = .recv g) ∨ (∃ c, u.wait = .wfev c) →
        ∃ t, exec .fewaitLimit s = .next t ∧ Claims.finished s t p 0) ∧
      (∀ g k v, u.wait = .barrier g k v → u.limited = false → ∃ t, exec .barwaitLimit s = .next t ∧
        (t.strand p).limited = true ∧ (t.strand p).run = .waiting ∧ (t.strand p).wait = u.wait) ∧
      (u.wait = .recoat → u.limited = false → s.recoating p.core = false → Claims.delivered s p → ∃ t, exec .barwaitLimit s = .next t ∧
        Claims.trapped s t p causeBarWait 0x100)) ∧
    (∀ mask, u.run = .stalled → u.wait = .cancel mask →
      (∀ i q, i < 4 → mask.testBit i = true → mget (s.core p.core).copies i = some q →
        q.active = false ∨ p.strand ∉ q.cancelBy) →
      ∃ t, exec .cpycanComplete s = .next t ∧ s.othersAs t p ∧
        Claims.finished s t p (BitVec.ofNat 64 mask))) ∧
  (∀ (s : State) (c k n : Nat), s.given = .line c k n → s.memoryOpen c (64 * n) = true → ∃ t, exec .loadMissFill s = .next t ∧
    mhas (t.core c).dcache n = true ∧
    ∀ q, ((s.core c).strand q).run = .stalled → ((s.core c).strand q).lack = .line n →
      ((t.core c).strand q).run = .ready ∧ ((t.core c).strand q).pc = ((s.core c).strand q).pc) ∧
  ∀ (s : State) (c : Nat), s.given = .core c →
    (∀ k u, (s.core c).barrierMet = true → (s.core c).strands.find? (fun e => e.2.run != .unbound) = some (k, u) →
      ∃ t, exec .coreBarrierQuiescent s = .next t ∧ (t.core c).quiescent = true ∧
        ((t.core c).strand k).run = .ready ∧ ((t.core c).strand k).pc = u.complete.pc) ∧
    ∀ op, (s.core c).mtx.busy = some op →
      let p : Place := { core := c, strand := op.strand }
      let e := op.settle (s.core c)
      (s.strand p).run = .parked → (s.strand p).wait = .matrix →
      (op.endClk ≤ s.now → (∀ r ∈ op.rows, (s.core c).localWait (some op.strand) r.range.1 r.range.2 = none) →
        ∃ t, exec .matrixOpComplete s = .next t ∧ (t.core c).mtx = (e.2.finish e.1).mtx ∧
          t.strand p = (e.2.finishStrand (s.strand p).wake).complete ∧ s.othersAs t p ∧
          ∀ a, (t.core c).readLocalByte a = e.1.readLocalByte a) ∧
      (s.now < op.endClk → ∃ t, exec .matrixOpComplete s = .next t ∧ t.strand p = s.strand p ∧ s.othersAs t p ∧
        t.timers = s.timers ++ [(s.now + 1, { step := .matrixOpComplete, given := .core c })])

/-- ENGINE_TRAP makes a strand take its first pending trap at its vector; UNCORRECTED_TRAP marks every byte of the line
poisoned and sets OWNER.POISON; LOCK_WATCHDOG 4,096 clk after a lock clears the strand's locks and FAULTS the kernel
with the bays as the value. STORE_BUFFER_DRAIN takes the oldest entry out of the buffer and its die then sees its
bytes, unless a copy engine owns the line; GRANARY_WRITEBACK leaves no copy of the line in its die, which sees the
same device bytes as before; BAY_SCRUB_COMPLETE ends the scrub of a bay. That an uncorrected error marks every byte
of its line is the model's reading (log 47), and so is that LOCK_WATCHDOG faults the kernel at any privilege (log
64); the way that a drain finds open is its choice (log 20). (R76, R78, R202, R373, R55, R126, R246, R248, R257) -/
def Obligations.TrapAndMemorySteps : Prop :=
  ((∀ (s : State) (p : Place) (c : Nat) (v : Word) (r : List (Nat × Word)), s.given = .place p →
    (s.strand p).pendTrap = (c, v) :: r → Claims.delivered s p →
    ∃ t, exec .engineTrap s = .next t ∧ Claims.trapped s t p causeEngine v ∧ (t.strand p).pendTrap = r ∧ s.othersAs t p) ∧
  (∀ (s : State) (p : Place) (isLocal : Bool) (a : Nat), s.given = .error p isLocal a →
    ∃ t, exec .uncorrectedTrap s = .next t ∧
      (∀ b, b / 64 = a / 64 → if isLocal then mhas (t.core p.core).bad b = true else mhas t.poisoned b = true) ∧
      ((s.core p.core).owner.id ≠ 0 → (t.core p.core).owner.poison = true)) ∧
  ∀ (s : State) (p : Place) (n k : Nat) (q : Kernel), s.given = .place p → mget (s.core p.core).lockFrom p.strand = some n →
    n + 4096 ≤ s.now → (s.core p.core).heldBays p.strand ≠ 0 → (s.core p.core).kern = some k → mget s.kernels k = some q →
    q.state = .running → (s.strand p).mid = false → ∃ t, exec .lockWatchdog s = .next t ∧
      ((mget t.kernels k).map fun w => (w.state, w.cause, w.tval)) =
        some (.faulted, causeLockWatchdog, BitVec.ofNat 64 ((s.core p.core).heldBays p.strand)) ∧
      (t.strand p).run = .unbound ∧ ∀ b, mget (t.core p.core).locks b ≠ some p.strand) ∧
  ((∀ (s : State) (c : Nat) (e : SbEntry) (r : List SbEntry), s.given = .core c → (s.core c).sb = e :: r →
    mhas s.owned (e.pa / 64) = false → s.memoryOpen c e.pa = true → ∃ t, exec .storeBufferDrain s = .next t ∧ (t.core c).sb = r ∧
      ∀ j b, e.bytes[j]? = some b → t.physByte (dieOf c) e.key e.gen (e.pa + j) = b) ∧
  (∀ (s : State) (d line : Nat) (key : Key), s.given = .item d line → line < 2 ^ 42 → msorted (s.die d).dirty = true →
    mgetD s.lineKey line key = key → ∃ t, exec .granaryWriteback s = .next t ∧ mget (t.die d).writers line = none ∧
      mget (t.die d).hostLines line = none ∧
      ∀ pa, pa / 64 = line → mget (t.die d).dirty pa = none ∧
        ∀ gen, t.physByte d key gen pa = s.physByte d key gen pa) ∧
  ∀ (s : State) (c b : Nat), s.given = .item c b → ∃ t, exec .bayScrubComplete s = .next t ∧
    mget (t.core c).scrub b = none ∧ ∀ a, (t.core c).readLocalByte a = (s.core c).readLocalByte a)

/-- COPY_START sets a startable command RUNNING; COPY_LINE_WRITE of a RUNNING command between local buffers, where no
element reaches into the loft, writes the unit's bytes, takes it off the list and writes no byte outside its line;
COPY_DONE sets a command with nothing left to write DONE; COPY_FAIL sets a failing command with no write in flight
FAILED with its reason. That a unit is a 64-byte destination line, that an element may be cut by lines, and that a
unit whose element reaches into the loft moves nothing, are the model's choices (log 28). (R198, R200, R201, R202,
R206) -/
def Obligations.CopyEngineSteps : Prop :=
  (∀ (s : State) (c k : Nat) (q : CopySlot), s.given = .item c k → mget (s.core c).copies k = some q →
    ((s.core c).canStart q = true → ∃ t, exec .copyStart s = .next t ∧ Claims.copyState t c k = some .running) ∧
    ((s.core c).canFinish q = true → ∃ t, exec .copyDone s = .next t ∧ Claims.copyState t c k = some .done) ∧
    (q.active = true → q.failing ≠ 0 → q.sent = [] → ∃ t, exec .copyFail s = .next t ∧
      Claims.copyState t c k = some .failed ∧ (mget (t.core c).copies k).map (·.reason) = some q.failing)) ∧
  ∀ (s : State) (c k u : Nat) (q : CopySlot) (l : List (Int × Byte)), s.given = .line c k u →
    mget (s.core c).copies k = some q → q.state = .running → u ∈ q.todo → q.failing = 0 → q.cancelBy = [] →
    q.isRoute = false →
    let sp := (s.core c).copySpaces q.desc
    let off := bufBase sp.2 + 64 * u
    sp.1 ≠ 0 → 1 ≤ sp.2 → sp.2 ≤ 4 → (s.copyBytes c sp.1 (q.unitBytes u)).2 = .ok l →
    q.reachesLoft sp u = false → (s.core c).lockedAgainst none (bayOf off) = false →
    mhas (s.core c).scrub (bayOf off) = false →
    ∃ t, exec .copyLineWrite s = .next t ∧
      (mget (t.core c).copies k).map (·.todo) = some (q.todo.filter (· != u)) ∧
      (∀ e ∈ l, (∀ f ∈ l, f.1.toNat = e.1.toNat → f.2 = e.2) →
        (t.core c).readLocalByte (bufBase sp.2 + e.1.toNat) = e.2) ∧
      ∀ a, (∀ e ∈ l, bufBase sp.2 + e.1.toNat ≠ a) → (t.core c).readLocalByte a = (s.core c).readLocalByte a

/-! ### Steps of pages, packets, the fabric, queues, the host and contexts -/

/-- TRANSLATION_WALK, once the way to the station is open, readies the strand, attaches it to a service, readies it to
trap, or raises UNCORRECTED for a table entry in a poisoned line; PAGE_SERVICE_COMPLETE closes a record, gives its
waiter the fault when it fails, and for a copy on write writes the new entry and begins a shootdown; PRI_RESPONSE
ends the host's service; SHOOTDOWN and ATS_INVALIDATION begin one and SHOOTDOWN_COMPLETE leaves no TLB with what it
hit; EVICT, DESTROY_KEY_SLOT, GENERATE_KEY_SLOT and SKIM_PAGE change the entry or the slot; MAINT_REQUEST_DISCARD
logs. The virtual page of a request, EVICT without a shootdown of its own, SKIM of an evicted entry and the answer
of ATS_INVALIDATION are the model's reading (log 61), and so is that a destroyed key slot drops translations (log
62); the way to the station is its choice (log 20). (R353, R355, R356, R357, R358, R359, R360, R361, R362, R363) -/
def Obligations.PageSteps : Prop :=
  (∀ (s : State) (p : Place) (va kind : Nat), s.given = .walk p va kind → (s.strand p).run = .stalled →
    (s.strand p).lack = .translation va kind →
    (s.stationOpen p.core (dieOf p.core) (va / 32768 % 16) = false → ∃ t, exec .translationWalk s = .next t ∧
      t.timers = s.timers ++ [(s.now + 1, ⟨.translationWalk, s.given⟩)] ∧ t.cores = s.cores) ∧
    (s.stationOpen p.core (dieOf p.core) (va / 32768 % 16) = true →
      match (s.translate p.core va kind).2 with
      | .ok _ => ∃ t, exec .translationWalk s = .next t ∧ Claims.woken s t p
      | .error (.spoilt pa) => exec .translationWalk s =
          .next ((s.translate p.core va kind).1.uncorrected p (BitVec.ofNat 64 pa))
      | .error x => ∃ t, exec .translationWalk s = .next t ∧
          if x.satisfiable then (t.strand p).run = .stalled ∧ (t.strand p).lack = .service va kind
          else Claims.woken s t p ∧ (t.strand p).walked = some (va, kind))) ∧
  (∀ (s : State) (d ctx va frame a k : Nat) (kind : ServiceKind) (ok : Bool) (r : Service) (w : Place),
    s.given = .service d ctx va kind ok frame →
    r.waiters = [w] → w.strand < 16 → (s.strand w).run = .stalled → (s.strand w).lack = .service a k →
    ((s.die d).service ctx va kind = some r → r.asked = false →
      (ok = false → ∃ t, exec .pageServiceComplete s = .next t ∧ Claims.woken s t w ∧
        (t.strand w).walked = some (a, k) ∧ r ∉ (t.die d).services) ∧
      (ok = true → kind = .system → (s.context ctx).isSome = true →
        ∃ t, exec .pageServiceComplete s = .next t ∧ Claims.woken s t w)) ∧
    (∀ q, (s.die d).service ctx va kind = some r → kind ≠ .scrub →
      (s.pageReqs.find? fun q => q.die == d && q.ctx == ctx && q.va == va && q.kind == kind) = some q → ∃ t, exec .priResponse s = .next t ∧ Claims.woken s t w ∧ t.pageReqs = s.pageReqs.erase q ∧
        (ok = false → (t.strand w).walked = some (a, k)))) ∧
  (∀ (s s1 s2 s3 : State) (d ctx va frame ia src dst : Nat) (r : Service) (f : Leaf) (key : Key),
    s.given = .service d ctx va .cow true frame → (s.die d).service ctx va .cow = some r → r.asked = false →
    s.leafOf d ctx va = some f → f.size = 32768 → pteV f.pte = true → pteCow f.pte = true →
    (s.slotOf d ctx f.pte).bind (·.key) = some key →
    let who := serviceUnit d ctx va 0
    s.poolFrame d ctx who = (s1, .ok ia) → s1.frameXlat d ctx (pteFrame f.pte) 0 who = (s2, .ok src) →
    s2.frameXlat d ctx ia 1 who = (s3, .ok dst) → s3.physPoisoned src 32768 = false → f.addr + 8 ≤ 2 ^ 48 →
    ∃ t, exec .pageServiceComplete s = .next t ∧
      t.rawNat d f.addr 8 = (f.pte &&& 0x0FFFF00E) + 0xC1 + bits ia 15 33 * 2 ^ 28 ∧
      t.shootdowns = s.shootdowns ++
        [⟨ctx, va, 1, none, some (d, va, .cow), none, none⟩]) ∧
  (∀ (s : State) (ctx d core tid a0 a1 a3 : Nat), s.given = .maint ctx d core tid a0 a1 a3 →
    let ctr := (bits a3 12 4, bits a3 0 12)
    let ends := fun (t : State) => Claims.nowDue s t .counterSignal (.signal ctr.1 ctr.2 ctx ⟨0, 0⟩ false 4)
    (∃ t, exec .shootdown s = .next t ∧
      t.shootdowns = s.shootdowns ++ [⟨ctx, a0 * 32768, a1, some ctr, none, if a1 = 0 then some d else none, none⟩]) ∧
    (∃ t, exec .atsInvalidation s = .next t ∧
      t.shootdowns = s.shootdowns ++
        ((s.contexts.filter fun e => e.2.pasid == ctx).map fun e => ⟨e.1, a0 * 32768, a1, none, none, none, some (ctx, s.draws)⟩) ∧
      ((∀ e ∈ s.contexts, e.2.pasid ≠ ctx) → t.atsDone = s.atsDone ++ [(ctx, a0, a1)])) ∧
    (∃ t, exec .maintRequestDiscard s = .next t ∧ t.errors = s.errors ++ [(tid, core)] ∧ t.dies = s.dies) ∧
    (∀ x, s.context ctx = some x → a0 < 64 →
      let old := (mget x.slots a0).bind (·.key)
      let e := ((mget x.slots a0).map (·.epoch)).getD 0
      (∃ t, exec .destroyKeySlot s = .next t ∧ ends t ∧
        (t.context ctx).bind (fun y => mget y.slots a0) = some ⟨none, (e + 1) % 256⟩ ∧
        ∀ c, ∀ y ∈ (t.core c).tlb, y.ctx = ctx → some y.key ≠ old) ∧
      ∃ t, exec .generateKeySlot s = .next t ∧ ends t ∧
        (t.context ctx).bind (fun y => mget y.slots a0) = some ⟨some (Config.freshKey s.draws), e⟩) ∧
    ∀ f, s.leafOf d ctx (a0 * 32768) = some f → f.addr + 8 ≤ 2 ^ 48 →
      (pteGen f.pte ≠ 0x3FF ∨ pteV f.pte = false → ∃ t, exec .skimPage s = .next t ∧
        pteGen (t.rawNat d f.addr 8) = (pteGen f.pte + 1) % 1024 ∧
        t.shootdowns = s.shootdowns ++
          [⟨ctx, a0 * 32768 / f.size * f.size, f.size / 32768, some ctr, none, none, none⟩]) ∧
      ∀ s1 pa key, s.frameXlat d ctx (pteFrame f.pte) 0 (serviceUnit d ctx (a0 * 32768) 2) = (s1, .ok pa) →
        (s.slotOf d ctx f.pte).bind (·.key) = some key → s1.physPoisoned pa 32768 = false → a1 % 64 = 0 → pteV f.pte = true → f.size = 32768 → pteCow f.pte = false → pteBusy f.pte = false → isHost pa = false →
        ∃ t, exec .evict s = .next t ∧ ends t ∧ pteV (t.rawNat d f.addr 8) = false ∧ pteEv (t.rawNat d f.addr 8) = true) ∧
  ∀ (s : State) (ctx first : Nat) (q : Shootdown), s.given = .item ctx first →
    (s.shootdowns.find? fun q => q.ctx == ctx && q.first == first) = some q → q.service = none →
    (∀ e ∈ s.cores, e.2.owner.id = ctx → e.2.sb = []) →
    ∃ t, exec .shootdownComplete s = .next t ∧ t.shootdowns = s.shootdowns.erase q ∧
      ∀ c, ∀ e ∈ (t.core c).tlb, q.hits e = false

/-- A packet that fails its GCM check is discarded and settles nothing; a store that passes the checks of a target is
applied and acknowledged, a load answered with its bytes; a message takes an inbox slot and sets UIP.MSG; a posted
packet takes a queue entry; WGEN advances a port; a response completes the strand that waits; an acknowledgement
settles the packet; a refusal records the failure and sets UIP.ROUTEFAIL; a NACK sets the back-off and its end sends
the packet again, unless an earlier one of its register has still to wait; a parked packet's sender is told to wait,
which restarts its timer, and a timer that ends sends the packet again with its SEQ; a moved task packet keeps its
PRIO and STAMP, or is eligible again at its source. How a packet is damaged and checked (log 8) and travels (log 20)
are the model's choices; when a balancer migration may leave is its reading (log 63). (R209, R210, R211, R219, R260,
R274, R304, R310, R311, R314, R364, R365) -/
def Obligations.PacketArrivals : Prop :=
  (∀ (s : State) (id : Nat) (k : Packet), s.given = .packet id → mget s.packets id = some k →
    let p : Place := { core := k.core, strand := k.strand }
    let tgt := s.core k.target
    (s.verdict k = .apply → k.module' = s.moduleId → k.word ≠ 0 → Claims.canAnswer s k →
      (∀ off, k.kind = .rst off → tgt.localWait none (k.local' (wBase k.word + off)) 8 = none →
        ∃ t, exec .remoteAccessArrival s = .next t ∧ Claims.answered s t k .ack [] ∧
          ∀ j v, k.payload[j]? = some v → (t.core k.target).readLocalByte (k.local' (wBase k.word + off) + j) = v) ∧
      (∀ off, k.kind = .rld off → tgt.localWait none (k.local' (wBase k.word + off)) 8 = none →
        ∃ t, exec .remoteAccessArrival s = .next t ∧
          Claims.answered s t k (.resp 0) (tgt.readLocal (k.local' (wBase k.word + off)) 8)) ∧
      (∀ n tag slot, k.kind = .send n tag → tgt.inboxTakes n = true → mfree tgt.inbox inboxSlots = some slot →
        (tgt.strand n).run = .ready → ∃ t, exec .messageArrival s = .next t ∧ Claims.answered s t k .ack [] ∧
          (mget (t.core k.target).inbox slot).map (fun m => (m.strand, m.payload, m.fromStrand, m.fromCore, m.tag)) =
            some (n, k.payload, k.strand, switchOf k.core, tag) ∧
          ((t.core k.target).strand n).trap.uip = (tgt.strand n).trap.uip ||| 2) ∧
      ∀ pr n, k.kind = .postw pr → isManager k.target = false → mfree tgt.queue 64 = some n →
        let w : WorkPacket := BitVec.ofNat 512 (leNat k.payload)
        s.foreignCounter k.target tgt.owner.id w = false → Claims.noTakers s k.target →
        ∃ t, exec .taskPacketArrival s = .next t ∧ Claims.answered s t k .ack [] ∧
          (t.entry k.target n).map (fun e => (e.packet, e.state)) =
            some (w, if WorkPacket.depv w then .waiting else .eligible)) ∧
    (∀ target port, k.kind = .wgen target port → Claims.genuine s k → Claims.canAnswer s k →
      let g := (s.core target).ni.port port
      let ans := fun (t : State) => (mget t.packets s.packetNo).map fun a => (a.kind, a.payload, a.core, a.strand, a.target)
      ∃ t, exec .portGenAdvance s = .next t ∧
        if g = 0xFFFF then (t.core target).ni.port port = g ∧
          ans t = some (.resp 0, List.replicate 8 0xFF, k.core, k.strand, k.core)
        else (t.core target).ni.port port = g + 1 ∧ ans t = some (.resp 0, leBytes 8 (g + 1), k.core, k.strand, k.core)) ∧
    (¬ Claims.genuine s k → ∃ t, exec .responseArrival s = .next t ∧ exec .acknowledgementArrival s = .next t ∧
      exec .refusalArrival s = .next t ∧ exec .nackArrival s = .next t ∧ exec .keepWaitingNotice s = .next t ∧
      exec .portGenAdvance s = .next t ∧ mget t.packets id = none ∧ ∀ c n, t.outOf c n = s.outOf c n) ∧
    (Claims.genuine s k → k.word = 0 → (s.strand p).wait = .answer →
      ∃ t, exec .responseArrival s = .next t ∧ Claims.finished s t p (BitVec.ofNat 64 (leNat k.payload))) ∧
    (∀ o, s.awaited k = some o → Claims.genuine s k →
      (∀ off, k.word ≠ 0 → o.pkt.kind = .rld off → (s.strand p).wait = .remote o.pkt.op →
        msorted (s.core k.core).ni.out = true → (∀ e ∈ (s.core k.core).ni.out, e.2.pkt.op = o.pkt.op → e.1 = k.num) →
        ∃ t, exec .responseArrival s = .next t ∧ Claims.finished s t p (BitVec.ofNat 64 (leNat k.payload))) ∧
      (∀ off, o.pkt.kind = .rst off →
        (k.kind = .ack → ∃ t, exec .acknowledgementArrival s = .next t ∧ t.outOf k.core k.num = none) ∧
        ∀ r, k.kind = .refusal r → k.word ≠ 0 →
          let q : Place := { core := k.core, strand := o.pkt.strand }
          (s.strand q).run ≠ .unbound → 1 ≤ o.pkt.wreg → o.pkt.wreg < 16 →
          ∃ t, exec .refusalArrival s = .next t ∧ t.outOf k.core k.num = none ∧
            mget (t.strand q).routeFails o.pkt.wreg =
              some (min 0xFFFF ((mgetD (s.strand q).routeFails o.pkt.wreg (0, 0)).1 + 1), r) ∧
            (t.strand q).trap.uip = (s.strand q).trap.uip ||| 32) ∧
      (∀ nar, k.kind = .nack nar → nextMember o.members o.pkt.wreg = none → o.nacks + 1 < 64 →
        ∃ t, exec .nackArrival s = .next t ∧
          (t.outOf k.core k.num).map (fun o => (o.nacks, o.inFlight, o.resendAt)) =
            some (o.nacks + 1, false, some (s.now + 64 * 2 ^ min o.nacks 10)) ∧
          t.timers = s.timers ++ [(s.now + 64 * 2 ^ min o.nacks 10, ⟨.nackResend, .item k.core k.num⟩)]) ∧
      ∃ t, exec .keepWaitingNotice s = .next t ∧ (t.outOf k.core k.num).map (·.timerFrom) = some s.now) ∧
    (∀ dst n e, k.kind = .move dst n e → Claims.genuine s k → Claims.encrypts s dst →
      (∀ m, mfree (s.core dst).queue 64 = some m → Claims.noTakers s dst →
        ∃ t, exec .migrationArrival s = .next t ∧
          (t.entry dst m).map (fun e => (e.packet, e.prio, e.stamp, e.state)) =
            some (e.packet, e.prio, e.stamp, .eligible) ∧
          (mget t.packets s.packetNo).map (fun a => (a.kind, a.target)) = some (.moveDone n, k.core)) ∧
      (mfree (s.core dst).queue 64 = none → ∃ t, exec .migrationArrival s = .next t ∧
        (mget t.packets s.packetNo).map (fun a => (a.kind, a.target)) = some (.moveRefused n, k.core))) ∧
    ∀ n e, k.kind = .moveRefused n → Claims.genuine s k → s.entry k.target n = some e → e.state = .moving → Claims.noTakers s k.target →
      ∃ t, exec .migrationRefused s = .next t ∧
        (t.entry k.target n).map (fun e => (e.packet, e.state)) = some (e.packet, .eligible)) ∧
  (∀ (s : State) (c num : Nat) (o : Outstanding), s.given = .item c num → s.outOf c num = some o →
    Claims.encrypts s c →
    let waits := (s.core c).ni.out.filter fun e => e.2.pkt.strand == o.pkt.strand && e.2.pkt.wreg == o.pkt.wreg && !e.2.inFlight
    (∀ n, o.resendAt = some n → n ≤ s.now →
      (waits = [(num, o)] → ∃ t, exec .nackResend s = .next t ∧
        (t.outOf c num).map (fun o => (o.inFlight, o.resendAt)) = some (true, none)) ∧
      ∀ m q r u, waits = (m, q) :: r → q.resendAt = some u → s.now < u → exec .nackResend s = .next s) ∧
    (o.inFlight = true → waits = [] → o.got = none → o.timerFrom + 24000 ≤ s.now →
      (walkPath (wPath o.pkt.word) (wEndp o.pkt.word)).isSome = true →
      ∃ t, exec .responseTimerExpiry s = .next t ∧
        (mget t.packets s.packetNo).map (fun a => (a.kind, a.seq, a.num)) = some (o.pkt.kind, o.pkt.seq, o.pkt.num) ∧
        (t.outOf c num).map (·.timerFrom) = some s.now)) ∧
  (∀ (s : State) (d : Nat) (k : Packet), s.given = .die d → (s.die d).faultQueue = [k] → k.module' = s.moduleId → k.word ≠ 0 →
    Claims.canAnswer s k → (∀ g n a, k.kind ≠ .arrive g n a) → ∃ t, exec .keepWaitingTimer s = .next t ∧ Claims.answered s t k .keepWaiting []) ∧
  ∀ (s : State) (c n : Nat) (e : TaskEntry), s.given = .core c → (s.core c).queue = [(n, e)] →
    e.stores ≤ (s.core c).drains → e.state = .moving → e.sent = false → e.notBefore ≤ s.now → Claims.encrypts s c → ∃ (t : State) (e' : TaskEntry), exec .migrationSend s = .next t ∧
      (t.entry c n).map (·.sent) = some true ∧
      (mget t.packets s.packetNo).map (fun a => (a.kind, a.target)) = some (.move e.dest n e', e.dest) ∧
      WorkPacket.scope e'.packet = max 3 (WorkPacket.scope e.packet) ∧ WorkPacket.arm e'.packet = 0 ∧
      e'.prio = e.prio ∧ e'.stamp = e.stamp

/-- A header crosses an UP link to the next switch, or is dropped and counted when its seal fails, or dropped after a
level-3 alarm; the gateway hands requests to the lease agent, sends a FIBRE leg under the link key and lands a
packet at its port; LINK_RETRY counts and retires; LANE_LOSS takes a link DOWN with a level-2 alarm; ROUTE_REMINT
changes PATH and TAG only; CHANNEL_LOCK_LOSS darkens; blocked heads are flagged, the token sends one on VC3, and the
recovery sink gives packets to the NI; lease requests queue, are granted, become ACTIVE, expire, time out and are
reclaimed. How packets travel (log 20), the host's grant of a lease (log 34) and the token's visits (log 66) are the
model's choices, and the acknowledgement of a lease request its reading (log 58). (R214, R270, R271, R281, R282,
R288, R289, R290, R291, R293, R297, R300) -/
def Obligations.FabricAndLeaseSteps : Prop :=
  (∀ (s : State) (id : Nat) (k : Packet), s.given = .packet id → mget s.packets id = some k → msorted s.packets = true →
    (∀ c, k.loc = .switch c →
      (s.level3 = true → ∃ t, exec .switchHeader s = .next t ∧ mget t.packets id = none) ∧
      (s.level3 = false → s.isHead id k = true →
        (k.retraces = false → k.word ≠ 0 → sealOk s.fabricKey k.word = false → ∃ t, exec .switchHeader s = .next t ∧
          (t.die (dieOf c)).tagFails =
            ((s.die (dieOf c)).tagFails.filter fun e => s.now < e.2 + clkPerMs) ++ [(s.senderCtx k, s.now)]) ∧
        (∀ dir q, k.retraces = false →
          ((k.word = 0 ∧ k.leadHop = some (dir, q)) ∨
            (k.word ≠ 0 ∧ sealOk s.fabricKey k.word = true ∧ s.mergeArrival id k = none ∧ k.hop = .mesh dir q)) →
          (s.link (meshLink c dir)).state = .up →
          linkBetween (.switch c) (.switch (nextSwitch c dir)) = some (meshLink c dir) → ∃ t, exec .switchHeader s = .next t ∧
            (mget t.packets id).map (fun a => (a.loc, a.seg, a.taken, a.leadx, a.leady, a.trail)) =
              some (.switch (nextSwitch c dir), q.seg, q.taken, q.leadx, q.leady, .switch c :: q.trail)) ∧
        (∀ l r n, k.retraces = true → k.trail = l :: r → linkBetween (.switch c) l = some n → (s.link n).state = .up →
          ∃ t, exec .switchHeader s = .next t ∧ (mget t.packets id).map (fun a => (a.loc, a.trail)) = some (l, r)) ∧
        (k.retraces = true → k.trail = [] → k.vc ≠ 3 → ∃ t, exec .switchHeader s = .next t ∧
          (mget t.packets id).map (fun a => (a.loc, a.target)) = some (.ni k.core, k.core) ∧
          Claims.nowDue s t k.kind.arrival (.packet id)))) ∧
    (k.loc = .gateway → s.level3 = false → s.isHead id k = true → k.retraces = false →
      sealOk s.fabricKey k.word = true → (k.ngw && k.nmod != s.moduleId) = false →
      (∀ h n, k.kind = .wlease h n → ∃ t, exec .gatewayHeader s = .next t ∧
        Claims.nowDue s t .leaseRequestArrival (.packet id)) ∧
      let q := k.skipped 10
      let n := segCount (wPath q.word) q.seg
      (∀ h n, k.kind ≠ .wlease h n) → q.seg < 10 →
      (∀ ch, segDir (wPath q.word) q.seg = 6 → s.asideBefore id q = false →
        s.chooseChannel q (n / 32) (min 3 (n % 32 - q.taken) - 1) = .take ch →
        (s.link (fibreLink (ch / 32))).state = .up → ∃ t, exec .gatewayHeader s = .next t ∧
          (t.fibreOut.getLast?).map (fun e => (e.1.channel, e.2.key, e.2.nonce)) =
            some (ch, s.linkKey (n / 32), mgetD s.gnonces (n / 32) 0)) ∧
      (segDir (wPath q.word) q.seg = 7 → (s.link (portInLink (n % 16) (bits n 4 2))).state = .up →
        (walkPath (wPath q.word) (wEndp q.word)).isSome = true → ∃ t, exec .gatewayHeader s = .next t ∧
          (mget t.packets id).map (fun a => (a.loc, a.seg, a.taken)) =
            some (.switch (coreAt (n % 16) (32 * (bits n 4 2 + 1)) 0), q.seg + 1, 0))) ∧
    (k.vc ≠ 3 → k.queued = true → s.isHead id k = true → k.blockedFrom + 4096 ≤ s.now → ∃ t, exec .blockedHeadTimeout s = .next t ∧
      (mget t.packets id).map (·.flagged) = some true ∧ (t.die k.loc.die).flagged = true) ∧
    ∀ h l, k.kind = .wlease h l.reqNo → s.lease k.core h = some l → l.state = .requested →
      (k.core, h) ∉ mgetD s.fifos l.dir [] → ∃ t, exec .leaseRequestArrival s = .next t ∧
        mgetD t.fifos l.dir [] = mgetD s.fifos l.dir [] ++ [(k.core, h)]) ∧
  (∀ (s : State) (l : Nat), s.given = .link l →
    let k := s.link l
    let left := linkEntries l - (k.retired + 1)
    (k.failures < 15 → ∃ t, exec .linkRetry s = .next t ∧ t.link l = { k with failures := k.failures + 1 }) ∧
    (15 ≤ k.failures → k.state = .up → ∃ t, exec .linkRetry s = .next t ∧
      t.link l = ⟨if left < 4 then .down else if left < 8 then .narrowed else .up, k.retired + 1, 0, k.detour⟩) ∧
    (∃ t, exec .laneLoss s = .next t ∧ (t.link l).state = .down ∧
      (t.alarms.getLast?).map (fun a => (a.level, a.trigger)) = some (2, trigLink)) ∧
    (k.state ≠ .up → ∃ t, exec .routeRemint s = .next t ∧ t.link l = { k with detour := true })) ∧
  (∀ (s : State) (p : Place) (reg : Nat) (path : BitVec 120) (w : RouteWord), s.given = .register p reg path →
    mget (s.strand p).routes reg = some w →
    let v := sealWord s.fabricKey (putBits w 0 120 path.toNat)
    (sameEnd path.toNat (wPath w) (wEndp w) = true →
      (bit s.duty 2 = false → ∃ t, exec .routeRemint s = .next t ∧ mget (t.strand p).routes reg = some v) ∧
      (bit s.duty 2 = true → ∃ t, exec .routeRemint s = .next t ∧ mget (t.strand p).routes reg = some w ∧
        mget t.dutyReqs (mnext s.dutyReqs) = some (.mint p reg v false))) ∧
    (sameEnd path.toNat (wPath w) (wEndp w) = false → exec .routeRemint s = .next s)) ∧
  (∀ (s : State) (c : Nat), s.given = .channel c → ∃ t, exec .channelLockLoss s = .next t ∧ mhas t.dark c = true) ∧
  (∀ (s : State) (d : Nat), s.given = .die d → s.tokenBusy = false → msorted s.packets = true →
    (∀ id k, s.tokenChoice d = some (id, k) → mget s.packets id = some k → ∃ t, exec .tokenVisit s = .next t ∧ t.tokenAt = (d + 1) % 17 ∧
      t.tokenPacket = some id ∧ (mget t.packets id).map (·.vc) = some 3) ∧
    (s.tokenChoice d = none → ∃ t, exec .tokenVisit s = .next t ∧ t.tokenAt = (d + 1) % 17 ∧
      (t.die d).flagged = false ∧ t.packets = s.packets)) ∧
  (∀ (s : State) (c : Nat) (k : Packet) (r : List Packet), s.given = .core c → (s.core c).ni.sink = k :: r →
    ∃ t, exec .recoverySinkApply s = .next t ∧ (t.core c).ni.sink = r ∧
      mget t.packets s.packetNo = some { k with stamp := s.draws } ∧ Claims.nowDue s t k.kind.arrival (.packet s.packetNo)) ∧
  (∀ (s : State) (c h : Nat) (l : Lease), s.given = .lease c h → s.lease c h = some l →
    (l.state = .requested → (mgetD s.fifos l.dir []).head? = some (c, h) →
      (s.indexAbsent l.dir l.reach = true → ∃ t, exec .leaseGrant s = .next t ∧ Claims.leaseIs t c h .expired 0) ∧
      (s.indexAbsent l.dir l.reach = false →
        let g := s.grantable l.dir l.reach l.asked
        (g = 0 → exec .leaseGrant s = .next s) ∧
        (g ≠ 0 → bit s.duty 4 = false → (∀ e ∈ s.dutyReqs, e.2.isLeaseOf c h = false) → ∃ t, exec .leaseGrant s = .next t ∧ Claims.leaseIs t c h .granted g) ∧
        (g ≠ 0 → bit s.duty 4 = true → (∀ e ∈ s.dutyReqs, e.2.isLeaseOf c h = false) → ∃ t, exec .leaseGrant s = .next t ∧
          Claims.leaseIs t c h .requested l.granted ∧
          mget t.dutyReqs (mnext s.dutyReqs) = some (.lease c h l.dir l.reach g (s.core c).owner.id)))) ∧
    (l.state = .active → l.endClk ≤ s.now → ∃ t, exec .leaseTermExpiry s = .next t ∧
      Claims.leaseIs t c h .expired l.granted) ∧
    (l.state = .requested → l.reqClk + l.term * 1500 ≤ s.now → ∃ t, exec .leaseRequestTimeout s = .next t ∧
      Claims.leaseIs t c h .expired 0)) ∧
  (∀ (s : State) (c n h : Nat) (l : Lease), s.given = .lease c n → s.lease c h = some l → l.grantNo = n →
    (∀ ch, (s.leased.filter fun e => e.2.2.1 == n).head? = some (ch, 16 * c + h, n, 0) → h < 16 → l.state = .granted →
      ∃ t, exec .retuneComplete s = .next t ∧ Claims.leaseIs t c h .active l.granted ∧
        (t.lease c h).map (·.endClk) = some (s.now + l.term * 1500)) ∧
    (mfind (fun _ (l : Lease) => l.grantNo == n && l.state == .reclaiming) (s.core c).leases = some (h, l) →
      ∃ t, exec .reclaimExpiry s = .next t ∧ Claims.leaseIs t c h .expired l.granted)) ∧
  ∀ (s : State) (dir j c h : Nat) (l : Lease) (r : List (Nat × Nat × Lease)), s.given = .starve dir j →
    (∀ e ∈ s.cores, ∀ f ∈ e.2.leases, f.2.dir = dir → f.2.state ≠ .reclaiming) → s.reclaimable dir j = (c, h, l) :: r →
    s.lease c h = some l → s.now < l.endClk → ∃ t, exec .starvationTimeout s = .next t ∧
      Claims.leaseIs t c h .reclaiming l.granted ∧ (t.lease c h).map (·.reclaimed) = some true

/-- COUNTER_ARM adds and saturates, COUNTER_SIGNAL takes one off or refuses with all ones, ARM_ANSWER and ZERO_NOTICE
make packets ELIGIBLE, TASK_AGING raises a packet, a balancer round issues commands only between cores of one plot
within the receiver's TAKERS and FREE, a command makes a packet MOVING; an arrival is counted and the last one
releases, BARRIER_RELEASE_SENT opens the unit again, a release ends the waits at a core, a watch is answered with
the phase, a leave notice lowers E, a withdrawal takes the arrival back and its answer traps BAR-WAIT. How a
withdrawal travels (log 65) and what a watch's answer ends (log 97) are the model's reading; the phase of the
balancer rounds is its choice (log 109). (R306, R308, R309, R312, R313, R314, R316, R342, R343, R344, R345) -/
def Obligations.QueueAndBarrierSteps : Prop :=
  (∀ (s : State) (d n a c e : Nat), s.given = .counter d n a c e →
    (s.stationOpen c d (counterStation n) = false → exec .counterArm s = .next (s.after 1 .counterArm s.given)) ∧
    (s.stationOpen c d (counterStation n) = true →
    (∃ t, exec .counterArm s = .next t ∧ (t.counterAt d n).value = min 0xFFFF ((s.counterAt d n).value + a) ∧
      (t.counterAt d n).owner = (s.counterAt d n).owner ∧
      Claims.nowDue s t .armAnswer (.counter d n (min 0xFFFF ((s.counterAt d n).value + a)) c e)) ∧
    (∀ m q, (s.portCore c).armed e = some (m, q) → q.state = .waiting → Claims.noTakers s c →
      ∃ t, exec .armAnswer s = .next t ∧ (mget (t.portCore c).queue m).map (fun q => (q.packet, q.arming, q.state)) =
        some (q.packet, none, if a = 0 then .eligible else .waiting)) ∧
    ∀ m q, mget (s.portCore c).queue m = some q → q.state = .waiting → WorkPacket.depctr q.packet = n → Claims.noTakers s c →
      ∃ t, exec .zeroNotice s = .next t ∧ (mget (t.portCore c).queue m).map (fun q => (q.packet, q.acquire, q.state)) =
        some (q.packet, max q.acquire e, .eligible))) ∧
  (∀ (s : State) (d n ctx scope : Nat) (p : Place) (answered : Bool), s.given = .signal d n ctx p answered scope →
    s.stationOpen p.core d (counterStation n) = true →
    let v := (s.counterAt d n).value
    let ok := (s.counterAt d n).owner = ctx ∧ v ≠ 0
    (answered = false → ∃ t, exec .counterSignal s = .next t ∧ if ok then (t.counterAt d n).value = v - 1 else t = s) ∧
    (answered = true → (s.strand p).wait = .answer → ∃ t, exec .counterSignal s = .next t ∧
      (t.counterAt d n).value = (if ok then v - 1 else v) ∧
      Claims.finished s t p (if ok then BitVec.ofNat 64 (v - 1) else BitVec.allOnes 64))) ∧
  (∀ (s : State) (c n : Nat) (e : TaskEntry), s.given = .item c n → s.entry c n = some e → e.prio ≠ 0 →
    e.stamp + 750000 ≤ s.cycle → e.state ≠ .moving → ∃ t, exec .taskAging s = .next t ∧
      t.entry c n = some { e with prio := e.prio - 1, stamp := s.cycle }) ∧
  (∀ (s : State) (d : Nat), s.given = .die d →
    (bit s.duty 3 = true → exec .balancerRound s = .next s) ∧
    (bit s.duty 3 = false → msorted s.cores = true → ∃ (t : State) (cmds : List BalCmd), exec .balancerRound s = .next t ∧ cmds.length ≤ 256 ∧
      t.agenda = s.agenda ++ cmds.map (fun c => ⟨.balanceCommand, .command d c⟩) ∧
      ∀ c ∈ cmds, (s.core c.src).tag = (s.core c.dst).tag ∧ 1 ≤ c.n ∧ c.n ≤ (s.core c.dst).takers ∧
        c.n ≤ (s.core c.dst).freeEntries)) ∧
  (∀ (s : State) (d n : Nat) (c : BalCmd) (e : TaskEntry), s.given = .command d c →
    ((s.core c.src).tag ≠ (s.core c.dst).tag → exec .balanceCommand s = .next s) ∧
    ((s.core c.src).tag = (s.core c.dst).tag → (s.core c.src).kern.isSome = true → (s.core c.src).queue = [(n, e)] →
      e.movable = true → 1 ≤ c.n → ∃ t, exec .balanceCommand s = .next t ∧
        (t.entry c.src n).map (fun e => (e.state, e.dest)) = some (.moving, c.dst) ∧
        Claims.nowDue s t .migrationSend (.core c.src))) ∧
  (∀ (s : State) (id : Nat) (k : Packet), s.given = .packet id → mget s.packets id = some k →
    (∀ g ph a b x, k.kind = .arrive g ph a → s.verdict k = .apply → s.rootUnit k.target g = some b →
      b.state ≠ .released → a.keep (fun p => !b.has ph p) = some x →
      let n := b.count + x.members.length
      ∃ t, exec .barrierArrival s = .next t ∧
        if 1 ≤ b.expected ∧ b.expected ≤ n then
          (mget (t.core k.target).barriers g).map (fun b => (b.state, b.phase)) =
            some (.released, (b.phase + 1) % 2 ^ 32)
        else (mget (t.core k.target).barriers g).map (fun b => (b.state, b.phase, b.count)) = some (.arriving, b.phase, n)) ∧
    (∀ g ph r q v, k.kind = .release g ph r → Claims.genuine s k → s.parked k.target = false → (s.strand ⟨k.target, q⟩).run = .waiting →
      (s.strand ⟨k.target, q⟩).wait = .barrier g 0 v → phasePast ph v = true → ∃ t, exec .barrierRelease s = .next t ∧
        ((t.core k.target).view g).phase = ph ∧ Claims.finished s t ⟨k.target, q⟩ (BitVec.ofNat 64 ph)) ∧
    (∀ g p b, k.kind = .watch g p → s.verdict k = .apply → k.module' = s.moduleId →
      k.word ≠ 0 → Claims.canAnswer s k → s.rootUnit k.target g = some b → ∃ t, exec .watchArrival s = .next t ∧
        Claims.answered s t k (.watchAns g b.phase p) []) ∧
    (∀ g ph p v, k.kind = .watchAns g ph p → Claims.genuine s k → (s.strand p).run = .waiting → (s.strand p).wait = .barrier g 1 v →
      phasePast ph v = true → ∃ t, exec .watchAnswer s = .next t ∧ Claims.finished s t p (BitVec.ofNat 64 ph)) ∧
    (∀ g ph p arr b, k.kind = .leave g ph p arr → Claims.genuine s k → mget (s.portCore k.target).barriers g = some b →
      ∃ t, exec .leaveNotice s = .next t ∧
        (mget (t.portCore k.target).barriers g).map (fun b => (b.expected, b.leaving, b.leavingNext)) = some
          (if b.state = .released ∧ arr = true ∧ ph = b.phase then (b.expected, b.leaving, b.leavingNext + 1)
           else if b.state = .released ∨ (arr = true ∧ ph = b.phase) then (b.expected, b.leaving + 1, b.leavingNext)
           else (b.expected - 1, b.leaving, b.leavingNext))) ∧
    (∀ g p b, k.kind = .withdraw g p false → s.verdict k = .apply → k.module' = s.moduleId →
      k.word ≠ 0 → Claims.canAnswer s k → s.rootUnit k.target g = some b → ∃ t, exec .withdrawalArrival s = .next t ∧
        Claims.answered s t k (.withdrawAns g p (!b.holds p)) [] ∧
        mget (t.core k.target).barriers g = some (if b.holds p then b.withdraw p else b)) ∧
    ∀ g p kind v, k.kind = .withdrawAns g p false → Claims.genuine s k → (s.strand p).run = .waiting →
      (s.strand p).wait = .barrier g kind v → (s.strand p).limited = true → Claims.delivered s p →
      ∃ t, exec .withdrawalAnswer s = .next t ∧ Claims.trapped s t p causeBarWait (BitVec.ofNat 64 g)) ∧
  ∀ (s : State) (c g : Nat) (b : Barrier), s.given = .item c g → mget (s.portCore c).barriers g = some b →
    b.state = .released → b.heldArrivals = [] → ∃ t, exec .barrierReleaseSent s = .next t ∧
      mget (t.portCore c).barriers g = some ⟨.opened, b.phase, b.expected - b.leaving, [], [], b.leavingNext, 0, none⟩

/-- A write of a notify page sets TAIL, K and ENABLE or, while ENABLE is 0, the other registers; a request is completed
with its status: unknown OP 1, an unbound PASID 2, a duty of another function 3, a full queue 4; HOST_LAUNCH joins
the launcher, HOST_POST stores a packet, COUNTER_SET sets a counter, BALANCE and TOKEN make their steps due,
DUTY_REPLY denies or grants a lease, OCCUPANCY writes the words to the pages that the host maps; KERNEL_LAUNCH binds
the plot at ENTRY, KERNEL_RETIRE frees it, and RECOAT_HANDOVER starts the successor. What a duty reply may grant is
the model's choice (log 34); how a launch is read and answered (log 72) and a recoat checked (log 73) are its
reading. (R308, R312, R317, R318, R319, R324, R327, R330, R397) -/
def Obligations.HostAndKernelSteps : Prop :=
  (∀ (s : State) (pf iface off v : Nat), s.given = .host pf iface off v → pf < 2 → iface < 8 →
    let q := 8 * pf + iface
    let h := s.queue q
    (h.enable = false → ∃ t, exec .hqTailWrite s = .next t ∧ t.queue q = { h with tail := v % 65536 }) ∧
    (h.enable = true → s.holdsCommands = false → ∃ t, exec .hqTailWrite s = .next t ∧ (t.queue q).tail = v % 65536 ∧
      (t.queue q).todo = h.todo ++ s.entriesUpTo { h with tail := v % 65536 }) ∧
    (h.enable = false → ∃ t, exec .hqEnableWrite s = .next t ∧ (t.queue q).k = v % 32 ∧
      ((t.queue q).enable = true ↔ bit v 8 = true ∧ 4 ≤ v % 32 ∧ v % 32 ≤ 16)) ∧
    (h.enable = true → off ≠ 0x1000 → exec .hqRegWrite s = .next { s with hostQueues := mset s.hostQueues q h }) ∧
    (h.enable = false → off = 8 → ∃ t, exec .hqRegWrite s = .next t ∧ (t.queue q).rqbase = bits v 6 58 * 64)) ∧
  (∀ (s : State) (q i : Nat) (b : List Byte) (r : List (Nat × List Byte)), s.given = .request q i b →
    (s.queue q).todo = (i, b) :: r →
    (reqBits b 0 0 8 = 0 → ∃ t, exec .hostLaunch s = .next t ∧ Claims.replied s t q b 1) ∧
    (reqBits b 0 0 8 = 1 → s.pasidBound (reqPasid b) = false → ∃ t, exec .hostLaunch s = .next t ∧ Claims.replied s t q b 2) ∧
    (reqBits b 0 0 8 = 6 → s.pasidBound (reqPasid b) = true → (s.queue q).fn ≠ 0 →
      ∃ t, exec .token s = .next t ∧ Claims.replied s t q b 3)) ∧
  (∀ (s : State) (q i : Nat) (b : List Byte),
    (Claims.reqOk s q i b 1 → s.pasidOwns (reqPasid b) (reqBits b 16 0 16) = true →
      ∃ t, exec .hostLaunch s = .next t ∧
        (t.die (reqBits b 16 16 4)).launches = (s.die (reqBits b 16 16 4)).launches ++
          [⟨reqBits b 16 0 16, reqBits b 8 0 64, some (q, 0), false, none, none⟩] ∧
        Claims.nowDue s t .kernelLaunch (.die (reqBits b 16 16 4))) ∧
    (∀ c, Claims.reqOk s q i b 2 → postCore b = some c → s.pasidOwns (reqPasid b) (s.core c).owner.id = true →
      reqBits b 16 0 64 % 64 = 0 →
      (Claims.ctxState s (s.core c).owner.id = some .scrubbing → ∃ t, exec .hostPost s = .next t ∧ Claims.replied s t q b 2) ∧
      (Claims.ctxState s (s.core c).owner.id ≠ some .scrubbing → s.parked c = false →
      (mfree (s.core c).queue 64 = none → ∃ t, exec .hostPost s = .next t ∧ Claims.replied s t q b 4) ∧
      ∀ n s1 data, mfree (s.core c).queue 64 = some n →
        s.unitRead (dieOf c) (s.core c).owner.id (reqBits b 16 0 64) 64 (queueUnit (dieOf c) q) = (s1, .ok data) →
        s1.foreignCounter c (s.core c).owner.id (BitVec.ofNat 512 (leNat data)) = false → Claims.noTakers s1 c →
        (s1.queue q).todo = (s.queue q).todo → ∃ t, exec .hostPost s = .next t ∧ Claims.replied s1 t q b 0 ∧
          (t.entry c n).map (fun e => (e.packet, e.acquire)) = some (BitVec.ofNat 512 (leNat data), 6))) ∧
    (Claims.reqOk s q i b 3 →
      let d := reqBits b 8 0 4
      let n := reqBits b 8 16 12
      s.pasidOwns (reqPasid b) (s.counterAt d n).owner = true → ∃ t, exec .counterSet s = .next t ∧
        Claims.replied s t q b 0 ∧ t.counterAt d n = { s.counterAt d n with value := reqBits b 16 0 16 }) ∧
    (Claims.reqOk s q i b 4 → (∀ c ∈ balanceList b, s.pasidOwns (reqPasid b) (s.core c.src).owner.id = true ∧
        s.pasidOwns (reqPasid b) (s.core c.dst).owner.id = true) → ∃ (t : State) (r : List Due), exec .balance s = .next t ∧
        Claims.replied s t q b 0 ∧ t.agenda = s.agenda ++
          ((balanceList b).map fun c => ⟨.balanceCommand, .command (dieOf c.src) c⟩) ++ r) ∧
    (Claims.reqOk s q i b 5 →
      (mget s.dutyReqs (reqBits b 8 0 64) = none → ∃ t, exec .dutyReply s = .next t ∧ Claims.replied s t q b 5) ∧
      (∀ c h dir x g ctx, mget s.dutyReqs (reqBits b 8 0 64) = some (.lease c h dir x g ctx) →
        let g' := reqBits b 16 0 5
        (g < g' → ∃ t, exec .dutyReply s = .next t ∧ Claims.replied s t q b 5) ∧
        ∀ l, g' ≤ g → s.lease c h = some l → l.state = .requested →
          ∃ t, exec .dutyReply s = .next t ∧ Claims.replied s t q b 0 ∧
            if g' = 0 then Claims.leaseIs t c h .expired 0 else Claims.leaseIs t c h .granted g') ∧
      ∀ p reg asked holds, mget s.dutyReqs (reqBits b 8 0 64) = some (.mint p reg asked holds) →
        let w : RouteWord := BitVec.ofNat 256 (leNat ((b.drop 0x10).take 27))
        (s.templateFits asked w = false → ∃ t, exec .dutyReply s = .next t ∧ Claims.replied s t q b 5 ∧
          mget t.dutyReqs (reqBits b 8 0 64) = some (.mint p reg asked holds)) ∧
        (s.templateFits asked w = true → (s.strand p).run ≠ .unbound → reg < 16 → ∃ t, exec .dutyReply s = .next t ∧
          Claims.replied s t q b 0 ∧ mget (t.strand p).routes reg = some (mint s.fabricKey w))) ∧
    (Claims.reqOk s q i b 6 → reqBits b 8 0 5 ≤ 16 → ∃ t, exec .token s = .next t ∧ Claims.replied s t q b 0 ∧
      Claims.nowDue s t .tokenVisit (.die (reqBits b 8 0 5))) ∧
    (Claims.reqOk s q i b 7 →
      let a := reqBits b 16 0 64
      let rec' := (s.queue q).cqbase + 16 * ((s.queue q).cqtail % 2 ^ (s.queue q).k)
      (rec' + 16 ≤ a ∨ a + 4 * coresPerDie ≤ rec') →
      ∃ t, exec .occupancy s = .next t ∧ Claims.replied s t q b 0 ∧ ∀ j, j < 4 * coresPerDie →
        let w := (s.core (coresPerDie * reqBits b 8 0 4 + j / 4)).occupancy
        if Config.hostMaps (reqPasid b) ((hostBase + (a + j)) / 32768) = true then
          (mgetD t.mem (hostBase + (a + j)) 0).toNat = w / 2 ^ (8 * (j % 4)) % 2 ^ 8
        else (∀ f, ∀ e ∈ (s.die f).dirty, e.1 ≠ hostBase + (a + j)) →
          mgetD t.mem (hostBase + (a + j)) 0 = mgetD s.mem (hostBase + (a + j)) 0)) ∧
  (∀ (s s1 s2 : State) (d tag : Nat) (r : LaunchReq) (rs : List LaunchReq) (x : Desc) (p : Program), s.given = .die d →
    (s.die d).launches = r :: rs → r.host = none → r.fault = none → r.failed = none →
    let began := s.modDie d fun x => { x with launches := { r with began := true } :: rs }
    began.readDesc d r.ctx r.desc (launchUnit d) = (s1, .ok x) →
    s1.readTables d r.ctx x (launchUnit d) = (s2, .ok p) → s2.launchFault r.ctx p = none → s2.freeTag = some tag →
    ∃ t, exec .kernelLaunch s = .next t ∧
      (mget t.kernels (mnext s2.kernels)).map (fun k => (k.state, k.ctx, k.tag)) = some (.running, r.ctx, tag) ∧
      ∀ c ∈ p.desc.plot, (t.core c).kern = some (mnext s2.kernels) ∧ (t.core c).tag = tag ∧
        ∀ n, n < p.desc.strands → ((t.core c).strand n).run = .ready ∧
          ((t.core c).strand n).pc = BitVec.ofNat 64 p.desc.entry ∧
          ((t.core c).strand n).trap.tvec = BitVec.ofNat 64 p.desc.tvec ∧ ((t.core c).strand n).scalars = []) ∧
  ∀ (s : State) (k : Nat) (q : Kernel), s.given = .kernel k → mget s.kernels k = some q → q.cmpl = 0 →
    (q.state = .retiring → s.boundOf k = [] → s.plotOf k ≠ [] → (∀ c ∈ s.plotOf k, (s.core c).drained = true) →
      (q.recorded = false → ∃ t, exec .kernelRetire s = .next t ∧
        (mget t.kernels k).map (fun w => (w.state, w.recorded)) = some (.retiring, true) ∧
        (∀ d, q.doneSignal = some d → d ∈ t.agenda) ∧ ⟨.kernelRetire, .kernel k⟩ ∈ t.agenda) ∧
      (q.recorded = true → (∀ d, q.doneSignal = some d → d ∉ s.agenda) → ∃ t, exec .kernelRetire s = .next t ∧
        (mget t.kernels k).map (·.state) = some .retired ∧
        ∀ c ∈ s.plotOf k, (t.core c).kern = none ∧ (t.core c).tag = 0xFFF ∧ (t.core c).strands = [])) ∧
    ∀ first a b rest, q.state = .recoating → q.rendezvous = (first, a, b) :: rest →
      (∀ c ∈ s.plotOf k, (s.core c).recoatDrained = true) →
      (∀ s1 s2 x p, q.successor = none → q.spansDies = false →
        s.readDesc q.die q.ctx a.toNat (kernelUnit q.die k) = (s1, .ok x) →
        s1.readTables q.die q.ctx x (kernelUnit q.die k) = (s2, .ok p) → s2.successorOk q p = true →
        ∃ t, exec .recoatHandover s = .next t ∧ mget t.kernels k = some { q with successor := some p } ∧
          ⟨.recoatHandover, .kernel k⟩ ∈ t.agenda) ∧
      ∀ p, q.successor = some p →
      (s.cancelForRecoat (s.plotOf k) (bits b.toNat 0 14 &&& p.desc.accept) p).cancelling (s.plotOf k) = false →
      ∃ t, exec .recoatHandover s = .next t ∧
        (mget t.kernels k).map (fun w => (w.state, w.desc, w.tag)) = some (.running, p.desc.addr, q.tag) ∧
        ∀ c ∈ s.plotOf k, (t.core c).kern = some k ∧ ∀ n, n < p.desc.strands →
          ((t.core c).strand n).run = .ready ∧ ((t.core c).strand n).pc = BitVec.ofNat 64 p.desc.entry

/-- LOCK claims FREE cores; UNLOCK unbinds every strand and SCRUB_COMPLETE frees the context; SUSPEND stops every
strand, and SUSPEND_COMPLETE writes the core and strand records to the save area and leaves the cores empty; RESTORE
brings the strands back; MIGRATE, CONFIRM, the offers, chunks and commits move a context; alarms of level 2 freeze
and of level 3 zeroise; cold and warm starts leave what R391 says; SET_DUTY, firmware, logs, measurements and key
agreement do what R393 to R398 say. Which record of the save area stands where (log 21), the streams of a migration
(log 77) and the management answers (log 113) are the model's choices; the order of an unlock (log 76), what a
level-3 alarm stops (log 78), what a start keeps (log 79) and how Linane runs on a manager core (log 105) are its
reading. (R366, R367, R368, R372, R374, R375, R376, R377, R379, R380, R391, R393) -/
def Obligations.ContextAndManagementSteps : Prop :=
  (∀ (s : State) (id : Nat) (rects : List Rect) (tb save pasid : Nat) (counters : List (Nat × Nat)),
    s.given = .lock id rects tb save pasid counters → s.holdsCommands = false →
    (s.lockable id rects counters = true → ∃ t, exec .lock s = .next t ∧ Claims.told s t (.done .lock id true) ∧
      (t.context id).map (fun x => (x.state, x.pasid, x.save, x.slots)) = some (.locked, pasid, save, []) ∧
      ∀ r ∈ rects, ∀ c ∈ r.cores, (t.core c).owner.id = id ∧ (t.core c).owner.frozen = false ∧ (t.core c).ni.nonce = 0) ∧
    (s.lockable id rects counters = false → ∃ t, exec .lock s = .next t ∧ Claims.told s t (.done .lock id false) ∧
      t.contexts = s.contexts ∧ t.cores = s.cores)) ∧
  (∀ (s : State) (ctx : Nat), s.given = .ctx ctx → s.holdsCommands = false →
    (Claims.ctxState s ctx = none → ∃ t, exec .unlock s = .next t ∧ Claims.told s t (.done .unlock ctx false)) ∧
    ∀ x, s.context ctx = some x →
      (x.state = .locked ∨ x.state = .suspended ∨ x.state = .alarmed → ∃ t, exec .unlock s = .next t ∧
        Claims.ctxState t ctx = some .scrubbing ∧
        ∀ c k, (s.core c).owner.id = ctx → ((t.core c).strand k).run = .unbound) ∧
      (x.state = .scrubbing → (∀ c ∈ s.coresOf ctx, s.inFlightFrom c = false ∧ (s.core c).sb = [] ∧ (s.core c).mtx.busy = none ∧
          (s.core c).kern = none) →
        ∃ t, exec .unlock s = .next t ∧ (t.context ctx).map (fun x => (x.state, x.key, x.slots)) = some (.scrubbing, 0, []) ∧
          ∀ c ∈ s.coresOf ctx, (t.core c).owner.id = 0 ∧ (t.core c).strands = []) ∧
      (x.state = .scrubbing → s.coresOf ctx = [] → ∃ t, exec .scrubComplete s = .next t ∧ t.context ctx = none ∧
        Claims.told s t (.done .unlock ctx true)) ∧
      (x.state = .locked → ∃ t, exec .suspend s = .next t ∧ Claims.nowDue s t .suspendComplete (.ctx ctx) ∧
        ∀ c ∈ s.coresOf ctx, (t.core c).stopping = true) ∧
      (x.state = .locked → (∀ c ∈ s.coresOf ctx, (s.core c).stopping = true ∧ (s.core c).suspendable = true) →
        (∀ e ∈ s.kernels, e.2.ctx = ctx → e.2.state ≠ .recoating) → ∃ t, exec .suspendComplete s = .next t ∧
          Claims.ctxState t ctx = some .suspended ∧ Claims.told s t (.done .suspend ctx true) ∧
          t.mem = (s.writeSaveArea ctx x (s.coresOf ctx)).mem ∧
          ∀ c ∈ s.coresOf ctx, (t.core c).strands = [] ∧ (t.core c).queue = []) ∧
      ∀ g, mget s.migrations ctx = some g →
        (x.state = .migratingOut → ∃ t, exec .confirm s = .next t ∧ Claims.ctxState t ctx = some .scrubbing ∧
          Claims.told s t (.ack ctx)) ∧
        (x.state = .migratingOut → ∃ t, exec .migrationAbort s = .next t ∧ Claims.ctxState t ctx = some .suspended ∧
          mget t.migrations ctx = none) ∧
        (x.state = .migratingIn → g.outgoing = false →
          (∀ b, g.verified = true → g.parcel = some b →
            (∃ t, exec .migrationAck s = .next t ∧ Claims.ctxState t ctx = some .suspended ∧ mget t.migrations ctx = none) ∧
            (g.confirmed = true → g.lastClk + 15000000 ≤ s.now → ∃ t, exec .migrationCommitTimeout s = .next t ∧
              Claims.ctxState t ctx = some .suspended) ∧
            ∃ t, exec .alarmNotice s = .next t ∧ Claims.ctxState t ctx = some .suspended) ∧
          (g.verified = false → ∃ t, exec .alarmNotice s = .next t ∧ t.context ctx = none ∧ Claims.told s t (.lost ctx)))) ∧
  (∀ (s : State) (ctx : Nat) (x : Context) (moves : List (Rect × Rect)) (part : Option Nat),
    s.given = .restore ctx moves part → s.holdsCommands = false → s.context ctx = some x → x.state = .suspended →
    s.restorable ctx x (movedTo moves) = true → s.movesWhole ctx moves = true → ∃ t, exec .restore s = .next t ∧
      Claims.ctxState t ctx = some .locked ∧ Claims.told s t (.done .restore ctx true) ∧
      ∀ c sv k, moves = [] → part = none → x.saved = [(c, sv)] → (s.core c).owner.id = ctx → (sv.strand k).run = .ready →
        ((t.core c).strand k).run = .ready ∧ ((t.core c).strand k).pc = (sv.strand k).pc ∧
        ((t.core c).strand k).scalars = (sv.strand k).scalars ∧ ((t.core c).strand k).vectors = (sv.strand k).vectors) ∧
  (∀ (s : State) (ctx m : Nat) (x : Context) (key : Key), s.given = .peer ctx m → s.holdsCommands = false →
    s.context ctx = some x → x.state = .suspended → mget s.transfer m = some key →
    let b := s.parcel ctx x
    let parts := chunksOfBytes (b.bytes.length + 1) b.bytes
    let sealed := parts.zipIdx.map fun e => Gcm.crypt key (chunkNonce (e.2 + 1)) (e.1.map BitVec.toNat)
    let tags := sealed.zipIdx.map fun e => Gcm.tag key (chunkNonce (e.2 + 1)) [] e.1
    let no := parts.length + 1
    let manifest := Gcm.crypt key (chunkNonce no) (manifestBytes tags)
    ∃ t, exec .migrate s = .next t ∧ Claims.ctxState t ctx = some .migratingOut ∧
      t.mgmtOut = s.mgmtOut ++ ((sealed.zip tags).zipIdx.map fun e => MgmtMsg.chunk ctx (e.2 + 1) false e.1.1 e.1.2 none) ++
        [.chunk ctx no true manifest (Gcm.tag key (chunkNonce no) [] manifest) (some b)]) ∧
  (∀ (s : State) (ctx m save tb pasid : Nat), s.given = .offer ctx m save tb pasid → s.holdsCommands = false →
    ctx ≠ 0 → ctx < 0xFFFF → s.context ctx = none → mhas s.transfer m = true → ∃ t, exec .migrationOffer s = .next t ∧
      (t.context ctx).map (fun x => (x.state, x.save, x.pasid)) = some (.migratingIn, save, pasid) ∧
      Claims.told s t (.done .migrationOffer ctx true)) ∧
  (∀ (s : State) (m : Nat) (ok : Bool), s.given = .exchange m ok → ∃ t, exec .keyExchange s = .next t ∧
    mget t.transfer m = (if ok then some (Config.freshKey s.draws) else none) ∧
    Claims.told s t (if ok then .keyAgreed m else .keyLost m)) ∧
  (∀ (s : State) (ctx no : Nat) (last : Bool) (c tag : List Nat) (body : Option Parcel) (x : Context) (g : Migration) (key : Key),
    s.given = .chunk ctx no last c tag body → s.context ctx = some x → mget s.migrations ctx = some g →
    x.state = .migratingIn → g.outgoing = false → g.verified = false → mget s.transfer g.peer = some key →
    let plain := Gcm.crypt key (chunkNonce no) c
    let fits := Gcm.tag key (chunkNonce no) [] c = tag
    (¬ fits ∨ (last = true ∧ g.complete no plain body = false) →
      ∃ t, exec .migrationChunk s = .next t ∧ t.context ctx = none ∧ Claims.told s t (.abort ctx)) ∧
    (fits → last = false → ∃ t, exec .migrationChunk s = .next t ∧
      (mget t.migrations ctx).map (·.chunks) = some (mset g.chunks no (tag, plain))) ∧
    (fits → last = true → g.complete no plain body = true →
      ∃ t, exec .migrationChunk s = .next t ∧ (mget t.migrations ctx).map (fun g => (g.verified, g.parcel)) = some (true, body) ∧
        Claims.told s t (.confirm ctx))) ∧
  (∀ (s : State) (trig ctx : Nat) (x : Context), s.given = .alarm trig [ctx] → s.context ctx = some x →
    x.state = .locked ∨ x.state = .suspended ∨ x.state = .migratingOut → ∃ t, exec .alarmLevel2 s = .next t ∧
      Claims.ctxState t ctx = some .alarmed ∧ ∀ c ∈ s.coresOf ctx, (t.core c).owner.frozen = true) ∧
  (∀ (s : State) (trig : Nat) (ctxs : List Nat), s.given = .alarm trig ctxs → ∃ t, exec .alarmLevel3 s = .next t ∧
    t.fabricKey = 0 ∧ t.linkKeys = [] ∧ t.moduleKey = 0 ∧ t.transportKey = 0 ∧ t.transfer = [] ∧ t.level3 = true ∧
    t.needsStart = true ∧ (∀ d, (t.die d).keys = []) ∧ (∀ c, (t.core c).ni.keys = []) ∧ ∀ c x, t.context c = some x → x.state = .alarmed ∧ x.key = 0 ∧ x.slots = []) ∧
  (∀ (s : State) (d : Nat) (v : Reading), s.given = .sensor d v →
    (v.level = 0 → exec .sensorLimit s = .next s) ∧
    (v.level ≠ 0 → ∃ t, exec .sensorLimit s = .next t ∧
      (t.alarms.getLast?).map (fun a => (a.level, a.trigger)) = some (v.level, trigSensor) ∧
      (v.level = 2 → Claims.nowDue s t .alarmLevel2 (.alarm trigSensor (s.contextsOn d)))) ∧
    ∀ c, v = .temperature c → v.level = if 115 < c then 3 else if 105 < c then 2 else if 95 < c then 1 else 0) ∧
  (∀ (s : State) (ok : Bool) (rep untrained absent : NSet) (temps : SMap Int) (hash : Nat) (linane : Option (Nat × List Byte)),
    s.given = .start ok rep untrained absent temps hash linane →
    (∀ a image d, ok = true → s.imageOk s.bootSlot = true → linane = some (a, image) → d < 16 → ∃ t, exec .coldStart s = .next t ∧
      let u := (t.core (managerBase + d)).strand 0
      u.run = .ready ∧ u.pc = BitVec.ofNat 64 a ∧ u.trap.priv = true) ∧
    (ok = true → s.imageOk s.bootSlot = true → linane = none → ∃ t, exec .coldStart s = .next t ∧ t.contexts = [] ∧ t.cores = [] ∧
      t.kernels = [] ∧ t.packets = [] ∧ t.cycle = 0 ∧ t.needsStart = false ∧ t.failedStarts = 0 ∧
      t.repairMap = rep ∧ t.links = trainedLinks rep untrained ∧ t.absent = absent ∧ t.agenda = s.heldCommands ∧
      t.fabricKey = Config.derivedKey 0 ∧ ∀ pa, pa < hostBase → t.homeByte pa = 0) ∧
    (ok = false → ∃ t, exec .coldStart s = .next t ∧ t.needsStart = true ∧ t.failedStarts = s.failedStarts + 1 ∧
      t.fabricKey = 0 ∧ t.contexts = []) ∧
    (ok = true → s.level3 = false → s.needsStart = false → s.starting = false → mget s.manifests s.fwActive = some hash →
      (∀ e ∈ s.contexts, e.2.state = .suspended) → s.shootdowns = [] → linane = none →
      ∃ t, exec .warmStart s = .next t ∧ t.mgmtOut.getLast? = some (.done .warmStart 0 true) ∧ (∀ d ∈ s.heldCommands, d ∈ t.agenda) ∧
        t.packets = [] ∧ t.cycle = 0 ∧ t.needsStart = false ∧ t.fabricKey = s.fabricKey ∧
        ∀ c, (t.core c).strands = [] ∧ (t.core c).tlb = [] ∧ (t.core c).sb = [] ∧ (t.core c).owner = (s.core c).owner)) ∧
  (∀ (s : State) (mask : Nat), s.given = .duty mask → s.starting = false → ∃ t, exec .setDuty s = .next t ∧ t.duty = mask % 256) ∧
  (∀ (s : State) (slot v dg : Nat) (ok : Bool), s.given = .firmware slot v dg ok → s.starting = false → ∃ t, exec .fwStage s = .next t ∧
    mget t.fwSlots s.inactiveSlot = some ⟨v, dg, ok⟩ ∧ t.staged = (if ok then some (s.inactiveSlot, ⟨v, dg, ok⟩) else none) ∧
    t.fwActive = s.fwActive) ∧
  ∀ s : State,
    (∃ t, exec .tamperMesh s = .next t ∧ Claims.nowDue s t .alarmLevel3 (.alarm trigTamper (mkeys s.contexts))) ∧
    (s.starting = false → ∃ t, exec .fwActivate s = .next t ∧ t.staged = none ∧
      t.fwActive = match s.staged with | some (slot, _) => slot | none => s.fwActive) ∧
    (s.starting = false → ∃ t, exec .readLog s = .next t ∧ Claims.told s t (.log s.alarms s.errors)) ∧
    ∃ t, exec .getMeasurements s = .next t ∧
      let i := mgetD s.fwSlots s.fwActive FwImage.reset
      Claims.told s t (.measured [i.version, i.digest] s.staged.isSome (bit s.duty 7)
        (Config.signature s.attestKey [i.version, i.digest, s.staged.isSome.toNat]))
end

