-- ==== Sys2Proof/Laws/Aes.lean ====
section
/-!
SUPPORT. The tables of the S-box are what its definition gives.
-/

namespace Sys2Proof.Machine.Aes

theorem sub_table : ∀ a : Fin 256, sub a.val = subOf a.val := by decide +kernel
theorem invSub_table : ∀ a : Fin 256, invSub a.val = invSubOf a.val := by decide +kernel

end Sys2Proof.Machine.Aes
end

