-- ==== Sys2Proof/Laws/Map.lean ====
section
/-! SUPPORT. Laws of sparse maps: reading after writing, and the canonical form under every operation. -/

set_option Elab.async false

namespace Sys2Proof.Machine

variable {β : Type}

@[simp] theorem mget_nil (k : Nat) : mget ([] : SMap β) k = none := rfl

@[simp] theorem mgetD_nil (k : Nat) (z : β) : mgetD ([] : SMap β) k z = z := rfl

@[simp] theorem mget_mset_same (m : SMap β) (k : Nat) (v : β) : mget (mset m k v) k = some v := by
  induction m with
  | nil => simp [mset, mget]
  | cons e r ih =>
    obtain ⟨a, w⟩ := e
    simp only [mset]
    split
    · simp [mget]
    · split
      · simp [mget]
      · simp [mget, *]

theorem mget_mset_other (m : SMap β) {k j : Nat} (v : β) (h : j ≠ k) : mget (mset m k v) j = mget m j := by
  have h' : k ≠ j := fun e => h e.symm
  induction m with
  | nil => simp [mset, mget, h']
  | cons e r ih =>
    obtain ⟨a, w⟩ := e
    simp only [mset]
    split
    · subst a; simp [mget, h']
    · split
      · simp [mget, h']
      · simp [mget, ih]

theorem mget_mset (m : SMap β) (k j : Nat) (v : β) : mget (mset m k v) j = if j = k then some v else mget m j := by
  by_cases h : j = k
  · subst h; simp
  · simp [h, mget_mset_other m v h]

@[simp] theorem mgetD_mset_same (m : SMap β) (k : Nat) (v z : β) : mgetD (mset m k v) k z = v := by
  simp [mgetD]

theorem mgetD_mset_other (m : SMap β) {k j : Nat} (v z : β) (h : j ≠ k) :
    mgetD (mset m k v) j z = mgetD m j z := by
  simp [mgetD, mget_mset_other m v h]

@[simp] theorem mget_mdel_same (m : SMap β) (k : Nat) : mget (mdel m k) k = none := by
  induction m with
  | nil => rfl
  | cons e r ih =>
    obtain ⟨a, w⟩ := e
    simp only [mdel]
    split
    · exact ih
    · simp [mget, *]

theorem mget_mdel_other (m : SMap β) {k j : Nat} (h : j ≠ k) : mget (mdel m k) j = mget m j := by
  have h' : k ≠ j := fun e => h e.symm
  induction m with
  | nil => rfl
  | cons e r ih =>
    obtain ⟨a, w⟩ := e
    simp only [mdel]
    split
    · subst a; simp [mget, h', ih]
    · simp [mget, ih]

/-- What a write of a value does to a read, in a map whose unlisted keys read as z. -/
theorem mgetD_mput [DecidableEq β] (z : β) (m : SMap β) (k j : Nat) (v : β) :
    mgetD (mput z m k v) j z = if j = k then v else mgetD m j z := by
  by_cases h : j = k
  · subst h
    by_cases hv : v = z
    · simp [mput, hv, mgetD]
    · simp [mput, hv]
  · by_cases hv : v = z
    · simp [mput, hv, h, mgetD, mget_mdel_other m h]
    · simp [mput, hv, h, mgetD_mset_other m v z h]

/-! ### The canonical form -/

theorem msortedFrom_le {lo lo' : Nat} {m : SMap β} (hl : lo' ≤ lo) (h : msortedFrom lo m = true) :
    msortedFrom lo' m = true := by
  cases m with
  | nil => rfl
  | cons e r =>
    obtain ⟨a, w⟩ := e
    simp [msortedFrom] at h ⊢
    exact ⟨by omega, h.2⟩

theorem msortedFrom_mset {lo k : Nat} {m : SMap β} (v : β) (hk : lo ≤ k) (h : msortedFrom lo m = true) :
    msortedFrom lo (mset m k v) = true := by
  induction m generalizing lo with
  | nil => simp [mset, msortedFrom, hk]
  | cons e r ih =>
    obtain ⟨a, w⟩ := e
    simp [msortedFrom] at h
    simp only [mset]
    split
    · subst a; simp [msortedFrom, h.2, hk]
    · split
      · simp [msortedFrom, hk, h.2]; omega
      · simp [msortedFrom, h.1]; exact ih (by omega) h.2

theorem msortedFrom_mfilter {lo : Nat} {m : SMap β} (p : Nat → β → Bool) (h : msortedFrom lo m = true) :
    msortedFrom lo (mfilter p m) = true := by
  induction m generalizing lo with
  | nil => rfl
  | cons e r ih =>
    obtain ⟨a, w⟩ := e
    simp [msortedFrom] at h
    simp only [mfilter, List.filter]
    split
    · simp only [msortedFrom, Bool.and_eq_true, decide_eq_true_eq]; exact ⟨h.1, ih h.2⟩
    · exact msortedFrom_le (by omega) (ih h.2)

theorem mdel_eq_mfilter (m : SMap β) (k : Nat) : mdel m k = mfilter (fun a _ => a != k) m := by
  induction m with
  | nil => rfl
  | cons e r ih =>
    obtain ⟨a, w⟩ := e
    by_cases h : a = k
    · simp [mdel, mfilter, h]; simpa [mfilter] using ih
    · simp [mdel, mfilter, h]; simpa [mfilter] using ih

theorem msorted_mset {m : SMap β} (k : Nat) (v : β) (h : msorted m = true) : msorted (mset m k v) = true :=
  msortedFrom_mset v (Nat.zero_le k) h

theorem msorted_mfilter {m : SMap β} (p : Nat → β → Bool) (h : msorted m = true) : msorted (mfilter p m) = true :=
  msortedFrom_mfilter p h

theorem msorted_mdel {m : SMap β} (k : Nat) (h : msorted m = true) : msorted (mdel m k) = true := by
  rw [mdel_eq_mfilter]; exact msorted_mfilter _ h

theorem all_mset {m : SMap β} (p : Nat × β → Bool) (k : Nat) (v : β) (h : m.all p = true) (hv : p (k, v) = true) :
    (mset m k v).all p = true := by
  induction m with
  | nil => simp [mset, hv]
  | cons e r ih =>
    obtain ⟨a, w⟩ := e
    simp only [List.all_cons, Bool.and_eq_true] at h
    simp only [mset]
    split
    · simp only [List.all_cons, Bool.and_eq_true]; exact ⟨hv, h.2⟩
    · split
      · simp only [List.all_cons, Bool.and_eq_true]; exact ⟨hv, h.1, h.2⟩
      · simp only [List.all_cons, Bool.and_eq_true]; exact ⟨h.1, ih h.2⟩

theorem all_mfilter {m : SMap β} (p : Nat × β → Bool) (q : Nat → β → Bool) (h : m.all p = true) :
    (mfilter q m).all p = true := by
  simp only [mfilter, List.all_filter]
  rw [List.all_eq_true] at h ⊢
  intro x hx
  have := h x hx
  cases hq : q x.1 x.2 <;> simp_all

end Sys2Proof.Machine
end

