-- ==== Sys2Proof/Laws/State.lean ====
section
/-!
SUPPORT. Reading the fields of an updated record: one lemma per field per update, and the maps of cores, dies and strands.
-/

set_option Elab.async false

namespace Sys2Proof.Machine

/-! ### Updates of the state -/

@[simp] theorem State.setCore_now (s : State) (c : Nat) (x : Core) : (s.setCore c x).now = s.now := rfl
@[simp] theorem State.setCore_startClk (s : State) (c : Nat) (x : Core) : (s.setCore c x).startClk = s.startClk := rfl
@[simp] theorem State.setCore_starts (s : State) (c : Nat) (x : Core) : (s.setCore c x).starts = s.starts := rfl
@[simp] theorem State.setCore_mem (s : State) (c : Nat) (x : Core) : (s.setCore c x).mem = s.mem := rfl
@[simp] theorem State.setCore_lineTag (s : State) (c : Nat) (x : Core) : (s.setCore c x).lineTag = s.lineTag := rfl
@[simp] theorem State.setCore_lineKey (s : State) (c : Nat) (x : Core) : (s.setCore c x).lineKey = s.lineKey := rfl
@[simp] theorem State.setCore_poisoned (s : State) (c : Nat) (x : Core) : (s.setCore c x).poisoned = s.poisoned := rfl
@[simp] theorem State.setCore_duty (s : State) (c : Nat) (x : Core) : (s.setCore c x).duty = s.duty := rfl
@[simp] theorem State.setCore_cores (s : State) (c : Nat) (x : Core) : (s.setCore c x).cores = mset s.cores c x := rfl
@[simp] theorem State.setCore_dies (s : State) (c : Nat) (x : Core) : (s.setCore c x).dies = s.dies := rfl
@[simp] theorem State.setCore_contexts (s : State) (c : Nat) (x : Core) : (s.setCore c x).contexts = s.contexts := rfl
@[simp] theorem State.setCore_kernels (s : State) (c : Nat) (x : Core) : (s.setCore c x).kernels = s.kernels := rfl
@[simp] theorem State.setCore_owned (s : State) (c : Nat) (x : Core) : (s.setCore c x).owned = s.owned := rfl
@[simp] theorem State.setCore_packets (s : State) (c : Nat) (x : Core) : (s.setCore c x).packets = s.packets := rfl
@[simp] theorem State.setCore_packetNo (s : State) (c : Nat) (x : Core) : (s.setCore c x).packetNo = s.packetNo := rfl
@[simp] theorem State.setCore_links (s : State) (c : Nat) (x : Core) : (s.setCore c x).links = s.links := rfl
@[simp] theorem State.setCore_dark (s : State) (c : Nat) (x : Core) : (s.setCore c x).dark = s.dark := rfl
@[simp] theorem State.setCore_leased (s : State) (c : Nat) (x : Core) : (s.setCore c x).leased = s.leased := rfl
@[simp] theorem State.setCore_fifos (s : State) (c : Nat) (x : Core) : (s.setCore c x).fifos = s.fifos := rfl
@[simp] theorem State.setCore_grants (s : State) (c : Nat) (x : Core) : (s.setCore c x).grants = s.grants := rfl
@[simp] theorem State.setCore_lastChannel (s : State) (c : Nat) (x : Core) :
    (s.setCore c x).lastChannel = s.lastChannel := rfl
@[simp] theorem State.setCore_gnonces (s : State) (c : Nat) (x : Core) : (s.setCore c x).gnonces = s.gnonces := rfl
@[simp] theorem State.setCore_tokenAt (s : State) (c : Nat) (x : Core) : (s.setCore c x).tokenAt = s.tokenAt := rfl
@[simp] theorem State.setCore_tokenPacket (s : State) (c : Nat) (x : Core) :
    (s.setCore c x).tokenPacket = s.tokenPacket := rfl
@[simp] theorem State.setCore_fibreOut (s : State) (c : Nat) (x : Core) : (s.setCore c x).fibreOut = s.fibreOut := rfl
@[simp] theorem State.setCore_starve (s : State) (c : Nat) (x : Core) : (s.setCore c x).starve = s.starve := rfl
@[simp] theorem State.setCore_fabricKey (s : State) (c : Nat) (x : Core) :
    (s.setCore c x).fabricKey = s.fabricKey := rfl
@[simp] theorem State.setCore_linkKeys (s : State) (c : Nat) (x : Core) : (s.setCore c x).linkKeys = s.linkKeys := rfl
@[simp] theorem State.setCore_moduleKey (s : State) (c : Nat) (x : Core) :
    (s.setCore c x).moduleKey = s.moduleKey := rfl
@[simp] theorem State.setCore_transportKey (s : State) (c : Nat) (x : Core) :
    (s.setCore c x).transportKey = s.transportKey := rfl
@[simp] theorem State.setCore_attestKey (s : State) (c : Nat) (x : Core) :
    (s.setCore c x).attestKey = s.attestKey := rfl
@[simp] theorem State.setCore_hostQueues (s : State) (c : Nat) (x : Core) :
    (s.setCore c x).hostQueues = s.hostQueues := rfl
@[simp] theorem State.setCore_dutyReqs (s : State) (c : Nat) (x : Core) : (s.setCore c x).dutyReqs = s.dutyReqs := rfl
@[simp] theorem State.setCore_pageReqs (s : State) (c : Nat) (x : Core) : (s.setCore c x).pageReqs = s.pageReqs := rfl
@[simp] theorem State.setCore_completions (s : State) (c : Nat) (x : Core) :
    (s.setCore c x).completions = s.completions := rfl
@[simp] theorem State.setCore_shootdowns (s : State) (c : Nat) (x : Core) :
    (s.setCore c x).shootdowns = s.shootdowns := rfl
@[simp] theorem State.setCore_atsDone (s : State) (c : Nat) (x : Core) : (s.setCore c x).atsDone = s.atsDone := rfl
@[simp] theorem State.setCore_alarms (s : State) (c : Nat) (x : Core) : (s.setCore c x).alarms = s.alarms := rfl
@[simp] theorem State.setCore_errors (s : State) (c : Nat) (x : Core) : (s.setCore c x).errors = s.errors := rfl
@[simp] theorem State.setCore_level3 (s : State) (c : Nat) (x : Core) : (s.setCore c x).level3 = s.level3 := rfl
@[simp] theorem State.setCore_needsStart (s : State) (c : Nat) (x : Core) :
    (s.setCore c x).needsStart = s.needsStart := rfl
@[simp] theorem State.setCore_starting (s : State) (c : Nat) (x : Core) : (s.setCore c x).starting = s.starting := rfl
@[simp] theorem State.setCore_startGiven (s : State) (c : Nat) (x : Core) :
    (s.setCore c x).startGiven = s.startGiven := rfl
@[simp] theorem State.setCore_heldCmds (s : State) (c : Nat) (x : Core) : (s.setCore c x).heldCmds = s.heldCmds := rfl
@[simp] theorem State.setCore_trainedAt (s : State) (c : Nat) (x : Core) :
    (s.setCore c x).trainedAt = s.trainedAt := rfl
@[simp] theorem State.setCore_manifests (s : State) (c : Nat) (x : Core) :
    (s.setCore c x).manifests = s.manifests := rfl
@[simp] theorem State.setCore_failedStarts (s : State) (c : Nat) (x : Core) :
    (s.setCore c x).failedStarts = s.failedStarts := rfl
@[simp] theorem State.setCore_repairMap (s : State) (c : Nat) (x : Core) :
    (s.setCore c x).repairMap = s.repairMap := rfl
@[simp] theorem State.setCore_fwSlots (s : State) (c : Nat) (x : Core) : (s.setCore c x).fwSlots = s.fwSlots := rfl
@[simp] theorem State.setCore_fwActive (s : State) (c : Nat) (x : Core) : (s.setCore c x).fwActive = s.fwActive := rfl
@[simp] theorem State.setCore_staged (s : State) (c : Nat) (x : Core) : (s.setCore c x).staged = s.staged := rfl
@[simp] theorem State.setCore_migrations (s : State) (c : Nat) (x : Core) :
    (s.setCore c x).migrations = s.migrations := rfl
@[simp] theorem State.setCore_transfer (s : State) (c : Nat) (x : Core) : (s.setCore c x).transfer = s.transfer := rfl
@[simp] theorem State.setCore_mgmtOut (s : State) (c : Nat) (x : Core) : (s.setCore c x).mgmtOut = s.mgmtOut := rfl
@[simp] theorem State.setCore_recoveryFailed (s : State) (c : Nat) (x : Core) :
    (s.setCore c x).recoveryFailed = s.recoveryFailed := rfl
@[simp] theorem State.setCore_moduleId (s : State) (c : Nat) (x : Core) : (s.setCore c x).moduleId = s.moduleId := rfl
@[simp] theorem State.setCore_absent (s : State) (c : Nat) (x : Core) : (s.setCore c x).absent = s.absent := rfl
@[simp] theorem State.setCore_torusC (s : State) (c : Nat) (x : Core) : (s.setCore c x).torusC = s.torusC := rfl
@[simp] theorem State.setCore_torusD (s : State) (c : Nat) (x : Core) : (s.setCore c x).torusD = s.torusD := rfl
@[simp] theorem State.setCore_agenda (s : State) (c : Nat) (x : Core) : (s.setCore c x).agenda = s.agenda := rfl
@[simp] theorem State.setCore_timers (s : State) (c : Nat) (x : Core) : (s.setCore c x).timers = s.timers := rfl
@[simp] theorem State.setCore_turn (s : State) (c : Nat) (x : Core) : (s.setCore c x).turn = s.turn := rfl
@[simp] theorem State.setCore_marks (s : State) (c : Nat) (x : Core) : (s.setCore c x).marks = s.marks := rfl
@[simp] theorem State.setCore_draws (s : State) (c : Nat) (x : Core) : (s.setCore c x).draws = s.draws := rfl
@[simp] theorem State.setCore_cur (s : State) (c : Nat) (x : Core) : (s.setCore c x).cur = s.cur := rfl
@[simp] theorem State.setCore_given (s : State) (c : Nat) (x : Core) : (s.setCore c x).given = s.given := rfl

@[simp] theorem State.setDie_now (s : State) (d : Nat) (x : Die) : (s.setDie d x).now = s.now := rfl
@[simp] theorem State.setDie_startClk (s : State) (d : Nat) (x : Die) : (s.setDie d x).startClk = s.startClk := rfl
@[simp] theorem State.setDie_starts (s : State) (d : Nat) (x : Die) : (s.setDie d x).starts = s.starts := rfl
@[simp] theorem State.setDie_mem (s : State) (d : Nat) (x : Die) : (s.setDie d x).mem = s.mem := rfl
@[simp] theorem State.setDie_lineTag (s : State) (d : Nat) (x : Die) : (s.setDie d x).lineTag = s.lineTag := rfl
@[simp] theorem State.setDie_lineKey (s : State) (d : Nat) (x : Die) : (s.setDie d x).lineKey = s.lineKey := rfl
@[simp] theorem State.setDie_poisoned (s : State) (d : Nat) (x : Die) : (s.setDie d x).poisoned = s.poisoned := rfl
@[simp] theorem State.setDie_duty (s : State) (d : Nat) (x : Die) : (s.setDie d x).duty = s.duty := rfl
@[simp] theorem State.setDie_cores (s : State) (d : Nat) (x : Die) : (s.setDie d x).cores = s.cores := rfl
@[simp] theorem State.setDie_dies (s : State) (d : Nat) (x : Die) : (s.setDie d x).dies = mset s.dies d x := rfl
@[simp] theorem State.setDie_contexts (s : State) (d : Nat) (x : Die) : (s.setDie d x).contexts = s.contexts := rfl
@[simp] theorem State.setDie_kernels (s : State) (d : Nat) (x : Die) : (s.setDie d x).kernels = s.kernels := rfl
@[simp] theorem State.setDie_owned (s : State) (d : Nat) (x : Die) : (s.setDie d x).owned = s.owned := rfl
@[simp] theorem State.setDie_packets (s : State) (d : Nat) (x : Die) : (s.setDie d x).packets = s.packets := rfl
@[simp] theorem State.setDie_packetNo (s : State) (d : Nat) (x : Die) : (s.setDie d x).packetNo = s.packetNo := rfl
@[simp] theorem State.setDie_links (s : State) (d : Nat) (x : Die) : (s.setDie d x).links = s.links := rfl
@[simp] theorem State.setDie_dark (s : State) (d : Nat) (x : Die) : (s.setDie d x).dark = s.dark := rfl
@[simp] theorem State.setDie_leased (s : State) (d : Nat) (x : Die) : (s.setDie d x).leased = s.leased := rfl
@[simp] theorem State.setDie_fifos (s : State) (d : Nat) (x : Die) : (s.setDie d x).fifos = s.fifos := rfl
@[simp] theorem State.setDie_grants (s : State) (d : Nat) (x : Die) : (s.setDie d x).grants = s.grants := rfl
@[simp] theorem State.setDie_lastChannel (s : State) (d : Nat) (x : Die) :
    (s.setDie d x).lastChannel = s.lastChannel := rfl
@[simp] theorem State.setDie_gnonces (s : State) (d : Nat) (x : Die) : (s.setDie d x).gnonces = s.gnonces := rfl
@[simp] theorem State.setDie_tokenAt (s : State) (d : Nat) (x : Die) : (s.setDie d x).tokenAt = s.tokenAt := rfl
@[simp] theorem State.setDie_tokenPacket (s : State) (d : Nat) (x : Die) :
    (s.setDie d x).tokenPacket = s.tokenPacket := rfl
@[simp] theorem State.setDie_fibreOut (s : State) (d : Nat) (x : Die) : (s.setDie d x).fibreOut = s.fibreOut := rfl
@[simp] theorem State.setDie_starve (s : State) (d : Nat) (x : Die) : (s.setDie d x).starve = s.starve := rfl
@[simp] theorem State.setDie_fabricKey (s : State) (d : Nat) (x : Die) : (s.setDie d x).fabricKey = s.fabricKey := rfl
@[simp] theorem State.setDie_linkKeys (s : State) (d : Nat) (x : Die) : (s.setDie d x).linkKeys = s.linkKeys := rfl
@[simp] theorem State.setDie_moduleKey (s : State) (d : Nat) (x : Die) : (s.setDie d x).moduleKey = s.moduleKey := rfl
@[simp] theorem State.setDie_transportKey (s : State) (d : Nat) (x : Die) :
    (s.setDie d x).transportKey = s.transportKey := rfl
@[simp] theorem State.setDie_attestKey (s : State) (d : Nat) (x : Die) : (s.setDie d x).attestKey = s.attestKey := rfl
@[simp] theorem State.setDie_hostQueues (s : State) (d : Nat) (x : Die) :
    (s.setDie d x).hostQueues = s.hostQueues := rfl
@[simp] theorem State.setDie_dutyReqs (s : State) (d : Nat) (x : Die) : (s.setDie d x).dutyReqs = s.dutyReqs := rfl
@[simp] theorem State.setDie_pageReqs (s : State) (d : Nat) (x : Die) : (s.setDie d x).pageReqs = s.pageReqs := rfl
@[simp] theorem State.setDie_completions (s : State) (d : Nat) (x : Die) :
    (s.setDie d x).completions = s.completions := rfl
@[simp] theorem State.setDie_shootdowns (s : State) (d : Nat) (x : Die) :
    (s.setDie d x).shootdowns = s.shootdowns := rfl
@[simp] theorem State.setDie_atsDone (s : State) (d : Nat) (x : Die) : (s.setDie d x).atsDone = s.atsDone := rfl
@[simp] theorem State.setDie_alarms (s : State) (d : Nat) (x : Die) : (s.setDie d x).alarms = s.alarms := rfl
@[simp] theorem State.setDie_errors (s : State) (d : Nat) (x : Die) : (s.setDie d x).errors = s.errors := rfl
@[simp] theorem State.setDie_level3 (s : State) (d : Nat) (x : Die) : (s.setDie d x).level3 = s.level3 := rfl
@[simp] theorem State.setDie_needsStart (s : State) (d : Nat) (x : Die) :
    (s.setDie d x).needsStart = s.needsStart := rfl
@[simp] theorem State.setDie_starting (s : State) (d : Nat) (x : Die) : (s.setDie d x).starting = s.starting := rfl
@[simp] theorem State.setDie_startGiven (s : State) (d : Nat) (x : Die) :
    (s.setDie d x).startGiven = s.startGiven := rfl
@[simp] theorem State.setDie_heldCmds (s : State) (d : Nat) (x : Die) : (s.setDie d x).heldCmds = s.heldCmds := rfl
@[simp] theorem State.setDie_trainedAt (s : State) (d : Nat) (x : Die) : (s.setDie d x).trainedAt = s.trainedAt := rfl
@[simp] theorem State.setDie_manifests (s : State) (d : Nat) (x : Die) : (s.setDie d x).manifests = s.manifests := rfl
@[simp] theorem State.setDie_failedStarts (s : State) (d : Nat) (x : Die) :
    (s.setDie d x).failedStarts = s.failedStarts := rfl
@[simp] theorem State.setDie_repairMap (s : State) (d : Nat) (x : Die) : (s.setDie d x).repairMap = s.repairMap := rfl
@[simp] theorem State.setDie_fwSlots (s : State) (d : Nat) (x : Die) : (s.setDie d x).fwSlots = s.fwSlots := rfl
@[simp] theorem State.setDie_fwActive (s : State) (d : Nat) (x : Die) : (s.setDie d x).fwActive = s.fwActive := rfl
@[simp] theorem State.setDie_staged (s : State) (d : Nat) (x : Die) : (s.setDie d x).staged = s.staged := rfl
@[simp] theorem State.setDie_migrations (s : State) (d : Nat) (x : Die) :
    (s.setDie d x).migrations = s.migrations := rfl
@[simp] theorem State.setDie_transfer (s : State) (d : Nat) (x : Die) : (s.setDie d x).transfer = s.transfer := rfl
@[simp] theorem State.setDie_mgmtOut (s : State) (d : Nat) (x : Die) : (s.setDie d x).mgmtOut = s.mgmtOut := rfl
@[simp] theorem State.setDie_recoveryFailed (s : State) (d : Nat) (x : Die) :
    (s.setDie d x).recoveryFailed = s.recoveryFailed := rfl
@[simp] theorem State.setDie_moduleId (s : State) (d : Nat) (x : Die) : (s.setDie d x).moduleId = s.moduleId := rfl
@[simp] theorem State.setDie_absent (s : State) (d : Nat) (x : Die) : (s.setDie d x).absent = s.absent := rfl
@[simp] theorem State.setDie_torusC (s : State) (d : Nat) (x : Die) : (s.setDie d x).torusC = s.torusC := rfl
@[simp] theorem State.setDie_torusD (s : State) (d : Nat) (x : Die) : (s.setDie d x).torusD = s.torusD := rfl
@[simp] theorem State.setDie_agenda (s : State) (d : Nat) (x : Die) : (s.setDie d x).agenda = s.agenda := rfl
@[simp] theorem State.setDie_timers (s : State) (d : Nat) (x : Die) : (s.setDie d x).timers = s.timers := rfl
@[simp] theorem State.setDie_turn (s : State) (d : Nat) (x : Die) : (s.setDie d x).turn = s.turn := rfl
@[simp] theorem State.setDie_marks (s : State) (d : Nat) (x : Die) : (s.setDie d x).marks = s.marks := rfl
@[simp] theorem State.setDie_draws (s : State) (d : Nat) (x : Die) : (s.setDie d x).draws = s.draws := rfl
@[simp] theorem State.setDie_cur (s : State) (d : Nat) (x : Die) : (s.setDie d x).cur = s.cur := rfl
@[simp] theorem State.setDie_given (s : State) (d : Nat) (x : Die) : (s.setDie d x).given = s.given := rfl

@[simp] theorem State.modCore_now (s : State) (c : Nat) (f : Core → Core) : (s.modCore c f).now = s.now := rfl
@[simp] theorem State.modCore_startClk (s : State) (c : Nat) (f : Core → Core) :
    (s.modCore c f).startClk = s.startClk := rfl
@[simp] theorem State.modCore_starts (s : State) (c : Nat) (f : Core → Core) :
    (s.modCore c f).starts = s.starts := rfl
@[simp] theorem State.modCore_mem (s : State) (c : Nat) (f : Core → Core) : (s.modCore c f).mem = s.mem := rfl
@[simp] theorem State.modCore_lineTag (s : State) (c : Nat) (f : Core → Core) :
    (s.modCore c f).lineTag = s.lineTag := rfl
@[simp] theorem State.modCore_lineKey (s : State) (c : Nat) (f : Core → Core) :
    (s.modCore c f).lineKey = s.lineKey := rfl
@[simp] theorem State.modCore_poisoned (s : State) (c : Nat) (f : Core → Core) :
    (s.modCore c f).poisoned = s.poisoned := rfl
@[simp] theorem State.modCore_duty (s : State) (c : Nat) (f : Core → Core) : (s.modCore c f).duty = s.duty := rfl
@[simp] theorem State.modCore_cores (s : State) (c : Nat) (f : Core → Core) :
    (s.modCore c f).cores = mset s.cores c (f (s.core c)) := rfl
@[simp] theorem State.modCore_dies (s : State) (c : Nat) (f : Core → Core) : (s.modCore c f).dies = s.dies := rfl
@[simp] theorem State.modCore_contexts (s : State) (c : Nat) (f : Core → Core) :
    (s.modCore c f).contexts = s.contexts := rfl
@[simp] theorem State.modCore_kernels (s : State) (c : Nat) (f : Core → Core) :
    (s.modCore c f).kernels = s.kernels := rfl
@[simp] theorem State.modCore_owned (s : State) (c : Nat) (f : Core → Core) : (s.modCore c f).owned = s.owned := rfl
@[simp] theorem State.modCore_packets (s : State) (c : Nat) (f : Core → Core) :
    (s.modCore c f).packets = s.packets := rfl
@[simp] theorem State.modCore_packetNo (s : State) (c : Nat) (f : Core → Core) :
    (s.modCore c f).packetNo = s.packetNo := rfl
@[simp] theorem State.modCore_links (s : State) (c : Nat) (f : Core → Core) : (s.modCore c f).links = s.links := rfl
@[simp] theorem State.modCore_dark (s : State) (c : Nat) (f : Core → Core) : (s.modCore c f).dark = s.dark := rfl
@[simp] theorem State.modCore_leased (s : State) (c : Nat) (f : Core → Core) :
    (s.modCore c f).leased = s.leased := rfl
@[simp] theorem State.modCore_fifos (s : State) (c : Nat) (f : Core → Core) : (s.modCore c f).fifos = s.fifos := rfl
@[simp] theorem State.modCore_grants (s : State) (c : Nat) (f : Core → Core) :
    (s.modCore c f).grants = s.grants := rfl
@[simp] theorem State.modCore_lastChannel (s : State) (c : Nat) (f : Core → Core) :
    (s.modCore c f).lastChannel = s.lastChannel := rfl
@[simp] theorem State.modCore_gnonces (s : State) (c : Nat) (f : Core → Core) :
    (s.modCore c f).gnonces = s.gnonces := rfl
@[simp] theorem State.modCore_tokenAt (s : State) (c : Nat) (f : Core → Core) :
    (s.modCore c f).tokenAt = s.tokenAt := rfl
@[simp] theorem State.modCore_tokenPacket (s : State) (c : Nat) (f : Core → Core) :
    (s.modCore c f).tokenPacket = s.tokenPacket := rfl
@[simp] theorem State.modCore_fibreOut (s : State) (c : Nat) (f : Core → Core) :
    (s.modCore c f).fibreOut = s.fibreOut := rfl
@[simp] theorem State.modCore_starve (s : State) (c : Nat) (f : Core → Core) :
    (s.modCore c f).starve = s.starve := rfl
@[simp] theorem State.modCore_fabricKey (s : State) (c : Nat) (f : Core → Core) :
    (s.modCore c f).fabricKey = s.fabricKey := rfl
@[simp] theorem State.modCore_linkKeys (s : State) (c : Nat) (f : Core → Core) :
    (s.modCore c f).linkKeys = s.linkKeys := rfl
@[simp] theorem State.modCore_moduleKey (s : State) (c : Nat) (f : Core → Core) :
    (s.modCore c f).moduleKey = s.moduleKey := rfl
@[simp] theorem State.modCore_transportKey (s : State) (c : Nat) (f : Core → Core) :
    (s.modCore c f).transportKey = s.transportKey := rfl
@[simp] theorem State.modCore_attestKey (s : State) (c : Nat) (f : Core → Core) :
    (s.modCore c f).attestKey = s.attestKey := rfl
@[simp] theorem State.modCore_hostQueues (s : State) (c : Nat) (f : Core → Core) :
    (s.modCore c f).hostQueues = s.hostQueues := rfl
@[simp] theorem State.modCore_dutyReqs (s : State) (c : Nat) (f : Core → Core) :
    (s.modCore c f).dutyReqs = s.dutyReqs := rfl
@[simp] theorem State.modCore_pageReqs (s : State) (c : Nat) (f : Core → Core) :
    (s.modCore c f).pageReqs = s.pageReqs := rfl
@[simp] theorem State.modCore_completions (s : State) (c : Nat) (f : Core → Core) :
    (s.modCore c f).completions = s.completions := rfl
@[simp] theorem State.modCore_shootdowns (s : State) (c : Nat) (f : Core → Core) :
    (s.modCore c f).shootdowns = s.shootdowns := rfl
@[simp] theorem State.modCore_atsDone (s : State) (c : Nat) (f : Core → Core) :
    (s.modCore c f).atsDone = s.atsDone := rfl
@[simp] theorem State.modCore_alarms (s : State) (c : Nat) (f : Core → Core) :
    (s.modCore c f).alarms = s.alarms := rfl
@[simp] theorem State.modCore_errors (s : State) (c : Nat) (f : Core → Core) :
    (s.modCore c f).errors = s.errors := rfl
@[simp] theorem State.modCore_level3 (s : State) (c : Nat) (f : Core → Core) :
    (s.modCore c f).level3 = s.level3 := rfl
@[simp] theorem State.modCore_needsStart (s : State) (c : Nat) (f : Core → Core) :
    (s.modCore c f).needsStart = s.needsStart := rfl
@[simp] theorem State.modCore_starting (s : State) (c : Nat) (f : Core → Core) :
    (s.modCore c f).starting = s.starting := rfl
@[simp] theorem State.modCore_startGiven (s : State) (c : Nat) (f : Core → Core) :
    (s.modCore c f).startGiven = s.startGiven := rfl
@[simp] theorem State.modCore_heldCmds (s : State) (c : Nat) (f : Core → Core) :
    (s.modCore c f).heldCmds = s.heldCmds := rfl
@[simp] theorem State.modCore_trainedAt (s : State) (c : Nat) (f : Core → Core) :
    (s.modCore c f).trainedAt = s.trainedAt := rfl
@[simp] theorem State.modCore_manifests (s : State) (c : Nat) (f : Core → Core) :
    (s.modCore c f).manifests = s.manifests := rfl
@[simp] theorem State.modCore_failedStarts (s : State) (c : Nat) (f : Core → Core) :
    (s.modCore c f).failedStarts = s.failedStarts := rfl
@[simp] theorem State.modCore_repairMap (s : State) (c : Nat) (f : Core → Core) :
    (s.modCore c f).repairMap = s.repairMap := rfl
@[simp] theorem State.modCore_fwSlots (s : State) (c : Nat) (f : Core → Core) :
    (s.modCore c f).fwSlots = s.fwSlots := rfl
@[simp] theorem State.modCore_fwActive (s : State) (c : Nat) (f : Core → Core) :
    (s.modCore c f).fwActive = s.fwActive := rfl
@[simp] theorem State.modCore_staged (s : State) (c : Nat) (f : Core → Core) :
    (s.modCore c f).staged = s.staged := rfl
@[simp] theorem State.modCore_migrations (s : State) (c : Nat) (f : Core → Core) :
    (s.modCore c f).migrations = s.migrations := rfl
@[simp] theorem State.modCore_transfer (s : State) (c : Nat) (f : Core → Core) :
    (s.modCore c f).transfer = s.transfer := rfl
@[simp] theorem State.modCore_mgmtOut (s : State) (c : Nat) (f : Core → Core) :
    (s.modCore c f).mgmtOut = s.mgmtOut := rfl
@[simp] theorem State.modCore_recoveryFailed (s : State) (c : Nat) (f : Core → Core) :
    (s.modCore c f).recoveryFailed = s.recoveryFailed := rfl
@[simp] theorem State.modCore_moduleId (s : State) (c : Nat) (f : Core → Core) :
    (s.modCore c f).moduleId = s.moduleId := rfl
@[simp] theorem State.modCore_absent (s : State) (c : Nat) (f : Core → Core) :
    (s.modCore c f).absent = s.absent := rfl
@[simp] theorem State.modCore_torusC (s : State) (c : Nat) (f : Core → Core) :
    (s.modCore c f).torusC = s.torusC := rfl
@[simp] theorem State.modCore_torusD (s : State) (c : Nat) (f : Core → Core) :
    (s.modCore c f).torusD = s.torusD := rfl
@[simp] theorem State.modCore_agenda (s : State) (c : Nat) (f : Core → Core) :
    (s.modCore c f).agenda = s.agenda := rfl
@[simp] theorem State.modCore_timers (s : State) (c : Nat) (f : Core → Core) :
    (s.modCore c f).timers = s.timers := rfl
@[simp] theorem State.modCore_turn (s : State) (c : Nat) (f : Core → Core) : (s.modCore c f).turn = s.turn := rfl
@[simp] theorem State.modCore_marks (s : State) (c : Nat) (f : Core → Core) : (s.modCore c f).marks = s.marks := rfl
@[simp] theorem State.modCore_draws (s : State) (c : Nat) (f : Core → Core) : (s.modCore c f).draws = s.draws := rfl
@[simp] theorem State.modCore_cur (s : State) (c : Nat) (f : Core → Core) : (s.modCore c f).cur = s.cur := rfl
@[simp] theorem State.modCore_given (s : State) (c : Nat) (f : Core → Core) : (s.modCore c f).given = s.given := rfl

@[simp] theorem State.modDie_now (s : State) (d : Nat) (f : Die → Die) : (s.modDie d f).now = s.now := rfl
@[simp] theorem State.modDie_startClk (s : State) (d : Nat) (f : Die → Die) :
    (s.modDie d f).startClk = s.startClk := rfl
@[simp] theorem State.modDie_starts (s : State) (d : Nat) (f : Die → Die) : (s.modDie d f).starts = s.starts := rfl
@[simp] theorem State.modDie_mem (s : State) (d : Nat) (f : Die → Die) : (s.modDie d f).mem = s.mem := rfl
@[simp] theorem State.modDie_lineTag (s : State) (d : Nat) (f : Die → Die) : (s.modDie d f).lineTag = s.lineTag := rfl
@[simp] theorem State.modDie_lineKey (s : State) (d : Nat) (f : Die → Die) : (s.modDie d f).lineKey = s.lineKey := rfl
@[simp] theorem State.modDie_poisoned (s : State) (d : Nat) (f : Die → Die) :
    (s.modDie d f).poisoned = s.poisoned := rfl
@[simp] theorem State.modDie_duty (s : State) (d : Nat) (f : Die → Die) : (s.modDie d f).duty = s.duty := rfl
@[simp] theorem State.modDie_cores (s : State) (d : Nat) (f : Die → Die) : (s.modDie d f).cores = s.cores := rfl
@[simp] theorem State.modDie_dies (s : State) (d : Nat) (f : Die → Die) :
    (s.modDie d f).dies = mset s.dies d (f (s.die d)) := rfl
@[simp] theorem State.modDie_contexts (s : State) (d : Nat) (f : Die → Die) :
    (s.modDie d f).contexts = s.contexts := rfl
@[simp] theorem State.modDie_kernels (s : State) (d : Nat) (f : Die → Die) : (s.modDie d f).kernels = s.kernels := rfl
@[simp] theorem State.modDie_owned (s : State) (d : Nat) (f : Die → Die) : (s.modDie d f).owned = s.owned := rfl
@[simp] theorem State.modDie_packets (s : State) (d : Nat) (f : Die → Die) : (s.modDie d f).packets = s.packets := rfl
@[simp] theorem State.modDie_packetNo (s : State) (d : Nat) (f : Die → Die) :
    (s.modDie d f).packetNo = s.packetNo := rfl
@[simp] theorem State.modDie_links (s : State) (d : Nat) (f : Die → Die) : (s.modDie d f).links = s.links := rfl
@[simp] theorem State.modDie_dark (s : State) (d : Nat) (f : Die → Die) : (s.modDie d f).dark = s.dark := rfl
@[simp] theorem State.modDie_leased (s : State) (d : Nat) (f : Die → Die) : (s.modDie d f).leased = s.leased := rfl
@[simp] theorem State.modDie_fifos (s : State) (d : Nat) (f : Die → Die) : (s.modDie d f).fifos = s.fifos := rfl
@[simp] theorem State.modDie_grants (s : State) (d : Nat) (f : Die → Die) : (s.modDie d f).grants = s.grants := rfl
@[simp] theorem State.modDie_lastChannel (s : State) (d : Nat) (f : Die → Die) :
    (s.modDie d f).lastChannel = s.lastChannel := rfl
@[simp] theorem State.modDie_gnonces (s : State) (d : Nat) (f : Die → Die) : (s.modDie d f).gnonces = s.gnonces := rfl
@[simp] theorem State.modDie_tokenAt (s : State) (d : Nat) (f : Die → Die) : (s.modDie d f).tokenAt = s.tokenAt := rfl
@[simp] theorem State.modDie_tokenPacket (s : State) (d : Nat) (f : Die → Die) :
    (s.modDie d f).tokenPacket = s.tokenPacket := rfl
@[simp] theorem State.modDie_fibreOut (s : State) (d : Nat) (f : Die → Die) :
    (s.modDie d f).fibreOut = s.fibreOut := rfl
@[simp] theorem State.modDie_starve (s : State) (d : Nat) (f : Die → Die) : (s.modDie d f).starve = s.starve := rfl
@[simp] theorem State.modDie_fabricKey (s : State) (d : Nat) (f : Die → Die) :
    (s.modDie d f).fabricKey = s.fabricKey := rfl
@[simp] theorem State.modDie_linkKeys (s : State) (d : Nat) (f : Die → Die) :
    (s.modDie d f).linkKeys = s.linkKeys := rfl
@[simp] theorem State.modDie_moduleKey (s : State) (d : Nat) (f : Die → Die) :
    (s.modDie d f).moduleKey = s.moduleKey := rfl
@[simp] theorem State.modDie_transportKey (s : State) (d : Nat) (f : Die → Die) :
    (s.modDie d f).transportKey = s.transportKey := rfl
@[simp] theorem State.modDie_attestKey (s : State) (d : Nat) (f : Die → Die) :
    (s.modDie d f).attestKey = s.attestKey := rfl
@[simp] theorem State.modDie_hostQueues (s : State) (d : Nat) (f : Die → Die) :
    (s.modDie d f).hostQueues = s.hostQueues := rfl
@[simp] theorem State.modDie_dutyReqs (s : State) (d : Nat) (f : Die → Die) :
    (s.modDie d f).dutyReqs = s.dutyReqs := rfl
@[simp] theorem State.modDie_pageReqs (s : State) (d : Nat) (f : Die → Die) :
    (s.modDie d f).pageReqs = s.pageReqs := rfl
@[simp] theorem State.modDie_completions (s : State) (d : Nat) (f : Die → Die) :
    (s.modDie d f).completions = s.completions := rfl
@[simp] theorem State.modDie_shootdowns (s : State) (d : Nat) (f : Die → Die) :
    (s.modDie d f).shootdowns = s.shootdowns := rfl
@[simp] theorem State.modDie_atsDone (s : State) (d : Nat) (f : Die → Die) : (s.modDie d f).atsDone = s.atsDone := rfl
@[simp] theorem State.modDie_alarms (s : State) (d : Nat) (f : Die → Die) : (s.modDie d f).alarms = s.alarms := rfl
@[simp] theorem State.modDie_errors (s : State) (d : Nat) (f : Die → Die) : (s.modDie d f).errors = s.errors := rfl
@[simp] theorem State.modDie_level3 (s : State) (d : Nat) (f : Die → Die) : (s.modDie d f).level3 = s.level3 := rfl
@[simp] theorem State.modDie_needsStart (s : State) (d : Nat) (f : Die → Die) :
    (s.modDie d f).needsStart = s.needsStart := rfl
@[simp] theorem State.modDie_starting (s : State) (d : Nat) (f : Die → Die) :
    (s.modDie d f).starting = s.starting := rfl
@[simp] theorem State.modDie_startGiven (s : State) (d : Nat) (f : Die → Die) :
    (s.modDie d f).startGiven = s.startGiven := rfl
@[simp] theorem State.modDie_heldCmds (s : State) (d : Nat) (f : Die → Die) :
    (s.modDie d f).heldCmds = s.heldCmds := rfl
@[simp] theorem State.modDie_trainedAt (s : State) (d : Nat) (f : Die → Die) :
    (s.modDie d f).trainedAt = s.trainedAt := rfl
@[simp] theorem State.modDie_manifests (s : State) (d : Nat) (f : Die → Die) :
    (s.modDie d f).manifests = s.manifests := rfl
@[simp] theorem State.modDie_failedStarts (s : State) (d : Nat) (f : Die → Die) :
    (s.modDie d f).failedStarts = s.failedStarts := rfl
@[simp] theorem State.modDie_repairMap (s : State) (d : Nat) (f : Die → Die) :
    (s.modDie d f).repairMap = s.repairMap := rfl
@[simp] theorem State.modDie_fwSlots (s : State) (d : Nat) (f : Die → Die) : (s.modDie d f).fwSlots = s.fwSlots := rfl
@[simp] theorem State.modDie_fwActive (s : State) (d : Nat) (f : Die → Die) :
    (s.modDie d f).fwActive = s.fwActive := rfl
@[simp] theorem State.modDie_staged (s : State) (d : Nat) (f : Die → Die) : (s.modDie d f).staged = s.staged := rfl
@[simp] theorem State.modDie_migrations (s : State) (d : Nat) (f : Die → Die) :
    (s.modDie d f).migrations = s.migrations := rfl
@[simp] theorem State.modDie_transfer (s : State) (d : Nat) (f : Die → Die) :
    (s.modDie d f).transfer = s.transfer := rfl
@[simp] theorem State.modDie_mgmtOut (s : State) (d : Nat) (f : Die → Die) : (s.modDie d f).mgmtOut = s.mgmtOut := rfl
@[simp] theorem State.modDie_recoveryFailed (s : State) (d : Nat) (f : Die → Die) :
    (s.modDie d f).recoveryFailed = s.recoveryFailed := rfl
@[simp] theorem State.modDie_moduleId (s : State) (d : Nat) (f : Die → Die) :
    (s.modDie d f).moduleId = s.moduleId := rfl
@[simp] theorem State.modDie_absent (s : State) (d : Nat) (f : Die → Die) : (s.modDie d f).absent = s.absent := rfl
@[simp] theorem State.modDie_torusC (s : State) (d : Nat) (f : Die → Die) : (s.modDie d f).torusC = s.torusC := rfl
@[simp] theorem State.modDie_torusD (s : State) (d : Nat) (f : Die → Die) : (s.modDie d f).torusD = s.torusD := rfl
@[simp] theorem State.modDie_agenda (s : State) (d : Nat) (f : Die → Die) : (s.modDie d f).agenda = s.agenda := rfl
@[simp] theorem State.modDie_timers (s : State) (d : Nat) (f : Die → Die) : (s.modDie d f).timers = s.timers := rfl
@[simp] theorem State.modDie_turn (s : State) (d : Nat) (f : Die → Die) : (s.modDie d f).turn = s.turn := rfl
@[simp] theorem State.modDie_marks (s : State) (d : Nat) (f : Die → Die) : (s.modDie d f).marks = s.marks := rfl
@[simp] theorem State.modDie_draws (s : State) (d : Nat) (f : Die → Die) : (s.modDie d f).draws = s.draws := rfl
@[simp] theorem State.modDie_cur (s : State) (d : Nat) (f : Die → Die) : (s.modDie d f).cur = s.cur := rfl
@[simp] theorem State.modDie_given (s : State) (d : Nat) (f : Die → Die) : (s.modDie d f).given = s.given := rfl

@[simp] theorem State.setStrand_now (s : State) (p : Place) (t : Strand) : (s.setStrand p t).now = s.now := rfl
@[simp] theorem State.setStrand_startClk (s : State) (p : Place) (t : Strand) :
    (s.setStrand p t).startClk = s.startClk := rfl
@[simp] theorem State.setStrand_starts (s : State) (p : Place) (t : Strand) :
    (s.setStrand p t).starts = s.starts := rfl
@[simp] theorem State.setStrand_mem (s : State) (p : Place) (t : Strand) : (s.setStrand p t).mem = s.mem := rfl
@[simp] theorem State.setStrand_lineTag (s : State) (p : Place) (t : Strand) :
    (s.setStrand p t).lineTag = s.lineTag := rfl
@[simp] theorem State.setStrand_lineKey (s : State) (p : Place) (t : Strand) :
    (s.setStrand p t).lineKey = s.lineKey := rfl
@[simp] theorem State.setStrand_poisoned (s : State) (p : Place) (t : Strand) :
    (s.setStrand p t).poisoned = s.poisoned := rfl
@[simp] theorem State.setStrand_duty (s : State) (p : Place) (t : Strand) : (s.setStrand p t).duty = s.duty := rfl
@[simp] theorem State.setStrand_cores (s : State) (p : Place) (t : Strand) :
    (s.setStrand p t).cores = mset s.cores p.core ((s.core p.core).setStrand p.strand t) := rfl
@[simp] theorem State.setStrand_dies (s : State) (p : Place) (t : Strand) : (s.setStrand p t).dies = s.dies := rfl
@[simp] theorem State.setStrand_contexts (s : State) (p : Place) (t : Strand) :
    (s.setStrand p t).contexts = s.contexts := rfl
@[simp] theorem State.setStrand_kernels (s : State) (p : Place) (t : Strand) :
    (s.setStrand p t).kernels = s.kernels := rfl
@[simp] theorem State.setStrand_owned (s : State) (p : Place) (t : Strand) : (s.setStrand p t).owned = s.owned := rfl
@[simp] theorem State.setStrand_packets (s : State) (p : Place) (t : Strand) :
    (s.setStrand p t).packets = s.packets := rfl
@[simp] theorem State.setStrand_packetNo (s : State) (p : Place) (t : Strand) :
    (s.setStrand p t).packetNo = s.packetNo := rfl
@[simp] theorem State.setStrand_links (s : State) (p : Place) (t : Strand) : (s.setStrand p t).links = s.links := rfl
@[simp] theorem State.setStrand_dark (s : State) (p : Place) (t : Strand) : (s.setStrand p t).dark = s.dark := rfl
@[simp] theorem State.setStrand_leased (s : State) (p : Place) (t : Strand) :
    (s.setStrand p t).leased = s.leased := rfl
@[simp] theorem State.setStrand_fifos (s : State) (p : Place) (t : Strand) : (s.setStrand p t).fifos = s.fifos := rfl
@[simp] theorem State.setStrand_grants (s : State) (p : Place) (t : Strand) :
    (s.setStrand p t).grants = s.grants := rfl
@[simp] theorem State.setStrand_lastChannel (s : State) (p : Place) (t : Strand) :
    (s.setStrand p t).lastChannel = s.lastChannel := rfl
@[simp] theorem State.setStrand_gnonces (s : State) (p : Place) (t : Strand) :
    (s.setStrand p t).gnonces = s.gnonces := rfl
@[simp] theorem State.setStrand_tokenAt (s : State) (p : Place) (t : Strand) :
    (s.setStrand p t).tokenAt = s.tokenAt := rfl
@[simp] theorem State.setStrand_tokenPacket (s : State) (p : Place) (t : Strand) :
    (s.setStrand p t).tokenPacket = s.tokenPacket := rfl
@[simp] theorem State.setStrand_fibreOut (s : State) (p : Place) (t : Strand) :
    (s.setStrand p t).fibreOut = s.fibreOut := rfl
@[simp] theorem State.setStrand_starve (s : State) (p : Place) (t : Strand) :
    (s.setStrand p t).starve = s.starve := rfl
@[simp] theorem State.setStrand_fabricKey (s : State) (p : Place) (t : Strand) :
    (s.setStrand p t).fabricKey = s.fabricKey := rfl
@[simp] theorem State.setStrand_linkKeys (s : State) (p : Place) (t : Strand) :
    (s.setStrand p t).linkKeys = s.linkKeys := rfl
@[simp] theorem State.setStrand_moduleKey (s : State) (p : Place) (t : Strand) :
    (s.setStrand p t).moduleKey = s.moduleKey := rfl
@[simp] theorem State.setStrand_transportKey (s : State) (p : Place) (t : Strand) :
    (s.setStrand p t).transportKey = s.transportKey := rfl
@[simp] theorem State.setStrand_attestKey (s : State) (p : Place) (t : Strand) :
    (s.setStrand p t).attestKey = s.attestKey := rfl
@[simp] theorem State.setStrand_hostQueues (s : State) (p : Place) (t : Strand) :
    (s.setStrand p t).hostQueues = s.hostQueues := rfl
@[simp] theorem State.setStrand_dutyReqs (s : State) (p : Place) (t : Strand) :
    (s.setStrand p t).dutyReqs = s.dutyReqs := rfl
@[simp] theorem State.setStrand_pageReqs (s : State) (p : Place) (t : Strand) :
    (s.setStrand p t).pageReqs = s.pageReqs := rfl
@[simp] theorem State.setStrand_completions (s : State) (p : Place) (t : Strand) :
    (s.setStrand p t).completions = s.completions := rfl
@[simp] theorem State.setStrand_shootdowns (s : State) (p : Place) (t : Strand) :
    (s.setStrand p t).shootdowns = s.shootdowns := rfl
@[simp] theorem State.setStrand_atsDone (s : State) (p : Place) (t : Strand) :
    (s.setStrand p t).atsDone = s.atsDone := rfl
@[simp] theorem State.setStrand_alarms (s : State) (p : Place) (t : Strand) :
    (s.setStrand p t).alarms = s.alarms := rfl
@[simp] theorem State.setStrand_errors (s : State) (p : Place) (t : Strand) :
    (s.setStrand p t).errors = s.errors := rfl
@[simp] theorem State.setStrand_level3 (s : State) (p : Place) (t : Strand) :
    (s.setStrand p t).level3 = s.level3 := rfl
@[simp] theorem State.setStrand_needsStart (s : State) (p : Place) (t : Strand) :
    (s.setStrand p t).needsStart = s.needsStart := rfl
@[simp] theorem State.setStrand_starting (s : State) (p : Place) (t : Strand) :
    (s.setStrand p t).starting = s.starting := rfl
@[simp] theorem State.setStrand_startGiven (s : State) (p : Place) (t : Strand) :
    (s.setStrand p t).startGiven = s.startGiven := rfl
@[simp] theorem State.setStrand_heldCmds (s : State) (p : Place) (t : Strand) :
    (s.setStrand p t).heldCmds = s.heldCmds := rfl
@[simp] theorem State.setStrand_trainedAt (s : State) (p : Place) (t : Strand) :
    (s.setStrand p t).trainedAt = s.trainedAt := rfl
@[simp] theorem State.setStrand_manifests (s : State) (p : Place) (t : Strand) :
    (s.setStrand p t).manifests = s.manifests := rfl
@[simp] theorem State.setStrand_failedStarts (s : State) (p : Place) (t : Strand) :
    (s.setStrand p t).failedStarts = s.failedStarts := rfl
@[simp] theorem State.setStrand_repairMap (s : State) (p : Place) (t : Strand) :
    (s.setStrand p t).repairMap = s.repairMap := rfl
@[simp] theorem State.setStrand_fwSlots (s : State) (p : Place) (t : Strand) :
    (s.setStrand p t).fwSlots = s.fwSlots := rfl
@[simp] theorem State.setStrand_fwActive (s : State) (p : Place) (t : Strand) :
    (s.setStrand p t).fwActive = s.fwActive := rfl
@[simp] theorem State.setStrand_staged (s : State) (p : Place) (t : Strand) :
    (s.setStrand p t).staged = s.staged := rfl
@[simp] theorem State.setStrand_migrations (s : State) (p : Place) (t : Strand) :
    (s.setStrand p t).migrations = s.migrations := rfl
@[simp] theorem State.setStrand_transfer (s : State) (p : Place) (t : Strand) :
    (s.setStrand p t).transfer = s.transfer := rfl
@[simp] theorem State.setStrand_mgmtOut (s : State) (p : Place) (t : Strand) :
    (s.setStrand p t).mgmtOut = s.mgmtOut := rfl
@[simp] theorem State.setStrand_recoveryFailed (s : State) (p : Place) (t : Strand) :
    (s.setStrand p t).recoveryFailed = s.recoveryFailed := rfl
@[simp] theorem State.setStrand_moduleId (s : State) (p : Place) (t : Strand) :
    (s.setStrand p t).moduleId = s.moduleId := rfl
@[simp] theorem State.setStrand_absent (s : State) (p : Place) (t : Strand) :
    (s.setStrand p t).absent = s.absent := rfl
@[simp] theorem State.setStrand_torusC (s : State) (p : Place) (t : Strand) :
    (s.setStrand p t).torusC = s.torusC := rfl
@[simp] theorem State.setStrand_torusD (s : State) (p : Place) (t : Strand) :
    (s.setStrand p t).torusD = s.torusD := rfl
@[simp] theorem State.setStrand_agenda (s : State) (p : Place) (t : Strand) :
    (s.setStrand p t).agenda = s.agenda := rfl
@[simp] theorem State.setStrand_timers (s : State) (p : Place) (t : Strand) :
    (s.setStrand p t).timers = s.timers := rfl
@[simp] theorem State.setStrand_turn (s : State) (p : Place) (t : Strand) : (s.setStrand p t).turn = s.turn := rfl
@[simp] theorem State.setStrand_marks (s : State) (p : Place) (t : Strand) : (s.setStrand p t).marks = s.marks := rfl
@[simp] theorem State.setStrand_draws (s : State) (p : Place) (t : Strand) : (s.setStrand p t).draws = s.draws := rfl
@[simp] theorem State.setStrand_cur (s : State) (p : Place) (t : Strand) : (s.setStrand p t).cur = s.cur := rfl
@[simp] theorem State.setStrand_given (s : State) (p : Place) (t : Strand) : (s.setStrand p t).given = s.given := rfl

@[simp] theorem State.later_now (s : State) (i : Instr) (g : Given) : (s.later i g).now = s.now := rfl
@[simp] theorem State.later_startClk (s : State) (i : Instr) (g : Given) : (s.later i g).startClk = s.startClk := rfl
@[simp] theorem State.later_starts (s : State) (i : Instr) (g : Given) : (s.later i g).starts = s.starts := rfl
@[simp] theorem State.later_mem (s : State) (i : Instr) (g : Given) : (s.later i g).mem = s.mem := rfl
@[simp] theorem State.later_lineTag (s : State) (i : Instr) (g : Given) : (s.later i g).lineTag = s.lineTag := rfl
@[simp] theorem State.later_lineKey (s : State) (i : Instr) (g : Given) : (s.later i g).lineKey = s.lineKey := rfl
@[simp] theorem State.later_poisoned (s : State) (i : Instr) (g : Given) : (s.later i g).poisoned = s.poisoned := rfl
@[simp] theorem State.later_duty (s : State) (i : Instr) (g : Given) : (s.later i g).duty = s.duty := rfl
@[simp] theorem State.later_cores (s : State) (i : Instr) (g : Given) : (s.later i g).cores = s.cores := rfl
@[simp] theorem State.later_dies (s : State) (i : Instr) (g : Given) : (s.later i g).dies = s.dies := rfl
@[simp] theorem State.later_contexts (s : State) (i : Instr) (g : Given) : (s.later i g).contexts = s.contexts := rfl
@[simp] theorem State.later_kernels (s : State) (i : Instr) (g : Given) : (s.later i g).kernels = s.kernels := rfl
@[simp] theorem State.later_owned (s : State) (i : Instr) (g : Given) : (s.later i g).owned = s.owned := rfl
@[simp] theorem State.later_packets (s : State) (i : Instr) (g : Given) : (s.later i g).packets = s.packets := rfl
@[simp] theorem State.later_packetNo (s : State) (i : Instr) (g : Given) : (s.later i g).packetNo = s.packetNo := rfl
@[simp] theorem State.later_links (s : State) (i : Instr) (g : Given) : (s.later i g).links = s.links := rfl
@[simp] theorem State.later_dark (s : State) (i : Instr) (g : Given) : (s.later i g).dark = s.dark := rfl
@[simp] theorem State.later_leased (s : State) (i : Instr) (g : Given) : (s.later i g).leased = s.leased := rfl
@[simp] theorem State.later_fifos (s : State) (i : Instr) (g : Given) : (s.later i g).fifos = s.fifos := rfl
@[simp] theorem State.later_grants (s : State) (i : Instr) (g : Given) : (s.later i g).grants = s.grants := rfl
@[simp] theorem State.later_lastChannel (s : State) (i : Instr) (g : Given) :
    (s.later i g).lastChannel = s.lastChannel := rfl
@[simp] theorem State.later_gnonces (s : State) (i : Instr) (g : Given) : (s.later i g).gnonces = s.gnonces := rfl
@[simp] theorem State.later_tokenAt (s : State) (i : Instr) (g : Given) : (s.later i g).tokenAt = s.tokenAt := rfl
@[simp] theorem State.later_tokenPacket (s : State) (i : Instr) (g : Given) :
    (s.later i g).tokenPacket = s.tokenPacket := rfl
@[simp] theorem State.later_fibreOut (s : State) (i : Instr) (g : Given) : (s.later i g).fibreOut = s.fibreOut := rfl
@[simp] theorem State.later_starve (s : State) (i : Instr) (g : Given) : (s.later i g).starve = s.starve := rfl
@[simp] theorem State.later_fabricKey (s : State) (i : Instr) (g : Given) :
    (s.later i g).fabricKey = s.fabricKey := rfl
@[simp] theorem State.later_linkKeys (s : State) (i : Instr) (g : Given) : (s.later i g).linkKeys = s.linkKeys := rfl
@[simp] theorem State.later_moduleKey (s : State) (i : Instr) (g : Given) :
    (s.later i g).moduleKey = s.moduleKey := rfl
@[simp] theorem State.later_transportKey (s : State) (i : Instr) (g : Given) :
    (s.later i g).transportKey = s.transportKey := rfl
@[simp] theorem State.later_attestKey (s : State) (i : Instr) (g : Given) :
    (s.later i g).attestKey = s.attestKey := rfl
@[simp] theorem State.later_hostQueues (s : State) (i : Instr) (g : Given) :
    (s.later i g).hostQueues = s.hostQueues := rfl
@[simp] theorem State.later_dutyReqs (s : State) (i : Instr) (g : Given) : (s.later i g).dutyReqs = s.dutyReqs := rfl
@[simp] theorem State.later_pageReqs (s : State) (i : Instr) (g : Given) : (s.later i g).pageReqs = s.pageReqs := rfl
@[simp] theorem State.later_completions (s : State) (i : Instr) (g : Given) :
    (s.later i g).completions = s.completions := rfl
@[simp] theorem State.later_shootdowns (s : State) (i : Instr) (g : Given) :
    (s.later i g).shootdowns = s.shootdowns := rfl
@[simp] theorem State.later_atsDone (s : State) (i : Instr) (g : Given) : (s.later i g).atsDone = s.atsDone := rfl
@[simp] theorem State.later_alarms (s : State) (i : Instr) (g : Given) : (s.later i g).alarms = s.alarms := rfl
@[simp] theorem State.later_errors (s : State) (i : Instr) (g : Given) : (s.later i g).errors = s.errors := rfl
@[simp] theorem State.later_level3 (s : State) (i : Instr) (g : Given) : (s.later i g).level3 = s.level3 := rfl
@[simp] theorem State.later_needsStart (s : State) (i : Instr) (g : Given) :
    (s.later i g).needsStart = s.needsStart := rfl
@[simp] theorem State.later_starting (s : State) (i : Instr) (g : Given) : (s.later i g).starting = s.starting := rfl
@[simp] theorem State.later_startGiven (s : State) (i : Instr) (g : Given) :
    (s.later i g).startGiven = s.startGiven := rfl
@[simp] theorem State.later_heldCmds (s : State) (i : Instr) (g : Given) : (s.later i g).heldCmds = s.heldCmds := rfl
@[simp] theorem State.later_trainedAt (s : State) (i : Instr) (g : Given) :
    (s.later i g).trainedAt = s.trainedAt := rfl
@[simp] theorem State.later_manifests (s : State) (i : Instr) (g : Given) :
    (s.later i g).manifests = s.manifests := rfl
@[simp] theorem State.later_failedStarts (s : State) (i : Instr) (g : Given) :
    (s.later i g).failedStarts = s.failedStarts := rfl
@[simp] theorem State.later_repairMap (s : State) (i : Instr) (g : Given) :
    (s.later i g).repairMap = s.repairMap := rfl
@[simp] theorem State.later_fwSlots (s : State) (i : Instr) (g : Given) : (s.later i g).fwSlots = s.fwSlots := rfl
@[simp] theorem State.later_fwActive (s : State) (i : Instr) (g : Given) : (s.later i g).fwActive = s.fwActive := rfl
@[simp] theorem State.later_staged (s : State) (i : Instr) (g : Given) : (s.later i g).staged = s.staged := rfl
@[simp] theorem State.later_migrations (s : State) (i : Instr) (g : Given) :
    (s.later i g).migrations = s.migrations := rfl
@[simp] theorem State.later_transfer (s : State) (i : Instr) (g : Given) : (s.later i g).transfer = s.transfer := rfl
@[simp] theorem State.later_mgmtOut (s : State) (i : Instr) (g : Given) : (s.later i g).mgmtOut = s.mgmtOut := rfl
@[simp] theorem State.later_recoveryFailed (s : State) (i : Instr) (g : Given) :
    (s.later i g).recoveryFailed = s.recoveryFailed := rfl
@[simp] theorem State.later_moduleId (s : State) (i : Instr) (g : Given) : (s.later i g).moduleId = s.moduleId := rfl
@[simp] theorem State.later_absent (s : State) (i : Instr) (g : Given) : (s.later i g).absent = s.absent := rfl
@[simp] theorem State.later_torusC (s : State) (i : Instr) (g : Given) : (s.later i g).torusC = s.torusC := rfl
@[simp] theorem State.later_torusD (s : State) (i : Instr) (g : Given) : (s.later i g).torusD = s.torusD := rfl
@[simp] theorem State.later_agenda (s : State) (i : Instr) (g : Given) :
    (s.later i g).agenda = s.agenda ++ [{ step := i, given := g }] := rfl
@[simp] theorem State.later_timers (s : State) (i : Instr) (g : Given) : (s.later i g).timers = s.timers := rfl
@[simp] theorem State.later_turn (s : State) (i : Instr) (g : Given) : (s.later i g).turn = s.turn := rfl
@[simp] theorem State.later_marks (s : State) (i : Instr) (g : Given) : (s.later i g).marks = s.marks := rfl
@[simp] theorem State.later_draws (s : State) (i : Instr) (g : Given) : (s.later i g).draws = s.draws := rfl
@[simp] theorem State.later_cur (s : State) (i : Instr) (g : Given) : (s.later i g).cur = s.cur := rfl
@[simp] theorem State.later_given (s : State) (i : Instr) (g : Given) : (s.later i g).given = s.given := rfl

@[simp] theorem State.after_now (s : State) (n : Nat) (i : Instr) (g : Given) : (s.after n i g).now = s.now := rfl
@[simp] theorem State.after_startClk (s : State) (n : Nat) (i : Instr) (g : Given) :
    (s.after n i g).startClk = s.startClk := rfl
@[simp] theorem State.after_starts (s : State) (n : Nat) (i : Instr) (g : Given) :
    (s.after n i g).starts = s.starts := rfl
@[simp] theorem State.after_mem (s : State) (n : Nat) (i : Instr) (g : Given) : (s.after n i g).mem = s.mem := rfl
@[simp] theorem State.after_lineTag (s : State) (n : Nat) (i : Instr) (g : Given) :
    (s.after n i g).lineTag = s.lineTag := rfl
@[simp] theorem State.after_lineKey (s : State) (n : Nat) (i : Instr) (g : Given) :
    (s.after n i g).lineKey = s.lineKey := rfl
@[simp] theorem State.after_poisoned (s : State) (n : Nat) (i : Instr) (g : Given) :
    (s.after n i g).poisoned = s.poisoned := rfl
@[simp] theorem State.after_duty (s : State) (n : Nat) (i : Instr) (g : Given) : (s.after n i g).duty = s.duty := rfl
@[simp] theorem State.after_cores (s : State) (n : Nat) (i : Instr) (g : Given) :
    (s.after n i g).cores = s.cores := rfl
@[simp] theorem State.after_dies (s : State) (n : Nat) (i : Instr) (g : Given) : (s.after n i g).dies = s.dies := rfl
@[simp] theorem State.after_contexts (s : State) (n : Nat) (i : Instr) (g : Given) :
    (s.after n i g).contexts = s.contexts := rfl
@[simp] theorem State.after_kernels (s : State) (n : Nat) (i : Instr) (g : Given) :
    (s.after n i g).kernels = s.kernels := rfl
@[simp] theorem State.after_owned (s : State) (n : Nat) (i : Instr) (g : Given) :
    (s.after n i g).owned = s.owned := rfl
@[simp] theorem State.after_packets (s : State) (n : Nat) (i : Instr) (g : Given) :
    (s.after n i g).packets = s.packets := rfl
@[simp] theorem State.after_packetNo (s : State) (n : Nat) (i : Instr) (g : Given) :
    (s.after n i g).packetNo = s.packetNo := rfl
@[simp] theorem State.after_links (s : State) (n : Nat) (i : Instr) (g : Given) :
    (s.after n i g).links = s.links := rfl
@[simp] theorem State.after_dark (s : State) (n : Nat) (i : Instr) (g : Given) : (s.after n i g).dark = s.dark := rfl
@[simp] theorem State.after_leased (s : State) (n : Nat) (i : Instr) (g : Given) :
    (s.after n i g).leased = s.leased := rfl
@[simp] theorem State.after_fifos (s : State) (n : Nat) (i : Instr) (g : Given) :
    (s.after n i g).fifos = s.fifos := rfl
@[simp] theorem State.after_grants (s : State) (n : Nat) (i : Instr) (g : Given) :
    (s.after n i g).grants = s.grants := rfl
@[simp] theorem State.after_lastChannel (s : State) (n : Nat) (i : Instr) (g : Given) :
    (s.after n i g).lastChannel = s.lastChannel := rfl
@[simp] theorem State.after_gnonces (s : State) (n : Nat) (i : Instr) (g : Given) :
    (s.after n i g).gnonces = s.gnonces := rfl
@[simp] theorem State.after_tokenAt (s : State) (n : Nat) (i : Instr) (g : Given) :
    (s.after n i g).tokenAt = s.tokenAt := rfl
@[simp] theorem State.after_tokenPacket (s : State) (n : Nat) (i : Instr) (g : Given) :
    (s.after n i g).tokenPacket = s.tokenPacket := rfl
@[simp] theorem State.after_fibreOut (s : State) (n : Nat) (i : Instr) (g : Given) :
    (s.after n i g).fibreOut = s.fibreOut := rfl
@[simp] theorem State.after_starve (s : State) (n : Nat) (i : Instr) (g : Given) :
    (s.after n i g).starve = s.starve := rfl
@[simp] theorem State.after_fabricKey (s : State) (n : Nat) (i : Instr) (g : Given) :
    (s.after n i g).fabricKey = s.fabricKey := rfl
@[simp] theorem State.after_linkKeys (s : State) (n : Nat) (i : Instr) (g : Given) :
    (s.after n i g).linkKeys = s.linkKeys := rfl
@[simp] theorem State.after_moduleKey (s : State) (n : Nat) (i : Instr) (g : Given) :
    (s.after n i g).moduleKey = s.moduleKey := rfl
@[simp] theorem State.after_transportKey (s : State) (n : Nat) (i : Instr) (g : Given) :
    (s.after n i g).transportKey = s.transportKey := rfl
@[simp] theorem State.after_attestKey (s : State) (n : Nat) (i : Instr) (g : Given) :
    (s.after n i g).attestKey = s.attestKey := rfl
@[simp] theorem State.after_hostQueues (s : State) (n : Nat) (i : Instr) (g : Given) :
    (s.after n i g).hostQueues = s.hostQueues := rfl
@[simp] theorem State.after_dutyReqs (s : State) (n : Nat) (i : Instr) (g : Given) :
    (s.after n i g).dutyReqs = s.dutyReqs := rfl
@[simp] theorem State.after_pageReqs (s : State) (n : Nat) (i : Instr) (g : Given) :
    (s.after n i g).pageReqs = s.pageReqs := rfl
@[simp] theorem State.after_completions (s : State) (n : Nat) (i : Instr) (g : Given) :
    (s.after n i g).completions = s.completions := rfl
@[simp] theorem State.after_shootdowns (s : State) (n : Nat) (i : Instr) (g : Given) :
    (s.after n i g).shootdowns = s.shootdowns := rfl
@[simp] theorem State.after_atsDone (s : State) (n : Nat) (i : Instr) (g : Given) :
    (s.after n i g).atsDone = s.atsDone := rfl
@[simp] theorem State.after_alarms (s : State) (n : Nat) (i : Instr) (g : Given) :
    (s.after n i g).alarms = s.alarms := rfl
@[simp] theorem State.after_errors (s : State) (n : Nat) (i : Instr) (g : Given) :
    (s.after n i g).errors = s.errors := rfl
@[simp] theorem State.after_level3 (s : State) (n : Nat) (i : Instr) (g : Given) :
    (s.after n i g).level3 = s.level3 := rfl
@[simp] theorem State.after_needsStart (s : State) (n : Nat) (i : Instr) (g : Given) :
    (s.after n i g).needsStart = s.needsStart := rfl
@[simp] theorem State.after_starting (s : State) (n : Nat) (i : Instr) (g : Given) :
    (s.after n i g).starting = s.starting := rfl
@[simp] theorem State.after_startGiven (s : State) (n : Nat) (i : Instr) (g : Given) :
    (s.after n i g).startGiven = s.startGiven := rfl
@[simp] theorem State.after_heldCmds (s : State) (n : Nat) (i : Instr) (g : Given) :
    (s.after n i g).heldCmds = s.heldCmds := rfl
@[simp] theorem State.after_trainedAt (s : State) (n : Nat) (i : Instr) (g : Given) :
    (s.after n i g).trainedAt = s.trainedAt := rfl
@[simp] theorem State.after_manifests (s : State) (n : Nat) (i : Instr) (g : Given) :
    (s.after n i g).manifests = s.manifests := rfl
@[simp] theorem State.after_failedStarts (s : State) (n : Nat) (i : Instr) (g : Given) :
    (s.after n i g).failedStarts = s.failedStarts := rfl
@[simp] theorem State.after_repairMap (s : State) (n : Nat) (i : Instr) (g : Given) :
    (s.after n i g).repairMap = s.repairMap := rfl
@[simp] theorem State.after_fwSlots (s : State) (n : Nat) (i : Instr) (g : Given) :
    (s.after n i g).fwSlots = s.fwSlots := rfl
@[simp] theorem State.after_fwActive (s : State) (n : Nat) (i : Instr) (g : Given) :
    (s.after n i g).fwActive = s.fwActive := rfl
@[simp] theorem State.after_staged (s : State) (n : Nat) (i : Instr) (g : Given) :
    (s.after n i g).staged = s.staged := rfl
@[simp] theorem State.after_migrations (s : State) (n : Nat) (i : Instr) (g : Given) :
    (s.after n i g).migrations = s.migrations := rfl
@[simp] theorem State.after_transfer (s : State) (n : Nat) (i : Instr) (g : Given) :
    (s.after n i g).transfer = s.transfer := rfl
@[simp] theorem State.after_mgmtOut (s : State) (n : Nat) (i : Instr) (g : Given) :
    (s.after n i g).mgmtOut = s.mgmtOut := rfl
@[simp] theorem State.after_recoveryFailed (s : State) (n : Nat) (i : Instr) (g : Given) :
    (s.after n i g).recoveryFailed = s.recoveryFailed := rfl
@[simp] theorem State.after_moduleId (s : State) (n : Nat) (i : Instr) (g : Given) :
    (s.after n i g).moduleId = s.moduleId := rfl
@[simp] theorem State.after_absent (s : State) (n : Nat) (i : Instr) (g : Given) :
    (s.after n i g).absent = s.absent := rfl
@[simp] theorem State.after_torusC (s : State) (n : Nat) (i : Instr) (g : Given) :
    (s.after n i g).torusC = s.torusC := rfl
@[simp] theorem State.after_torusD (s : State) (n : Nat) (i : Instr) (g : Given) :
    (s.after n i g).torusD = s.torusD := rfl
@[simp] theorem State.after_agenda (s : State) (n : Nat) (i : Instr) (g : Given) :
    (s.after n i g).agenda = s.agenda := rfl
@[simp] theorem State.after_timers (s : State) (n : Nat) (i : Instr) (g : Given) :
    (s.after n i g).timers = s.timers ++ [(s.now + n, { step := i, given := g })] := rfl
@[simp] theorem State.after_turn (s : State) (n : Nat) (i : Instr) (g : Given) : (s.after n i g).turn = s.turn := rfl
@[simp] theorem State.after_marks (s : State) (n : Nat) (i : Instr) (g : Given) :
    (s.after n i g).marks = s.marks := rfl
@[simp] theorem State.after_draws (s : State) (n : Nat) (i : Instr) (g : Given) :
    (s.after n i g).draws = s.draws := rfl
@[simp] theorem State.after_cur (s : State) (n : Nat) (i : Instr) (g : Given) : (s.after n i g).cur = s.cur := rfl
@[simp] theorem State.after_given (s : State) (n : Nat) (i : Instr) (g : Given) :
    (s.after n i g).given = s.given := rfl

/-! ### Updates of a core -/

@[simp] theorem Core.setStrand_owner (x : Core) (k : Nat) (t : Strand) : (x.setStrand k t).owner = x.owner := rfl
@[simp] theorem Core.setStrand_stopping (x : Core) (k : Nat) (t : Strand) :
    (x.setStrand k t).stopping = x.stopping := rfl
@[simp] theorem Core.setStrand_minting (x : Core) (k : Nat) (t : Strand) :
    (x.setStrand k t).minting = x.minting := rfl
@[simp] theorem Core.setStrand_part (x : Core) (k : Nat) (t : Strand) : (x.setStrand k t).part = x.part := rfl
@[simp] theorem Core.setStrand_slot0 (x : Core) (k : Nat) (t : Strand) : (x.setStrand k t).slot0 = x.slot0 := rfl
@[simp] theorem Core.setStrand_slot1 (x : Core) (k : Nat) (t : Strand) : (x.setStrand k t).slot1 = x.slot1 := rfl
@[simp] theorem Core.setStrand_kern (x : Core) (k : Nat) (t : Strand) : (x.setStrand k t).kern = x.kern := rfl
@[simp] theorem Core.setStrand_tag (x : Core) (k : Nat) (t : Strand) : (x.setStrand k t).tag = x.tag := rfl
@[simp] theorem Core.setStrand_strands (x : Core) (k : Nat) (t : Strand) :
    (x.setStrand k t).strands = mset x.strands k t := rfl
@[simp] theorem Core.setStrand_buf (x : Core) (k : Nat) (t : Strand) : (x.setStrand k t).buf = x.buf := rfl
@[simp] theorem Core.setStrand_bad (x : Core) (k : Nat) (t : Strand) : (x.setStrand k t).bad = x.bad := rfl
@[simp] theorem Core.setStrand_lineGen (x : Core) (k : Nat) (t : Strand) :
    (x.setStrand k t).lineGen = x.lineGen := rfl
@[simp] theorem Core.setStrand_bayGen (x : Core) (k : Nat) (t : Strand) : (x.setStrand k t).bayGen = x.bayGen := rfl
@[simp] theorem Core.setStrand_full (x : Core) (k : Nat) (t : Strand) : (x.setStrand k t).full = x.full := rfl
@[simp] theorem Core.setStrand_pend (x : Core) (k : Nat) (t : Strand) : (x.setStrand k t).pend = x.pend := rfl
@[simp] theorem Core.setStrand_scrub (x : Core) (k : Nat) (t : Strand) : (x.setStrand k t).scrub = x.scrub := rfl
@[simp] theorem Core.setStrand_locks (x : Core) (k : Nat) (t : Strand) : (x.setStrand k t).locks = x.locks := rfl
@[simp] theorem Core.setStrand_lockFrom (x : Core) (k : Nat) (t : Strand) :
    (x.setStrand k t).lockFrom = x.lockFrom := rfl
@[simp] theorem Core.setStrand_barWaiting (x : Core) (k : Nat) (t : Strand) :
    (x.setStrand k t).barWaiting = x.barWaiting := rfl
@[simp] theorem Core.setStrand_quiescent (x : Core) (k : Nat) (t : Strand) :
    (x.setStrand k t).quiescent = x.quiescent := rfl
@[simp] theorem Core.setStrand_sb (x : Core) (k : Nat) (t : Strand) : (x.setStrand k t).sb = x.sb := rfl
@[simp] theorem Core.setStrand_drains (x : Core) (k : Nat) (t : Strand) : (x.setStrand k t).drains = x.drains := rfl
@[simp] theorem Core.setStrand_arms (x : Core) (k : Nat) (t : Strand) : (x.setStrand k t).arms = x.arms := rfl
@[simp] theorem Core.setStrand_dcache (x : Core) (k : Nat) (t : Strand) : (x.setStrand k t).dcache = x.dcache := rfl
@[simp] theorem Core.setStrand_icache (x : Core) (k : Nat) (t : Strand) : (x.setStrand k t).icache = x.icache := rfl
@[simp] theorem Core.setStrand_tlb (x : Core) (k : Nat) (t : Strand) : (x.setStrand k t).tlb = x.tlb := rfl
@[simp] theorem Core.setStrand_mtx (x : Core) (k : Nat) (t : Strand) : (x.setStrand k t).mtx = x.mtx := rfl
@[simp] theorem Core.setStrand_rings (x : Core) (k : Nat) (t : Strand) : (x.setStrand k t).rings = x.rings := rfl
@[simp] theorem Core.setStrand_copies (x : Core) (k : Nat) (t : Strand) : (x.setStrand k t).copies = x.copies := rfl
@[simp] theorem Core.setStrand_copySerial (x : Core) (k : Nat) (t : Strand) :
    (x.setStrand k t).copySerial = x.copySerial := rfl
@[simp] theorem Core.setStrand_queue (x : Core) (k : Nat) (t : Strand) : (x.setStrand k t).queue = x.queue := rfl
@[simp] theorem Core.setStrand_inbox (x : Core) (k : Nat) (t : Strand) : (x.setStrand k t).inbox = x.inbox := rfl
@[simp] theorem Core.setStrand_inboxOrder (x : Core) (k : Nat) (t : Strand) :
    (x.setStrand k t).inboxOrder = x.inboxOrder := rfl
@[simp] theorem Core.setStrand_leases (x : Core) (k : Nat) (t : Strand) : (x.setStrand k t).leases = x.leases := rfl
@[simp] theorem Core.setStrand_ni (x : Core) (k : Nat) (t : Strand) : (x.setStrand k t).ni = x.ni := rfl
@[simp] theorem Core.setStrand_barriers (x : Core) (k : Nat) (t : Strand) :
    (x.setStrand k t).barriers = x.barriers := rfl
@[simp] theorem Core.setStrand_views (x : Core) (k : Nat) (t : Strand) : (x.setStrand k t).views = x.views := rfl

/-! ### Updates of a strand -/

@[simp] theorem Strand.setV_run (t : Strand) (r : VReg) (v : VImage) : (t.setV r v).run = t.run := rfl
@[simp] theorem Strand.setV_lack (t : Strand) (r : VReg) (v : VImage) : (t.setV r v).lack = t.lack := rfl
@[simp] theorem Strand.setV_wait (t : Strand) (r : VReg) (v : VImage) : (t.setV r v).wait = t.wait := rfl
@[simp] theorem Strand.setV_waitReg (t : Strand) (r : VReg) (v : VImage) : (t.setV r v).waitReg = t.waitReg := rfl
@[simp] theorem Strand.setV_waitFrom (t : Strand) (r : VReg) (v : VImage) : (t.setV r v).waitFrom = t.waitFrom := rfl
@[simp] theorem Strand.setV_limited (t : Strand) (r : VReg) (v : VImage) : (t.setV r v).limited = t.limited := rfl
@[simp] theorem Strand.setV_pc (t : Strand) (r : VReg) (v : VImage) : (t.setV r v).pc = t.pc := rfl
@[simp] theorem Strand.setV_scalars (t : Strand) (r : VReg) (v : VImage) : (t.setV r v).scalars = t.scalars := rfl
@[simp] theorem Strand.setV_vectors (t : Strand) (r : VReg) (v : VImage) :
    (t.setV r v).vectors = mset t.vectors r.val v := rfl
@[simp] theorem Strand.setV_masks (t : Strand) (r : VReg) (v : VImage) : (t.setV r v).masks = t.masks := rfl
@[simp] theorem Strand.setV_routes (t : Strand) (r : VReg) (v : VImage) : (t.setV r v).routes = t.routes := rfl
@[simp] theorem Strand.setV_routeFails (t : Strand) (r : VReg) (v : VImage) :
    (t.setV r v).routeFails = t.routeFails := rfl
@[simp] theorem Strand.setV_sheaves (t : Strand) (r : VReg) (v : VImage) : (t.setV r v).sheaves = t.sheaves := rfl
@[simp] theorem Strand.setV_loft (t : Strand) (r : VReg) (v : VImage) : (t.setV r v).loft = t.loft := rfl
@[simp] theorem Strand.setV_inRecord (t : Strand) (r : VReg) (v : VImage) : (t.setV r v).inRecord = t.inRecord := rfl
@[simp] theorem Strand.setV_stamps (t : Strand) (r : VReg) (v : VImage) : (t.setV r v).stamps = t.stamps := rfl
@[simp] theorem Strand.setV_issueNo (t : Strand) (r : VReg) (v : VImage) : (t.setV r v).issueNo = t.issueNo := rfl
@[simp] theorem Strand.setV_vec (t : Strand) (r : VReg) (v : VImage) : (t.setV r v).vec = t.vec := rfl
@[simp] theorem Strand.setV_task (t : Strand) (r : VReg) (v : VImage) : (t.setV r v).task = t.task := rfl
@[simp] theorem Strand.setV_trap (t : Strand) (r : VReg) (v : VImage) : (t.setV r v).trap = t.trap := rfl
@[simp] theorem Strand.setV_time (t : Strand) (r : VReg) (v : VImage) : (t.setV r v).time = t.time := rfl
@[simp] theorem Strand.setV_pass (t : Strand) (r : VReg) (v : VImage) : (t.setV r v).pass = t.pass := rfl
@[simp] theorem Strand.setV_inUi (t : Strand) (r : VReg) (v : VImage) : (t.setV r v).inUi = t.inUi := rfl
@[simp] theorem Strand.setV_shadow (t : Strand) (r : VReg) (v : VImage) : (t.setV r v).shadow = t.shadow := rfl
@[simp] theorem Strand.setV_suspUi (t : Strand) (r : VReg) (v : VImage) : (t.setV r v).suspUi = t.suspUi := rfl
@[simp] theorem Strand.setV_suspTrap (t : Strand) (r : VReg) (v : VImage) : (t.setV r v).suspTrap = t.suspTrap := rfl
@[simp] theorem Strand.setV_stepped (t : Strand) (r : VReg) (v : VImage) : (t.setV r v).stepped = t.stepped := rfl
@[simp] theorem Strand.setV_loops (t : Strand) (r : VReg) (v : VImage) : (t.setV r v).loops = t.loops := rfl
@[simp] theorem Strand.setV_replay (t : Strand) (r : VReg) (v : VImage) : (t.setV r v).replay = t.replay := rfl
@[simp] theorem Strand.setV_held (t : Strand) (r : VReg) (v : VImage) : (t.setV r v).held = t.held := rfl
@[simp] theorem Strand.setV_wakeToken (t : Strand) (r : VReg) (v : VImage) :
    (t.setV r v).wakeToken = t.wakeToken := rfl
@[simp] theorem Strand.setV_gslots (t : Strand) (r : VReg) (v : VImage) : (t.setV r v).gslots = t.gslots := rfl
@[simp] theorem Strand.setV_groupRoutes (t : Strand) (r : VReg) (v : VImage) :
    (t.setV r v).groupRoutes = t.groupRoutes := rfl
@[simp] theorem Strand.setV_yieldEnd (t : Strand) (r : VReg) (v : VImage) : (t.setV r v).yieldEnd = t.yieldEnd := rfl
@[simp] theorem Strand.setV_pendTrap (t : Strand) (r : VReg) (v : VImage) : (t.setV r v).pendTrap = t.pendTrap := rfl
@[simp] theorem Strand.setV_mid (t : Strand) (r : VReg) (v : VImage) : (t.setV r v).mid = t.mid := rfl
@[simp] theorem Strand.setV_midMask (t : Strand) (r : VReg) (v : VImage) : (t.setV r v).midMask = t.midMask := rfl
@[simp] theorem Strand.setV_ending (t : Strand) (r : VReg) (v : VImage) : (t.setV r v).ending = t.ending := rfl
@[simp] theorem Strand.setV_walked (t : Strand) (r : VReg) (v : VImage) : (t.setV r v).walked = t.walked := rfl

@[simp] theorem Strand.stall_run (t : Strand) (l : Lack) : (t.stall l).run = .stalled := rfl
@[simp] theorem Strand.stall_lack (t : Strand) (l : Lack) : (t.stall l).lack = l := rfl
@[simp] theorem Strand.stall_wait (t : Strand) (l : Lack) : (t.stall l).wait = .none := rfl
@[simp] theorem Strand.stall_waitReg (t : Strand) (l : Lack) : (t.stall l).waitReg = t.waitReg := rfl
@[simp] theorem Strand.stall_waitFrom (t : Strand) (l : Lack) : (t.stall l).waitFrom = t.waitFrom := rfl
@[simp] theorem Strand.stall_limited (t : Strand) (l : Lack) : (t.stall l).limited = t.limited := rfl
@[simp] theorem Strand.stall_pc (t : Strand) (l : Lack) : (t.stall l).pc = t.pc := rfl
@[simp] theorem Strand.stall_scalars (t : Strand) (l : Lack) : (t.stall l).scalars = t.scalars := rfl
@[simp] theorem Strand.stall_vectors (t : Strand) (l : Lack) : (t.stall l).vectors = t.vectors := rfl
@[simp] theorem Strand.stall_masks (t : Strand) (l : Lack) : (t.stall l).masks = t.masks := rfl
@[simp] theorem Strand.stall_routes (t : Strand) (l : Lack) : (t.stall l).routes = t.routes := rfl
@[simp] theorem Strand.stall_routeFails (t : Strand) (l : Lack) : (t.stall l).routeFails = t.routeFails := rfl
@[simp] theorem Strand.stall_sheaves (t : Strand) (l : Lack) : (t.stall l).sheaves = t.sheaves := rfl
@[simp] theorem Strand.stall_loft (t : Strand) (l : Lack) : (t.stall l).loft = t.loft := rfl
@[simp] theorem Strand.stall_inRecord (t : Strand) (l : Lack) : (t.stall l).inRecord = t.inRecord := rfl
@[simp] theorem Strand.stall_stamps (t : Strand) (l : Lack) : (t.stall l).stamps = t.stamps := rfl
@[simp] theorem Strand.stall_issueNo (t : Strand) (l : Lack) : (t.stall l).issueNo = t.issueNo := rfl
@[simp] theorem Strand.stall_vec (t : Strand) (l : Lack) : (t.stall l).vec = t.vec := rfl
@[simp] theorem Strand.stall_task (t : Strand) (l : Lack) : (t.stall l).task = t.task := rfl
@[simp] theorem Strand.stall_trap (t : Strand) (l : Lack) : (t.stall l).trap = t.trap := rfl
@[simp] theorem Strand.stall_time (t : Strand) (l : Lack) : (t.stall l).time = t.time := rfl
@[simp] theorem Strand.stall_pass (t : Strand) (l : Lack) : (t.stall l).pass = t.pass := rfl
@[simp] theorem Strand.stall_inUi (t : Strand) (l : Lack) : (t.stall l).inUi = t.inUi := rfl
@[simp] theorem Strand.stall_shadow (t : Strand) (l : Lack) : (t.stall l).shadow = t.shadow := rfl
@[simp] theorem Strand.stall_suspUi (t : Strand) (l : Lack) : (t.stall l).suspUi = t.suspUi := rfl
@[simp] theorem Strand.stall_suspTrap (t : Strand) (l : Lack) : (t.stall l).suspTrap = t.suspTrap := rfl
@[simp] theorem Strand.stall_stepped (t : Strand) (l : Lack) : (t.stall l).stepped = t.stepped := rfl
@[simp] theorem Strand.stall_loops (t : Strand) (l : Lack) : (t.stall l).loops = t.loops := rfl
@[simp] theorem Strand.stall_replay (t : Strand) (l : Lack) : (t.stall l).replay = t.replay := rfl
@[simp] theorem Strand.stall_held (t : Strand) (l : Lack) : (t.stall l).held = t.held := rfl
@[simp] theorem Strand.stall_wakeToken (t : Strand) (l : Lack) : (t.stall l).wakeToken = t.wakeToken := rfl
@[simp] theorem Strand.stall_gslots (t : Strand) (l : Lack) : (t.stall l).gslots = t.gslots := rfl
@[simp] theorem Strand.stall_groupRoutes (t : Strand) (l : Lack) : (t.stall l).groupRoutes = t.groupRoutes := rfl
@[simp] theorem Strand.stall_yieldEnd (t : Strand) (l : Lack) : (t.stall l).yieldEnd = t.yieldEnd := rfl
@[simp] theorem Strand.stall_pendTrap (t : Strand) (l : Lack) : (t.stall l).pendTrap = t.pendTrap := rfl
@[simp] theorem Strand.stall_mid (t : Strand) (l : Lack) : (t.stall l).mid = t.mid := rfl
@[simp] theorem Strand.stall_midMask (t : Strand) (l : Lack) : (t.stall l).midMask = t.midMask := rfl
@[simp] theorem Strand.stall_ending (t : Strand) (l : Lack) : (t.stall l).ending = t.ending := rfl
@[simp] theorem Strand.stall_walked (t : Strand) (l : Lack) : (t.stall l).walked = t.walked := rfl

@[simp] theorem Strand.wake_run (t : Strand) : (t.wake).run = .ready := rfl
@[simp] theorem Strand.wake_lack (t : Strand) : (t.wake).lack = .none := rfl
@[simp] theorem Strand.wake_wait (t : Strand) : (t.wake).wait = .none := rfl
@[simp] theorem Strand.wake_waitReg (t : Strand) : (t.wake).waitReg = t.waitReg := rfl
@[simp] theorem Strand.wake_waitFrom (t : Strand) : (t.wake).waitFrom = t.waitFrom := rfl
@[simp] theorem Strand.wake_limited (t : Strand) : (t.wake).limited = t.limited := rfl
@[simp] theorem Strand.wake_pc (t : Strand) : (t.wake).pc = t.pc := rfl
@[simp] theorem Strand.wake_scalars (t : Strand) : (t.wake).scalars = t.scalars := rfl
@[simp] theorem Strand.wake_vectors (t : Strand) : (t.wake).vectors = t.vectors := rfl
@[simp] theorem Strand.wake_masks (t : Strand) : (t.wake).masks = t.masks := rfl
@[simp] theorem Strand.wake_routes (t : Strand) : (t.wake).routes = t.routes := rfl
@[simp] theorem Strand.wake_routeFails (t : Strand) : (t.wake).routeFails = t.routeFails := rfl
@[simp] theorem Strand.wake_sheaves (t : Strand) : (t.wake).sheaves = t.sheaves := rfl
@[simp] theorem Strand.wake_loft (t : Strand) : (t.wake).loft = t.loft := rfl
@[simp] theorem Strand.wake_inRecord (t : Strand) : (t.wake).inRecord = t.inRecord := rfl
@[simp] theorem Strand.wake_stamps (t : Strand) : (t.wake).stamps = t.stamps := rfl
@[simp] theorem Strand.wake_issueNo (t : Strand) : (t.wake).issueNo = t.issueNo := rfl
@[simp] theorem Strand.wake_vec (t : Strand) : (t.wake).vec = t.vec := rfl
@[simp] theorem Strand.wake_task (t : Strand) : (t.wake).task = t.task := rfl
@[simp] theorem Strand.wake_trap (t : Strand) : (t.wake).trap = t.trap := rfl
@[simp] theorem Strand.wake_time (t : Strand) : (t.wake).time = t.time := rfl
@[simp] theorem Strand.wake_pass (t : Strand) : (t.wake).pass = t.pass := rfl
@[simp] theorem Strand.wake_inUi (t : Strand) : (t.wake).inUi = t.inUi := rfl
@[simp] theorem Strand.wake_shadow (t : Strand) : (t.wake).shadow = t.shadow := rfl
@[simp] theorem Strand.wake_suspUi (t : Strand) : (t.wake).suspUi = t.suspUi := rfl
@[simp] theorem Strand.wake_suspTrap (t : Strand) : (t.wake).suspTrap = t.suspTrap := rfl
@[simp] theorem Strand.wake_stepped (t : Strand) : (t.wake).stepped = t.stepped := rfl
@[simp] theorem Strand.wake_loops (t : Strand) : (t.wake).loops = t.loops := rfl
@[simp] theorem Strand.wake_replay (t : Strand) : (t.wake).replay = t.replay := rfl
@[simp] theorem Strand.wake_held (t : Strand) : (t.wake).held = t.held := rfl
@[simp] theorem Strand.wake_wakeToken (t : Strand) : (t.wake).wakeToken = t.wakeToken := rfl
@[simp] theorem Strand.wake_gslots (t : Strand) : (t.wake).gslots = t.gslots := rfl
@[simp] theorem Strand.wake_groupRoutes (t : Strand) : (t.wake).groupRoutes = t.groupRoutes := rfl
@[simp] theorem Strand.wake_yieldEnd (t : Strand) : (t.wake).yieldEnd = t.yieldEnd := rfl
@[simp] theorem Strand.wake_pendTrap (t : Strand) : (t.wake).pendTrap = t.pendTrap := rfl
@[simp] theorem Strand.wake_mid (t : Strand) : (t.wake).mid = t.mid := rfl
@[simp] theorem Strand.wake_midMask (t : Strand) : (t.wake).midMask = t.midMask := rfl
@[simp] theorem Strand.wake_ending (t : Strand) : (t.wake).ending = t.ending := rfl
@[simp] theorem Strand.wake_walked (t : Strand) : (t.wake).walked = t.walked := rfl

@[simp] theorem Strand.await_run (t : Strand) (n : Nat) (w : Wait) (d : SReg) : (t.await n w d).run = .waiting := rfl
@[simp] theorem Strand.await_lack (t : Strand) (n : Nat) (w : Wait) (d : SReg) : (t.await n w d).lack = t.lack := rfl
@[simp] theorem Strand.await_wait (t : Strand) (n : Nat) (w : Wait) (d : SReg) : (t.await n w d).wait = w := rfl
@[simp] theorem Strand.await_waitReg (t : Strand) (n : Nat) (w : Wait) (d : SReg) : (t.await n w d).waitReg = d := rfl
@[simp] theorem Strand.await_waitFrom (t : Strand) (n : Nat) (w : Wait) (d : SReg) :
    (t.await n w d).waitFrom = n := rfl
@[simp] theorem Strand.await_limited (t : Strand) (n : Nat) (w : Wait) (d : SReg) :
    (t.await n w d).limited = false := rfl
@[simp] theorem Strand.await_pc (t : Strand) (n : Nat) (w : Wait) (d : SReg) : (t.await n w d).pc = t.pc := rfl
@[simp] theorem Strand.await_scalars (t : Strand) (n : Nat) (w : Wait) (d : SReg) :
    (t.await n w d).scalars = t.scalars := rfl
@[simp] theorem Strand.await_vectors (t : Strand) (n : Nat) (w : Wait) (d : SReg) :
    (t.await n w d).vectors = t.vectors := rfl
@[simp] theorem Strand.await_masks (t : Strand) (n : Nat) (w : Wait) (d : SReg) :
    (t.await n w d).masks = t.masks := rfl
@[simp] theorem Strand.await_routes (t : Strand) (n : Nat) (w : Wait) (d : SReg) :
    (t.await n w d).routes = t.routes := rfl
@[simp] theorem Strand.await_routeFails (t : Strand) (n : Nat) (w : Wait) (d : SReg) :
    (t.await n w d).routeFails = t.routeFails := rfl
@[simp] theorem Strand.await_sheaves (t : Strand) (n : Nat) (w : Wait) (d : SReg) :
    (t.await n w d).sheaves = t.sheaves := rfl
@[simp] theorem Strand.await_loft (t : Strand) (n : Nat) (w : Wait) (d : SReg) : (t.await n w d).loft = t.loft := rfl
@[simp] theorem Strand.await_inRecord (t : Strand) (n : Nat) (w : Wait) (d : SReg) :
    (t.await n w d).inRecord = t.inRecord := rfl
@[simp] theorem Strand.await_stamps (t : Strand) (n : Nat) (w : Wait) (d : SReg) :
    (t.await n w d).stamps = t.stamps := rfl
@[simp] theorem Strand.await_issueNo (t : Strand) (n : Nat) (w : Wait) (d : SReg) :
    (t.await n w d).issueNo = t.issueNo := rfl
@[simp] theorem Strand.await_vec (t : Strand) (n : Nat) (w : Wait) (d : SReg) : (t.await n w d).vec = t.vec := rfl
@[simp] theorem Strand.await_task (t : Strand) (n : Nat) (w : Wait) (d : SReg) : (t.await n w d).task = t.task := rfl
@[simp] theorem Strand.await_trap (t : Strand) (n : Nat) (w : Wait) (d : SReg) : (t.await n w d).trap = t.trap := rfl
@[simp] theorem Strand.await_time (t : Strand) (n : Nat) (w : Wait) (d : SReg) : (t.await n w d).time = t.time := rfl
@[simp] theorem Strand.await_pass (t : Strand) (n : Nat) (w : Wait) (d : SReg) : (t.await n w d).pass = t.pass := rfl
@[simp] theorem Strand.await_inUi (t : Strand) (n : Nat) (w : Wait) (d : SReg) : (t.await n w d).inUi = t.inUi := rfl
@[simp] theorem Strand.await_shadow (t : Strand) (n : Nat) (w : Wait) (d : SReg) :
    (t.await n w d).shadow = t.shadow := rfl
@[simp] theorem Strand.await_suspUi (t : Strand) (n : Nat) (w : Wait) (d : SReg) :
    (t.await n w d).suspUi = t.suspUi := rfl
@[simp] theorem Strand.await_suspTrap (t : Strand) (n : Nat) (w : Wait) (d : SReg) :
    (t.await n w d).suspTrap = t.suspTrap := rfl
@[simp] theorem Strand.await_stepped (t : Strand) (n : Nat) (w : Wait) (d : SReg) :
    (t.await n w d).stepped = t.stepped := rfl
@[simp] theorem Strand.await_loops (t : Strand) (n : Nat) (w : Wait) (d : SReg) :
    (t.await n w d).loops = t.loops := rfl
@[simp] theorem Strand.await_replay (t : Strand) (n : Nat) (w : Wait) (d : SReg) :
    (t.await n w d).replay = t.replay := rfl
@[simp] theorem Strand.await_held (t : Strand) (n : Nat) (w : Wait) (d : SReg) : (t.await n w d).held = t.held := rfl
@[simp] theorem Strand.await_wakeToken (t : Strand) (n : Nat) (w : Wait) (d : SReg) :
    (t.await n w d).wakeToken = t.wakeToken := rfl
@[simp] theorem Strand.await_gslots (t : Strand) (n : Nat) (w : Wait) (d : SReg) :
    (t.await n w d).gslots = t.gslots := rfl
@[simp] theorem Strand.await_groupRoutes (t : Strand) (n : Nat) (w : Wait) (d : SReg) :
    (t.await n w d).groupRoutes = t.groupRoutes := rfl
@[simp] theorem Strand.await_yieldEnd (t : Strand) (n : Nat) (w : Wait) (d : SReg) :
    (t.await n w d).yieldEnd = t.yieldEnd := rfl
@[simp] theorem Strand.await_pendTrap (t : Strand) (n : Nat) (w : Wait) (d : SReg) :
    (t.await n w d).pendTrap = t.pendTrap := rfl
@[simp] theorem Strand.await_mid (t : Strand) (n : Nat) (w : Wait) (d : SReg) : (t.await n w d).mid = t.mid := rfl
@[simp] theorem Strand.await_midMask (t : Strand) (n : Nat) (w : Wait) (d : SReg) :
    (t.await n w d).midMask = t.midMask := rfl
@[simp] theorem Strand.await_ending (t : Strand) (n : Nat) (w : Wait) (d : SReg) :
    (t.await n w d).ending = t.ending := rfl
@[simp] theorem Strand.await_walked (t : Strand) (n : Nat) (w : Wait) (d : SReg) :
    (t.await n w d).walked = t.walked := rfl

@[simp] theorem Strand.completeAt_run (t : Strand) (a : Word) : (t.completeAt a).run = t.run := rfl
@[simp] theorem Strand.completeAt_lack (t : Strand) (a : Word) : (t.completeAt a).lack = t.lack := rfl
@[simp] theorem Strand.completeAt_wait (t : Strand) (a : Word) : (t.completeAt a).wait = t.wait := rfl
@[simp] theorem Strand.completeAt_waitReg (t : Strand) (a : Word) : (t.completeAt a).waitReg = t.waitReg := rfl
@[simp] theorem Strand.completeAt_waitFrom (t : Strand) (a : Word) : (t.completeAt a).waitFrom = t.waitFrom := rfl
@[simp] theorem Strand.completeAt_limited (t : Strand) (a : Word) : (t.completeAt a).limited = t.limited := rfl
@[simp] theorem Strand.completeAt_pc (t : Strand) (a : Word) : (t.completeAt a).pc = a := rfl
@[simp] theorem Strand.completeAt_scalars (t : Strand) (a : Word) : (t.completeAt a).scalars = t.scalars := rfl
@[simp] theorem Strand.completeAt_vectors (t : Strand) (a : Word) : (t.completeAt a).vectors = t.vectors := rfl
@[simp] theorem Strand.completeAt_masks (t : Strand) (a : Word) : (t.completeAt a).masks = t.masks := rfl
@[simp] theorem Strand.completeAt_routes (t : Strand) (a : Word) : (t.completeAt a).routes = t.routes := rfl
@[simp] theorem Strand.completeAt_routeFails (t : Strand) (a : Word) :
    (t.completeAt a).routeFails = t.routeFails := rfl
@[simp] theorem Strand.completeAt_sheaves (t : Strand) (a : Word) : (t.completeAt a).sheaves = t.sheaves := rfl
@[simp] theorem Strand.completeAt_loft (t : Strand) (a : Word) : (t.completeAt a).loft = t.loft := rfl
@[simp] theorem Strand.completeAt_inRecord (t : Strand) (a : Word) : (t.completeAt a).inRecord = t.inRecord := rfl
@[simp] theorem Strand.completeAt_stamps (t : Strand) (a : Word) : (t.completeAt a).stamps = t.stamps := rfl
@[simp] theorem Strand.completeAt_issueNo (t : Strand) (a : Word) : (t.completeAt a).issueNo = t.issueNo := rfl
@[simp] theorem Strand.completeAt_vec (t : Strand) (a : Word) : (t.completeAt a).vec = t.vec := rfl
@[simp] theorem Strand.completeAt_task (t : Strand) (a : Word) : (t.completeAt a).task = t.task := rfl
@[simp] theorem Strand.completeAt_trap (t : Strand) (a : Word) : (t.completeAt a).trap = t.trap := rfl
@[simp] theorem Strand.completeAt_time (t : Strand) (a : Word) :
    (t.completeAt a).time = { t.time with instret := t.time.instret + 1 } := rfl
@[simp] theorem Strand.completeAt_pass (t : Strand) (a : Word) : (t.completeAt a).pass = t.pass := rfl
@[simp] theorem Strand.completeAt_inUi (t : Strand) (a : Word) : (t.completeAt a).inUi = t.inUi := rfl
@[simp] theorem Strand.completeAt_shadow (t : Strand) (a : Word) : (t.completeAt a).shadow = t.shadow := rfl
@[simp] theorem Strand.completeAt_suspUi (t : Strand) (a : Word) : (t.completeAt a).suspUi = t.suspUi := rfl
@[simp] theorem Strand.completeAt_suspTrap (t : Strand) (a : Word) : (t.completeAt a).suspTrap = t.suspTrap := rfl
@[simp] theorem Strand.completeAt_stepped (t : Strand) (a : Word) : (t.completeAt a).stepped = false := rfl
@[simp] theorem Strand.completeAt_loops (t : Strand) (a : Word) : (t.completeAt a).loops = t.loops := rfl
@[simp] theorem Strand.completeAt_replay (t : Strand) (a : Word) : (t.completeAt a).replay = t.replay := rfl
@[simp] theorem Strand.completeAt_held (t : Strand) (a : Word) : (t.completeAt a).held = t.held := rfl
@[simp] theorem Strand.completeAt_wakeToken (t : Strand) (a : Word) : (t.completeAt a).wakeToken = t.wakeToken := rfl
@[simp] theorem Strand.completeAt_gslots (t : Strand) (a : Word) : (t.completeAt a).gslots = t.gslots := rfl
@[simp] theorem Strand.completeAt_groupRoutes (t : Strand) (a : Word) :
    (t.completeAt a).groupRoutes = t.groupRoutes := rfl
@[simp] theorem Strand.completeAt_yieldEnd (t : Strand) (a : Word) : (t.completeAt a).yieldEnd = t.yieldEnd := rfl
@[simp] theorem Strand.completeAt_pendTrap (t : Strand) (a : Word) : (t.completeAt a).pendTrap = t.pendTrap := rfl
@[simp] theorem Strand.completeAt_mid (t : Strand) (a : Word) : (t.completeAt a).mid = false := rfl
@[simp] theorem Strand.completeAt_midMask (t : Strand) (a : Word) : (t.completeAt a).midMask = none := rfl
@[simp] theorem Strand.completeAt_ending (t : Strand) (a : Word) : (t.completeAt a).ending = t.ending := rfl
@[simp] theorem Strand.completeAt_walked (t : Strand) (a : Word) : (t.completeAt a).walked = none := rfl

@[simp] theorem Strand.complete_run (t : Strand) : (t.complete).run = t.run := rfl
@[simp] theorem Strand.complete_lack (t : Strand) : (t.complete).lack = t.lack := rfl
@[simp] theorem Strand.complete_wait (t : Strand) : (t.complete).wait = t.wait := rfl
@[simp] theorem Strand.complete_waitReg (t : Strand) : (t.complete).waitReg = t.waitReg := rfl
@[simp] theorem Strand.complete_waitFrom (t : Strand) : (t.complete).waitFrom = t.waitFrom := rfl
@[simp] theorem Strand.complete_limited (t : Strand) : (t.complete).limited = t.limited := rfl
@[simp] theorem Strand.complete_scalars (t : Strand) : (t.complete).scalars = t.scalars := rfl
@[simp] theorem Strand.complete_vectors (t : Strand) : (t.complete).vectors = t.vectors := rfl
@[simp] theorem Strand.complete_masks (t : Strand) : (t.complete).masks = t.masks := rfl
@[simp] theorem Strand.complete_routes (t : Strand) : (t.complete).routes = t.routes := rfl
@[simp] theorem Strand.complete_routeFails (t : Strand) : (t.complete).routeFails = t.routeFails := rfl
@[simp] theorem Strand.complete_sheaves (t : Strand) : (t.complete).sheaves = t.sheaves := rfl
@[simp] theorem Strand.complete_loft (t : Strand) : (t.complete).loft = t.loft := rfl
@[simp] theorem Strand.complete_inRecord (t : Strand) : (t.complete).inRecord = t.inRecord := rfl
@[simp] theorem Strand.complete_stamps (t : Strand) : (t.complete).stamps = t.stamps := rfl
@[simp] theorem Strand.complete_issueNo (t : Strand) : (t.complete).issueNo = t.issueNo := rfl
@[simp] theorem Strand.complete_vec (t : Strand) : (t.complete).vec = t.vec := rfl
@[simp] theorem Strand.complete_task (t : Strand) : (t.complete).task = t.task := rfl
@[simp] theorem Strand.complete_trap (t : Strand) : (t.complete).trap = t.trap := rfl
@[simp] theorem Strand.complete_time (t : Strand) :
    (t.complete).time = { t.time with instret := t.time.instret + 1 } := rfl
@[simp] theorem Strand.complete_pass (t : Strand) : (t.complete).pass = t.pass := rfl
@[simp] theorem Strand.complete_inUi (t : Strand) : (t.complete).inUi = t.inUi := rfl
@[simp] theorem Strand.complete_shadow (t : Strand) : (t.complete).shadow = t.shadow := rfl
@[simp] theorem Strand.complete_suspUi (t : Strand) : (t.complete).suspUi = t.suspUi := rfl
@[simp] theorem Strand.complete_suspTrap (t : Strand) : (t.complete).suspTrap = t.suspTrap := rfl
@[simp] theorem Strand.complete_stepped (t : Strand) : (t.complete).stepped = t.atBodyEnd := rfl
@[simp] theorem Strand.complete_replay (t : Strand) : (t.complete).replay = t.replay := rfl
@[simp] theorem Strand.complete_held (t : Strand) : (t.complete).held = t.held := rfl
@[simp] theorem Strand.complete_wakeToken (t : Strand) : (t.complete).wakeToken = t.wakeToken := rfl
@[simp] theorem Strand.complete_gslots (t : Strand) : (t.complete).gslots = t.gslots := rfl
@[simp] theorem Strand.complete_groupRoutes (t : Strand) : (t.complete).groupRoutes = t.groupRoutes := rfl
@[simp] theorem Strand.complete_yieldEnd (t : Strand) : (t.complete).yieldEnd = t.yieldEnd := rfl
@[simp] theorem Strand.complete_pendTrap (t : Strand) : (t.complete).pendTrap = t.pendTrap := rfl
@[simp] theorem Strand.complete_mid (t : Strand) : (t.complete).mid = false := rfl
@[simp] theorem Strand.complete_midMask (t : Strand) : (t.complete).midMask = none := rfl
@[simp] theorem Strand.complete_ending (t : Strand) : (t.complete).ending = t.ending := rfl
@[simp] theorem Strand.complete_walked (t : Strand) : (t.complete).walked = none := rfl

@[simp] theorem Strand.enterTrap_run (t : Strand) (c : Nat) (v e : Word) (m : Nat) :
    (t.enterTrap c v e m).run = .ready := rfl
@[simp] theorem Strand.enterTrap_lack (t : Strand) (c : Nat) (v e : Word) (m : Nat) :
    (t.enterTrap c v e m).lack = .none := rfl
@[simp] theorem Strand.enterTrap_wait (t : Strand) (c : Nat) (v e : Word) (m : Nat) :
    (t.enterTrap c v e m).wait = .none := rfl
@[simp] theorem Strand.enterTrap_waitReg (t : Strand) (c : Nat) (v e : Word) (m : Nat) :
    (t.enterTrap c v e m).waitReg = t.waitReg := rfl
@[simp] theorem Strand.enterTrap_waitFrom (t : Strand) (c : Nat) (v e : Word) (m : Nat) :
    (t.enterTrap c v e m).waitFrom = t.waitFrom := rfl
@[simp] theorem Strand.enterTrap_limited (t : Strand) (c : Nat) (v e : Word) (m : Nat) :
    (t.enterTrap c v e m).limited = t.limited := rfl
@[simp] theorem Strand.enterTrap_pc (t : Strand) (c : Nat) (v e : Word) (m : Nat) :
    (t.enterTrap c v e m).pc = t.trap.tvec := rfl
@[simp] theorem Strand.enterTrap_scalars (t : Strand) (c : Nat) (v e : Word) (m : Nat) :
    (t.enterTrap c v e m).scalars = t.scalars := rfl
@[simp] theorem Strand.enterTrap_vectors (t : Strand) (c : Nat) (v e : Word) (m : Nat) :
    (t.enterTrap c v e m).vectors = t.vectors := rfl
@[simp] theorem Strand.enterTrap_masks (t : Strand) (c : Nat) (v e : Word) (m : Nat) :
    (t.enterTrap c v e m).masks = t.masks := rfl
@[simp] theorem Strand.enterTrap_routes (t : Strand) (c : Nat) (v e : Word) (m : Nat) :
    (t.enterTrap c v e m).routes = t.routes := rfl
@[simp] theorem Strand.enterTrap_routeFails (t : Strand) (c : Nat) (v e : Word) (m : Nat) :
    (t.enterTrap c v e m).routeFails = t.routeFails := rfl
@[simp] theorem Strand.enterTrap_sheaves (t : Strand) (c : Nat) (v e : Word) (m : Nat) :
    (t.enterTrap c v e m).sheaves = t.sheaves := rfl
@[simp] theorem Strand.enterTrap_loft (t : Strand) (c : Nat) (v e : Word) (m : Nat) :
    (t.enterTrap c v e m).loft = t.loft := rfl
@[simp] theorem Strand.enterTrap_inRecord (t : Strand) (c : Nat) (v e : Word) (m : Nat) :
    (t.enterTrap c v e m).inRecord = t.inRecord := rfl
@[simp] theorem Strand.enterTrap_stamps (t : Strand) (c : Nat) (v e : Word) (m : Nat) :
    (t.enterTrap c v e m).stamps = t.stamps := rfl
@[simp] theorem Strand.enterTrap_issueNo (t : Strand) (c : Nat) (v e : Word) (m : Nat) :
    (t.enterTrap c v e m).issueNo = t.issueNo := rfl
@[simp] theorem Strand.enterTrap_vec (t : Strand) (c : Nat) (v e : Word) (m : Nat) :
    (t.enterTrap c v e m).vec = t.vec := rfl
@[simp] theorem Strand.enterTrap_task (t : Strand) (c : Nat) (v e : Word) (m : Nat) :
    (t.enterTrap c v e m).task = t.task := rfl
@[simp] theorem Strand.enterTrap_time (t : Strand) (c : Nat) (v e : Word) (m : Nat) :
    (t.enterTrap c v e m).time = t.time := rfl
@[simp] theorem Strand.enterTrap_pass (t : Strand) (c : Nat) (v e : Word) (m : Nat) :
    (t.enterTrap c v e m).pass = t.pass := rfl
@[simp] theorem Strand.enterTrap_inUi (t : Strand) (c : Nat) (v e : Word) (m : Nat) :
    (t.enterTrap c v e m).inUi = t.inUi := rfl
@[simp] theorem Strand.enterTrap_shadow (t : Strand) (c : Nat) (v e : Word) (m : Nat) :
    (t.enterTrap c v e m).shadow = t.shadow := rfl
@[simp] theorem Strand.enterTrap_suspUi (t : Strand) (c : Nat) (v e : Word) (m : Nat) :
    (t.enterTrap c v e m).suspUi = t.suspUi := rfl
@[simp] theorem Strand.enterTrap_suspTrap (t : Strand) (c : Nat) (v e : Word) (m : Nat) :
    (t.enterTrap c v e m).suspTrap = !t.loops.isEmpty := rfl
@[simp] theorem Strand.enterTrap_stepped (t : Strand) (c : Nat) (v e : Word) (m : Nat) :
    (t.enterTrap c v e m).stepped = false := rfl
@[simp] theorem Strand.enterTrap_loops (t : Strand) (c : Nat) (v e : Word) (m : Nat) :
    (t.enterTrap c v e m).loops = t.loops := rfl
@[simp] theorem Strand.enterTrap_replay (t : Strand) (c : Nat) (v e : Word) (m : Nat) :
    (t.enterTrap c v e m).replay = t.replay := rfl
@[simp] theorem Strand.enterTrap_held (t : Strand) (c : Nat) (v e : Word) (m : Nat) :
    (t.enterTrap c v e m).held = t.held := rfl
@[simp] theorem Strand.enterTrap_wakeToken (t : Strand) (c : Nat) (v e : Word) (m : Nat) :
    (t.enterTrap c v e m).wakeToken = t.wakeToken := rfl
@[simp] theorem Strand.enterTrap_gslots (t : Strand) (c : Nat) (v e : Word) (m : Nat) :
    (t.enterTrap c v e m).gslots = t.gslots := rfl
@[simp] theorem Strand.enterTrap_groupRoutes (t : Strand) (c : Nat) (v e : Word) (m : Nat) :
    (t.enterTrap c v e m).groupRoutes = t.groupRoutes := rfl
@[simp] theorem Strand.enterTrap_yieldEnd (t : Strand) (c : Nat) (v e : Word) (m : Nat) :
    (t.enterTrap c v e m).yieldEnd = t.yieldEnd := rfl
@[simp] theorem Strand.enterTrap_pendTrap (t : Strand) (c : Nat) (v e : Word) (m : Nat) :
    (t.enterTrap c v e m).pendTrap = t.pendTrap := rfl
@[simp] theorem Strand.enterTrap_mid (t : Strand) (c : Nat) (v e : Word) (m : Nat) :
    (t.enterTrap c v e m).mid = false := rfl
@[simp] theorem Strand.enterTrap_midMask (t : Strand) (c : Nat) (v e : Word) (m : Nat) :
    (t.enterTrap c v e m).midMask = none := rfl
@[simp] theorem Strand.enterTrap_ending (t : Strand) (c : Nat) (v e : Word) (m : Nat) :
    (t.enterTrap c v e m).ending = t.ending := rfl
@[simp] theorem Strand.enterTrap_walked (t : Strand) (c : Nat) (v e : Word) (m : Nat) :
    (t.enterTrap c v e m).walked = none := rfl

@[simp] theorem Strand.setS_run (t : Strand) (r : SReg) (v : Word) :
    (t.setS r v).run = t.run := by unfold Strand.setS; split <;> rfl
@[simp] theorem Strand.setS_lack (t : Strand) (r : SReg) (v : Word) :
    (t.setS r v).lack = t.lack := by unfold Strand.setS; split <;> rfl
@[simp] theorem Strand.setS_wait (t : Strand) (r : SReg) (v : Word) :
    (t.setS r v).wait = t.wait := by unfold Strand.setS; split <;> rfl
@[simp] theorem Strand.setS_waitReg (t : Strand) (r : SReg) (v : Word) :
    (t.setS r v).waitReg = t.waitReg := by unfold Strand.setS; split <;> rfl
@[simp] theorem Strand.setS_waitFrom (t : Strand) (r : SReg) (v : Word) :
    (t.setS r v).waitFrom = t.waitFrom := by unfold Strand.setS; split <;> rfl
@[simp] theorem Strand.setS_limited (t : Strand) (r : SReg) (v : Word) :
    (t.setS r v).limited = t.limited := by unfold Strand.setS; split <;> rfl
@[simp] theorem Strand.setS_pc (t : Strand) (r : SReg) (v : Word) :
    (t.setS r v).pc = t.pc := by unfold Strand.setS; split <;> rfl
@[simp] theorem Strand.setS_vectors (t : Strand) (r : SReg) (v : Word) :
    (t.setS r v).vectors = t.vectors := by unfold Strand.setS; split <;> rfl
@[simp] theorem Strand.setS_masks (t : Strand) (r : SReg) (v : Word) :
    (t.setS r v).masks = t.masks := by unfold Strand.setS; split <;> rfl
@[simp] theorem Strand.setS_routes (t : Strand) (r : SReg) (v : Word) :
    (t.setS r v).routes = t.routes := by unfold Strand.setS; split <;> rfl
@[simp] theorem Strand.setS_routeFails (t : Strand) (r : SReg) (v : Word) :
    (t.setS r v).routeFails = t.routeFails := by unfold Strand.setS; split <;> rfl
@[simp] theorem Strand.setS_sheaves (t : Strand) (r : SReg) (v : Word) :
    (t.setS r v).sheaves = t.sheaves := by unfold Strand.setS; split <;> rfl
@[simp] theorem Strand.setS_loft (t : Strand) (r : SReg) (v : Word) :
    (t.setS r v).loft = t.loft := by unfold Strand.setS; split <;> rfl
@[simp] theorem Strand.setS_inRecord (t : Strand) (r : SReg) (v : Word) :
    (t.setS r v).inRecord = t.inRecord := by unfold Strand.setS; split <;> rfl
@[simp] theorem Strand.setS_stamps (t : Strand) (r : SReg) (v : Word) :
    (t.setS r v).stamps = t.stamps := by unfold Strand.setS; split <;> rfl
@[simp] theorem Strand.setS_issueNo (t : Strand) (r : SReg) (v : Word) :
    (t.setS r v).issueNo = t.issueNo := by unfold Strand.setS; split <;> rfl
@[simp] theorem Strand.setS_vec (t : Strand) (r : SReg) (v : Word) :
    (t.setS r v).vec = t.vec := by unfold Strand.setS; split <;> rfl
@[simp] theorem Strand.setS_task (t : Strand) (r : SReg) (v : Word) :
    (t.setS r v).task = t.task := by unfold Strand.setS; split <;> rfl
@[simp] theorem Strand.setS_trap (t : Strand) (r : SReg) (v : Word) :
    (t.setS r v).trap = t.trap := by unfold Strand.setS; split <;> rfl
@[simp] theorem Strand.setS_time (t : Strand) (r : SReg) (v : Word) :
    (t.setS r v).time = t.time := by unfold Strand.setS; split <;> rfl
@[simp] theorem Strand.setS_pass (t : Strand) (r : SReg) (v : Word) :
    (t.setS r v).pass = t.pass := by unfold Strand.setS; split <;> rfl
@[simp] theorem Strand.setS_inUi (t : Strand) (r : SReg) (v : Word) :
    (t.setS r v).inUi = t.inUi := by unfold Strand.setS; split <;> rfl
@[simp] theorem Strand.setS_shadow (t : Strand) (r : SReg) (v : Word) :
    (t.setS r v).shadow = t.shadow := by unfold Strand.setS; split <;> rfl
@[simp] theorem Strand.setS_suspUi (t : Strand) (r : SReg) (v : Word) :
    (t.setS r v).suspUi = t.suspUi := by unfold Strand.setS; split <;> rfl
@[simp] theorem Strand.setS_suspTrap (t : Strand) (r : SReg) (v : Word) :
    (t.setS r v).suspTrap = t.suspTrap := by unfold Strand.setS; split <;> rfl
@[simp] theorem Strand.setS_stepped (t : Strand) (r : SReg) (v : Word) :
    (t.setS r v).stepped = t.stepped := by unfold Strand.setS; split <;> rfl
@[simp] theorem Strand.setS_loops (t : Strand) (r : SReg) (v : Word) :
    (t.setS r v).loops = t.loops := by unfold Strand.setS; split <;> rfl
@[simp] theorem Strand.setS_replay (t : Strand) (r : SReg) (v : Word) :
    (t.setS r v).replay = t.replay := by unfold Strand.setS; split <;> rfl
@[simp] theorem Strand.setS_held (t : Strand) (r : SReg) (v : Word) :
    (t.setS r v).held = t.held := by unfold Strand.setS; split <;> rfl
@[simp] theorem Strand.setS_wakeToken (t : Strand) (r : SReg) (v : Word) :
    (t.setS r v).wakeToken = t.wakeToken := by unfold Strand.setS; split <;> rfl
@[simp] theorem Strand.setS_gslots (t : Strand) (r : SReg) (v : Word) :
    (t.setS r v).gslots = t.gslots := by unfold Strand.setS; split <;> rfl
@[simp] theorem Strand.setS_groupRoutes (t : Strand) (r : SReg) (v : Word) :
    (t.setS r v).groupRoutes = t.groupRoutes := by unfold Strand.setS; split <;> rfl
@[simp] theorem Strand.setS_yieldEnd (t : Strand) (r : SReg) (v : Word) :
    (t.setS r v).yieldEnd = t.yieldEnd := by unfold Strand.setS; split <;> rfl
@[simp] theorem Strand.setS_pendTrap (t : Strand) (r : SReg) (v : Word) :
    (t.setS r v).pendTrap = t.pendTrap := by unfold Strand.setS; split <;> rfl
@[simp] theorem Strand.setS_mid (t : Strand) (r : SReg) (v : Word) :
    (t.setS r v).mid = t.mid := by unfold Strand.setS; split <;> rfl
@[simp] theorem Strand.setS_midMask (t : Strand) (r : SReg) (v : Word) :
    (t.setS r v).midMask = t.midMask := by unfold Strand.setS; split <;> rfl
@[simp] theorem Strand.setS_ending (t : Strand) (r : SReg) (v : Word) :
    (t.setS r v).ending = t.ending := by unfold Strand.setS; split <;> rfl
@[simp] theorem Strand.setS_walked (t : Strand) (r : SReg) (v : Word) :
    (t.setS r v).walked = t.walked := by unfold Strand.setS; split <;> rfl

@[simp] theorem Strand.setM_run (t : Strand) (r : MReg) (v : MImage) :
    (t.setM r v).run = t.run := by unfold Strand.setM; split <;> rfl
@[simp] theorem Strand.setM_lack (t : Strand) (r : MReg) (v : MImage) :
    (t.setM r v).lack = t.lack := by unfold Strand.setM; split <;> rfl
@[simp] theorem Strand.setM_wait (t : Strand) (r : MReg) (v : MImage) :
    (t.setM r v).wait = t.wait := by unfold Strand.setM; split <;> rfl
@[simp] theorem Strand.setM_waitReg (t : Strand) (r : MReg) (v : MImage) :
    (t.setM r v).waitReg = t.waitReg := by unfold Strand.setM; split <;> rfl
@[simp] theorem Strand.setM_waitFrom (t : Strand) (r : MReg) (v : MImage) :
    (t.setM r v).waitFrom = t.waitFrom := by unfold Strand.setM; split <;> rfl
@[simp] theorem Strand.setM_limited (t : Strand) (r : MReg) (v : MImage) :
    (t.setM r v).limited = t.limited := by unfold Strand.setM; split <;> rfl
@[simp] theorem Strand.setM_pc (t : Strand) (r : MReg) (v : MImage) :
    (t.setM r v).pc = t.pc := by unfold Strand.setM; split <;> rfl
@[simp] theorem Strand.setM_scalars (t : Strand) (r : MReg) (v : MImage) :
    (t.setM r v).scalars = t.scalars := by unfold Strand.setM; split <;> rfl
@[simp] theorem Strand.setM_vectors (t : Strand) (r : MReg) (v : MImage) :
    (t.setM r v).vectors = t.vectors := by unfold Strand.setM; split <;> rfl
@[simp] theorem Strand.setM_routes (t : Strand) (r : MReg) (v : MImage) :
    (t.setM r v).routes = t.routes := by unfold Strand.setM; split <;> rfl
@[simp] theorem Strand.setM_routeFails (t : Strand) (r : MReg) (v : MImage) :
    (t.setM r v).routeFails = t.routeFails := by unfold Strand.setM; split <;> rfl
@[simp] theorem Strand.setM_sheaves (t : Strand) (r : MReg) (v : MImage) :
    (t.setM r v).sheaves = t.sheaves := by unfold Strand.setM; split <;> rfl
@[simp] theorem Strand.setM_loft (t : Strand) (r : MReg) (v : MImage) :
    (t.setM r v).loft = t.loft := by unfold Strand.setM; split <;> rfl
@[simp] theorem Strand.setM_inRecord (t : Strand) (r : MReg) (v : MImage) :
    (t.setM r v).inRecord = t.inRecord := by unfold Strand.setM; split <;> rfl
@[simp] theorem Strand.setM_stamps (t : Strand) (r : MReg) (v : MImage) :
    (t.setM r v).stamps = t.stamps := by unfold Strand.setM; split <;> rfl
@[simp] theorem Strand.setM_issueNo (t : Strand) (r : MReg) (v : MImage) :
    (t.setM r v).issueNo = t.issueNo := by unfold Strand.setM; split <;> rfl
@[simp] theorem Strand.setM_vec (t : Strand) (r : MReg) (v : MImage) :
    (t.setM r v).vec = t.vec := by unfold Strand.setM; split <;> rfl
@[simp] theorem Strand.setM_task (t : Strand) (r : MReg) (v : MImage) :
    (t.setM r v).task = t.task := by unfold Strand.setM; split <;> rfl
@[simp] theorem Strand.setM_trap (t : Strand) (r : MReg) (v : MImage) :
    (t.setM r v).trap = t.trap := by unfold Strand.setM; split <;> rfl
@[simp] theorem Strand.setM_time (t : Strand) (r : MReg) (v : MImage) :
    (t.setM r v).time = t.time := by unfold Strand.setM; split <;> rfl
@[simp] theorem Strand.setM_pass (t : Strand) (r : MReg) (v : MImage) :
    (t.setM r v).pass = t.pass := by unfold Strand.setM; split <;> rfl
@[simp] theorem Strand.setM_inUi (t : Strand) (r : MReg) (v : MImage) :
    (t.setM r v).inUi = t.inUi := by unfold Strand.setM; split <;> rfl
@[simp] theorem Strand.setM_shadow (t : Strand) (r : MReg) (v : MImage) :
    (t.setM r v).shadow = t.shadow := by unfold Strand.setM; split <;> rfl
@[simp] theorem Strand.setM_suspUi (t : Strand) (r : MReg) (v : MImage) :
    (t.setM r v).suspUi = t.suspUi := by unfold Strand.setM; split <;> rfl
@[simp] theorem Strand.setM_suspTrap (t : Strand) (r : MReg) (v : MImage) :
    (t.setM r v).suspTrap = t.suspTrap := by unfold Strand.setM; split <;> rfl
@[simp] theorem Strand.setM_stepped (t : Strand) (r : MReg) (v : MImage) :
    (t.setM r v).stepped = t.stepped := by unfold Strand.setM; split <;> rfl
@[simp] theorem Strand.setM_loops (t : Strand) (r : MReg) (v : MImage) :
    (t.setM r v).loops = t.loops := by unfold Strand.setM; split <;> rfl
@[simp] theorem Strand.setM_replay (t : Strand) (r : MReg) (v : MImage) :
    (t.setM r v).replay = t.replay := by unfold Strand.setM; split <;> rfl
@[simp] theorem Strand.setM_held (t : Strand) (r : MReg) (v : MImage) :
    (t.setM r v).held = t.held := by unfold Strand.setM; split <;> rfl
@[simp] theorem Strand.setM_wakeToken (t : Strand) (r : MReg) (v : MImage) :
    (t.setM r v).wakeToken = t.wakeToken := by unfold Strand.setM; split <;> rfl
@[simp] theorem Strand.setM_gslots (t : Strand) (r : MReg) (v : MImage) :
    (t.setM r v).gslots = t.gslots := by unfold Strand.setM; split <;> rfl
@[simp] theorem Strand.setM_groupRoutes (t : Strand) (r : MReg) (v : MImage) :
    (t.setM r v).groupRoutes = t.groupRoutes := by unfold Strand.setM; split <;> rfl
@[simp] theorem Strand.setM_yieldEnd (t : Strand) (r : MReg) (v : MImage) :
    (t.setM r v).yieldEnd = t.yieldEnd := by unfold Strand.setM; split <;> rfl
@[simp] theorem Strand.setM_pendTrap (t : Strand) (r : MReg) (v : MImage) :
    (t.setM r v).pendTrap = t.pendTrap := by unfold Strand.setM; split <;> rfl
@[simp] theorem Strand.setM_mid (t : Strand) (r : MReg) (v : MImage) :
    (t.setM r v).mid = t.mid := by unfold Strand.setM; split <;> rfl
@[simp] theorem Strand.setM_midMask (t : Strand) (r : MReg) (v : MImage) :
    (t.setM r v).midMask = t.midMask := by unfold Strand.setM; split <;> rfl
@[simp] theorem Strand.setM_ending (t : Strand) (r : MReg) (v : MImage) :
    (t.setM r v).ending = t.ending := by unfold Strand.setM; split <;> rfl
@[simp] theorem Strand.setM_walked (t : Strand) (r : MReg) (v : MImage) :
    (t.setM r v).walked = t.walked := by unfold Strand.setM; split <;> rfl

/-! ### The maps of cores, dies and strands -/

@[simp] theorem State.core_setCore_same (s : State) (c : Nat) (x : Core) : (s.setCore c x).core c = x := by
  simp [State.core]

theorem State.core_setCore_other (s : State) {c e : Nat} (x : Core) (h : e ≠ c) : (s.setCore c x).core e = s.core e := by
  simp [State.core, mgetD_mset_other _ _ _ h]

@[simp] theorem State.die_setDie_same (s : State) (d : Nat) (x : Die) : (s.setDie d x).die d = x := by
  simp [State.die]

theorem State.die_setDie_other (s : State) {d e : Nat} (x : Die) (h : e ≠ d) : (s.setDie d x).die e = s.die e := by
  simp [State.die, mgetD_mset_other _ _ _ h]

@[simp] theorem State.die_setStrand (s : State) (p : Place) (t : Strand) (d : Nat) : (s.setStrand p t).die d = s.die d := rfl

@[simp] theorem Core.strand_setStrand_same (x : Core) (k : Nat) (t : Strand) : (x.setStrand k t).strand k = t := by
  simp [Core.strand]

theorem Core.strand_setStrand_other (x : Core) {k j : Nat} (t : Strand) (h : j ≠ k) :
    (x.setStrand k t).strand j = x.strand j := by
  simp [Core.strand, mgetD_mset_other _ _ _ h]

@[simp] theorem State.core_setStrand_same (s : State) (p : Place) (t : Strand) :
    (s.setStrand p t).core p.core = (s.core p.core).setStrand p.strand t := by
  simp [State.setStrand]

theorem State.core_setStrand_other (s : State) (p : Place) (t : Strand) {c : Nat} (h : c ≠ p.core) :
    (s.setStrand p t).core c = s.core c := by
  simp [State.setStrand, State.core_setCore_other s _ h]

@[simp] theorem State.strand_setStrand_same (s : State) (p : Place) (t : Strand) : (s.setStrand p t).strand p = t := by
  simp [State.strand]

theorem State.strand_setStrand_other (s : State) {p q : Place} (t : Strand) (h : q ≠ p) :
    (s.setStrand p t).strand q = s.strand q := by
  unfold State.strand
  by_cases hc : q.core = p.core
  · have hk : q.strand ≠ p.strand := fun hk => h (by cases p; cases q; simp_all)
    rw [hc, State.core_setStrand_same, Core.strand_setStrand_other _ _ hk]
  · rw [State.core_setStrand_other s p t hc]

/-! ### Scalar, mask and vector registers -/

@[simp] theorem Strand.s_zero (t : Strand) : t.s 0 = 0 := rfl

@[simp] theorem Strand.setS_zero (t : Strand) (v : Word) : t.setS 0 v = t := rfl

theorem scalarKey_inj (b : Bool) {r q : SReg} (h : scalarKey b r = scalarKey b q) : r = q := by
  have := r.isLt; have := q.isLt
  apply Fin.ext
  unfold scalarKey at h
  split at h <;> split at h <;> simp_all <;> omega

theorem Strand.s_setS_same (t : Strand) {r : SReg} (v : Word) (h : r ≠ 0) : (t.setS r v).s r = v := by
  unfold Strand.s Strand.setS; simp [h]

theorem Strand.s_setS_other (t : Strand) {r q : SReg} (v : Word) (h : q ≠ r) : (t.setS r v).s q = t.s q := by
  unfold Strand.s Strand.setS
  split
  · rfl
  · split
    · rfl
    · exact mgetD_mset_other _ _ _ fun e => h (scalarKey_inj _ e)

@[simp] theorem Strand.m_zero (t : Strand) : t.m 0 = BitVec.allOnes 512 := rfl

theorem Strand.m_setM_same (t : Strand) {r : MReg} (v : MImage) (h : r ≠ 0) : (t.setM r v).m r = v := by
  unfold Strand.m Strand.setM; simp [h]

theorem Strand.m_setM_other (t : Strand) {r q : MReg} (v : MImage) (h : q ≠ r) : (t.setM r v).m q = t.m q := by
  unfold Strand.m Strand.setM
  split
  · rfl
  · split
    · rfl
    · exact mgetD_mset_other _ _ _ fun e => h (Fin.ext e)

@[simp] theorem Strand.v_setV_same (t : Strand) (r : VReg) (v : VImage) : (t.setV r v).v r = v := by
  simp [Strand.v]

theorem Strand.v_setV_other (t : Strand) {r q : VReg} (v : VImage) (h : q ≠ r) : (t.setV r v).v q = t.v q := by
  unfold Strand.v Strand.setV
  exact mgetD_mset_other _ _ _ fun e => h (Fin.ext e)

end Sys2Proof.Machine
end

