-- ==== Sys2Proof/Laws/Memory.lean ====
section
/-! SUPPORT. Laws of memory: every operation on it keeps the canonical form, and a byte reads as it was last written. -/

set_option Elab.async false

namespace Sys2Proof.Machine

theorem Memory.wf_nil : Memory.wf [] = true := rfl

theorem Memory.wf_mput {m : List Host.Cell} (a : Nat) (b : Byte) (h : Memory.wf m = true) :
    Memory.wf (mput 0 m a b) = true := by
  simp only [Memory.wf, Bool.and_eq_true] at h ⊢
  unfold mput
  split
  · exact ⟨msorted_mdel a h.1, by rw [mdel_eq_mfilter]; exact all_mfilter _ _ h.2⟩
  · exact ⟨msorted_mset a b h.1, all_mset _ a b h.2 (by simpa using ‹¬ b = 0›)⟩

theorem Memory.wf_mfilter {m : List Host.Cell} (p : Nat → Byte → Bool) (h : Memory.wf m = true) :
    Memory.wf (mfilter p m) = true := by
  simp only [Memory.wf, Bool.and_eq_true] at h ⊢
  exact ⟨msorted_mfilter p h.1, all_mfilter _ p h.2⟩

theorem Memory.wf_mdelRange {m : List Host.Cell} (a n : Nat) (h : Memory.wf m = true) :
    Memory.wf (mdelRange m a n) = true := Memory.wf_mfilter _ h

theorem Memory.wf_writeBytes {m : List Host.Cell} (a : Nat) (b : List Byte) (h : Memory.wf m = true) :
    Memory.wf (writeBytes m a b) = true := by
  induction b generalizing m a with
  | nil => exact h
  | cons x r ih => exact ih (a + 1) (Memory.wf_mput a x h)

theorem Memory.wf_foldl_mput {m : List Host.Cell} (l : List (Nat × Byte)) (h : Memory.wf m = true) :
    Memory.wf (l.foldl (fun (m : SMap Byte) (e : Nat × Byte) => mput 0 m e.1 e.2) m) = true := by
  induction l generalizing m with
  | nil => exact h
  | cons e r ih => exact ih (Memory.wf_mput e.1 e.2 h)

/-- What a byte reads as after a write of consecutive bytes. -/
theorem mgetD_writeBytes (m : SMap Byte) (a j : Nat) (b : List Byte) :
    mgetD (writeBytes m a b) j 0 = if a ≤ j ∧ j < a + b.length then b.getD (j - a) 0 else mgetD m j 0 := by
  induction b generalizing m a with
  | nil => simp [writeBytes]
  | cons x r ih =>
    rw [writeBytes, ih, mgetD_mput]
    by_cases h : j = a
    · subst h; simp
    · by_cases h1 : a + 1 ≤ j ∧ j < a + 1 + r.length
      · have h2 : a ≤ j ∧ j < a + (x :: r).length := by simp; omega
        have h3 : j - a = (j - (a + 1)) + 1 := by omega
        rw [if_pos h1, if_pos h2, h3]; simp
      · have h2 : ¬ (a ≤ j ∧ j < a + (x :: r).length) := by simp; omega
        simp only [h1, h2, if_false, h]

theorem State.granaryByte_mem (s : State) (d c a : Nat) (b : Byte) : (s.granaryByte d c a b).mem = s.mem := rfl

theorem Memory.wf_retagLine {s : State} (l g : Nat) (h : Memory.wf s.mem = true) :
    Memory.wf (s.retagLine l g).mem = true := by
  unfold State.retagLine
  split
  · exact h
  · exact Memory.wf_mdelRange _ _ h

theorem Memory.wf_rekeyLine {s : State} (l : Nat) (k : Key) (h : Memory.wf s.mem = true) :
    Memory.wf (s.rekeyLine l k).mem = true := by
  simp only [State.rekeyLine]
  split
  · exact h
  · split
    · exact h
    · exact Memory.wf_writeBytes _ _ h

theorem Memory.wf_freshenLine {s : State} (l : Nat) (k : Key) (g : Nat) (h : Memory.wf s.mem = true) :
    Memory.wf (s.freshenLine l k g).mem = true := Memory.wf_rekeyLine l k (Memory.wf_retagLine l g h)

theorem Memory.wf_physWrite {s : State} (d c : Nat) (k : Key) (g a : Nat) (b : List Byte) (h : Memory.wf s.mem = true) :
    Memory.wf (s.physWrite d c k g a b).mem = true := by
  induction b generalizing s a with
  | nil => exact h
  | cons x r ih =>
    simp only [State.physWrite]
    apply ih
    rw [State.granaryByte_mem]
    split
    · exact h
    · exact Memory.wf_freshenLine _ _ _ h

theorem Memory.wf_writeBack {s : State} (d l : Nat) (h : Memory.wf s.mem = true) :
    Memory.wf (s.writeBack d l).mem = true := by
  simp only [State.writeBack, State.setDie_mem]
  exact Memory.wf_foldl_mput _ h

theorem Memory.wf_foldl {α : Type} (f : State → α → State)
    (hf : ∀ s a, Memory.wf s.mem = true → Memory.wf (f s a).mem = true) (l : List α) {s : State}
    (h : Memory.wf s.mem = true) : Memory.wf (l.foldl f s).mem = true := by
  induction l generalizing s with
  | nil => exact h
  | cons a r ih => exact ih (hf s a h)

theorem Memory.wf_recall {s : State} (l : Nat) (h : Memory.wf s.mem = true) : Memory.wf (s.recall l).mem = true :=
  Memory.wf_foldl _ (fun _ _ h => Memory.wf_writeBack _ _ h) _ h

theorem Memory.wf_rawWrite {s : State} (a : Nat) (b : List Byte) (h : Memory.wf s.mem = true) :
    Memory.wf (s.rawWrite a b).mem = true :=
  Memory.wf_writeBytes _ _ (Memory.wf_foldl _ (fun _ _ h => Memory.wf_recall _ h) _ h)

theorem Memory.wf_drainOne {s : State} (c : Nat) (h : Memory.wf s.mem = true) :
    Memory.wf (s.drainOne c).mem = true := by
  simp only [State.drainOne]
  split
  · exact h
  · exact Memory.wf_physWrite _ _ _ _ _ _ h

end Sys2Proof.Machine
end

