-- ==== Sys2Proof/Laws/Ops.lean ====
section
/-!
SUPPORT. What each shared operation can do, said once: the frame of a meaning, the checks of privilege, lanes and loop
bodies, completing and waiting, and taking a trap.
-/

set_option Elab.async false

namespace Sys2Proof.Machine

/-! ### The frame of a meaning -/

theorem onStrand_bound {s : State} (f : Place → Strand → State) (h : (s.strand s.cur.place).run ≠ .unbound) :
    onStrand s f = .next (f s.cur.place (s.strand s.cur.place)) := if_neg h

theorem onStrand_unbound {s : State} (f : Place → Strand → State) (h : (s.strand s.cur.place).run = .unbound) :
    onStrand s f = .fault .unboundStrand := if_pos h

/-- A meaning that answers a next state acted for a bound strand, and that state is what it computed. -/
theorem onStrand_next {s t : State} {f : Place → Strand → State} (h : onStrand s f = .next t) :
    (s.strand s.cur.place).run ≠ .unbound ∧ t = f s.cur.place (s.strand s.cur.place) := by
  unfold onStrand at h
  split at h
  · cases h
  · exact ⟨‹_›, (Host.Outcome.next.inj h).symm⟩

/-- The only fault of a meaning of a strand is that the strand is not bound; it never refuses. -/
theorem onStrand_cases (s : State) (f : Place → Strand → State) :
    (∃ t, onStrand s f = .next t) ∨ onStrand s f = .fault .unboundStrand := by
  unfold onStrand; split
  · exact .inr rfl
  · exact .inl ⟨_, rfl⟩

theorem needSup_sup {s : State} (i : Instr) (f : Place → Strand → State) (h : (s.strand s.cur.place).run ≠ .unbound)
    (hp : (s.strand s.cur.place).trap.priv = true) : needSup s i f = .next (f s.cur.place (s.strand s.cur.place)) := by
  rw [needSup, onStrand_bound _ h, if_pos hp]

theorem needSup_user {s : State} (i : Instr) (f : Place → Strand → State) (h : (s.strand s.cur.place).run ≠ .unbound)
    (hp : (s.strand s.cur.place).trap.priv = false) :
    needSup s i f = .next (s.raise s.cur.place 0x02 (wordOf i)) := by
  rw [needSup, onStrand_bound _ h, if_neg (by simp [hp])]

theorem needManager_ok {s : State} (i : Instr) (f : Place → Strand → State) (h : (s.strand s.cur.place).run ≠ .unbound)
    (hp : (s.strand s.cur.place).trap.priv = true) (hm : isManager s.cur.place.core = true) :
    needManager s i f = .next (f s.cur.place (s.strand s.cur.place)) := by
  rw [needManager, onStrand_bound _ h, if_pos (by simp [hp, hm])]

theorem needManager_other {s : State} (i : Instr) (f : Place → Strand → State)
    (h : (s.strand s.cur.place).run ≠ .unbound)
    (hp : (s.strand s.cur.place).trap.priv = false ∨ isManager s.cur.place.core = false) :
    needManager s i f = .next (s.raise s.cur.place 0x02 (wordOf i)) := by
  rw [needManager, onStrand_bound _ h, if_neg (by rcases hp with hp | hp <;> simp [hp])]

theorem needLanes_vector {s : State} (i : Instr) (f : Place → Strand → State)
    (h : (s.strand s.cur.place).run ≠ .unbound) (hv : s.isVector s.cur.place = true) :
    needLanes s i f = .next (f s.cur.place (s.strand s.cur.place)) := by
  rw [needLanes, onStrand_bound _ h, if_pos hv]

theorem needLanes_scalar {s : State} (i : Instr) (f : Place → Strand → State)
    (h : (s.strand s.cur.place).run ≠ .unbound) (hv : s.isVector s.cur.place = false) :
    needLanes s i f = .next (s.raise s.cur.place 0x17 (wordOf i)) := by
  rw [needLanes, onStrand_bound _ h, if_neg (by simp [hv])]

theorem outsideBody_outside (s : State) (i : Instr) (p : Place) {t : Strand} (f : State) (h : t.inBody = false) :
    outsideBody s i p t f = f := by simp [outsideBody, h]

theorem outsideBody_inside (s : State) (i : Instr) (p : Place) {t : Strand} (f : State) (h : t.inBody = true) :
    outsideBody s i p t f = s.raise p 0x18 (wordOf i) := by simp [outsideBody, h]

/-! ### Completing and waiting -/

@[simp] theorem State.complete_strand (s : State) (p : Place) (t : Strand) : (s.complete p t).strand p = t.complete := by
  simp [State.complete]

theorem State.complete_strand_other (s : State) {p q : Place} (t : Strand) (h : q ≠ p) :
    (s.complete p t).strand q = s.strand q := State.strand_setStrand_other s _ h

@[simp] theorem State.complete_mem (s : State) (p : Place) (t : Strand) : (s.complete p t).mem = s.mem := rfl

/-- Completing changes no register but the PC, the nest and INSTRET. -/
theorem Strand.complete_registers (t : Strand) :
    (∀ r, t.complete.s r = t.s r) ∧ (∀ r, t.complete.m r = t.m r) ∧ (∀ r, t.complete.v r = t.v r) ∧
    (∀ r, t.complete.w r = t.w r) ∧ t.complete.vec = t.vec ∧ t.complete.task = t.task ∧ t.complete.trap = t.trap ∧
    t.complete.run = t.run ∧ t.complete.wait = t.wait ∧ t.complete.held = t.held :=
  ⟨fun _ => rfl, fun _ => rfl, fun _ => rfl, fun _ => rfl, rfl, rfl, rfl, rfl, rfl, rfl⟩

/-- Outside every loop body's end the PC moves to the next word. -/
theorem Strand.complete_pc (t : Strand) (h : t.suspended = true ∨ t.loops = []) : t.complete.pc = t.pc + 4 := by
  unfold Strand.complete
  rcases h with h | h
  · simp [h]
  · by_cases hs : t.suspended = true <;> simp [hs, h, stepNest]

@[simp] theorem State.stall_strand (s : State) (p : Place) (l : Lack) : (s.stall p l).strand p = (s.strand p).stall l := by
  simp [State.stall, State.modStrand]

theorem State.stall_strand_other (s : State) {p q : Place} (l : Lack) (h : q ≠ p) :
    (s.stall p l).strand q = s.strand q := State.strand_setStrand_other s _ h

@[simp] theorem State.stall_mem (s : State) (p : Place) (l : Lack) : (s.stall p l).mem = s.mem := rfl

/-- A wait that ends: READY, complete, and one scalar register at most changed. -/
theorem Strand.finish_registers (t : Strand) (v : Word) :
    (t.finish v).run = .ready ∧ (∀ r, r ≠ t.waitReg → (t.finish v).s r = t.s r) ∧
    (t.waitReg ≠ 0 → (t.finish v).s t.waitReg = v) := by
  have hs : ∀ r, (t.finish v).s r = ((t.wake).setS t.waitReg v).s r := fun _ => rfl
  refine ⟨?_, fun r h => ?_, fun h => ?_⟩
  · show ((t.wake).setS t.waitReg v).run = .ready
    unfold Strand.setS; split <;> rfl
  · rw [hs, Strand.s_setS_other _ _ h]; rfl
  · rw [hs, Strand.s_setS_same _ _ h]

/-! ### Taking a trap -/

/-- A trap that is delivered changes the strand alone (R74). -/
theorem State.raise_delivered {s : State} (p : Place) (cause : Nat) (tval : Word) (he : (s.strand p).ending = false)
    (hp : (s.strand p).trap.priv = false) (hv : (s.strand p).trap.tvec ≠ 0) :
    s.raise p cause tval =
      s.setStrand p ((s.strand p).enterTrap cause tval (s.trapPc p (s.strand p)) (s.trapMember p)) := by
  unfold State.raise; simp [he, hp]; exact fun h => absurd h hv

/-- A trap that is not delivered faults the kernel that the core runs (R75). -/
theorem State.raise_kernel {s : State} (p : Place) (cause : Nat) (tval : Word) {k : Nat} (he : (s.strand p).ending = false)
    (h : (s.strand p).trap.priv = true ∨ (s.strand p).trap.tvec = 0) (hk : (s.core p.core).kern = some k) :
    s.raise p cause tval = (s.setStrand p { s.strand p with mid := false }).faultKernel k p cause tval := by
  unfold State.raise; rcases h with h | h <;> simp [he, h, hk]

/-- A trap of a strand whose kernel has ended: it is UNBOUND at this boundary (R328). -/
theorem State.raise_ending {s : State} (p : Place) (cause : Nat) (tval : Word) (he : (s.strand p).ending = true) :
    s.raise p cause tval = s.modCore p.core fun x => x.unbind p.strand := by
  unfold State.raise; simp [he]

@[simp] theorem State.faultKernel_mem (s : State) (k : Nat) (p : Place) (cause : Nat) (tval : Word) :
    (s.faultKernel k p cause tval).mem = s.mem := by
  unfold State.faultKernel; split
  · rfl
  · split <;> rfl

/-- No trap writes memory. -/
@[simp] theorem State.raise_mem (s : State) (p : Place) (cause : Nat) (tval : Word) :
    (s.raise p cause tval).mem = s.mem := by
  unfold State.raise; simp only []
  split
  · rfl
  · split
    · split
      · exact State.faultKernel_mem ..
      · rfl
    · rfl

/-- What trap entry leaves of a strand's registers: all but the trap registers, the PC and the nest's suspension. -/
theorem Strand.enterTrap_registers (t : Strand) (cause : Nat) (tval epc : Word) (member : Nat) :
    (∀ r, (t.enterTrap cause tval epc member).s r = t.s r) ∧ (∀ r, (t.enterTrap cause tval epc member).m r = t.m r) ∧
    (∀ r, (t.enterTrap cause tval epc member).v r = t.v r) ∧ (∀ r, (t.enterTrap cause tval epc member).w r = t.w r) ∧
    (t.enterTrap cause tval epc member).vec = t.vec ∧ (t.enterTrap cause tval epc member).task = t.task ∧
    (t.enterTrap cause tval epc member).pc = t.trap.tvec ∧ (t.enterTrap cause tval epc member).run = .ready :=
  ⟨fun _ => rfl, fun _ => rfl, fun _ => rfl, fun _ => rfl, rfl, rfl, rfl, rfl⟩

/-! ### Interrupt bits and events -/

@[simp] theorem State.acquireEffect_mem (s : State) (p : Place) (scope : Nat) : (s.acquireEffect p scope).mem = s.mem := by
  unfold State.acquireEffect; split <;> rfl

@[simp] theorem State.stir_mem (s : State) (p : Place) : (s.stir p).mem = s.mem := by
  unfold State.stir; simp only []; split
  · rw [State.acquireEffect_mem]; rfl
  · rfl

@[simp] theorem State.setUip_mem (s : State) (p : Place) (b : BitVec 7) : (s.setUip p b).mem = s.mem := by
  unfold State.setUip; simp only []; split
  · rfl
  · rw [State.stir_mem]; rfl

end Sys2Proof.Machine
end

