-- ==== Sys2Proof/Laws/SaveArea.lean ====
section
/-! SUPPORT. Laws of the save area: bytes written in one piece keep memory's canonical form and read as they were written. -/

set_option Elab.async false

namespace Sys2Proof.Machine

variable {β : Type}

theorem msortedFrom_append {lo mid : Nat} {m r : SMap β} (hm : msortedFrom lo m = true) (hlt : ∀ e ∈ m, e.1 < mid)
    (hlo : lo ≤ mid) (hr : msortedFrom mid r = true) : msortedFrom lo (m ++ r) = true := by
  induction m generalizing lo with
  | nil => exact msortedFrom_le hlo hr
  | cons e t ih =>
    obtain ⟨a, w⟩ := e
    simp only [msortedFrom, Bool.and_eq_true, decide_eq_true_eq, List.cons_append] at hm ⊢
    exact ⟨hm.1, ih hm.2 (fun e h => hlt e (List.mem_cons_of_mem _ h)) (hlt (a, w) (List.mem_cons_self ..))⟩

theorem msortedFrom_raise {lo mid : Nat} {m : SMap β} (h : msortedFrom lo m = true) (hge : ∀ e ∈ m, mid ≤ e.1) :
    msortedFrom mid m = true := by
  cases m with
  | nil => rfl
  | cons e t =>
    obtain ⟨a, w⟩ := e
    simp only [msortedFrom, Bool.and_eq_true, decide_eq_true_eq] at h ⊢
    exact ⟨hge (a, w) (List.mem_cons_self ..), h.2⟩

theorem cellsFrom_bounds {a : Nat} {b : List Byte} {e : Host.Cell} (h : e ∈ cellsFrom a b) :
    a ≤ e.1 ∧ e.1 < a + b.length ∧ e.2 ≠ 0 := by
  induction b generalizing a with
  | nil => simp [cellsFrom] at h
  | cons x r ih =>
    simp only [cellsFrom] at h
    split at h
    · have ⟨h1, h2, h3⟩ := ih h
      exact ⟨by omega, by simp only [List.length_cons]; omega, h3⟩
    · rcases List.mem_cons.1 h with rfl | h
      · exact ⟨Nat.le_refl _, by simp, ‹_›⟩
      · have ⟨h1, h2, h3⟩ := ih h
        exact ⟨by omega, by simp only [List.length_cons]; omega, h3⟩

theorem msortedFrom_cellsFrom (a : Nat) (b : List Byte) : msortedFrom a (cellsFrom a b) = true := by
  induction b generalizing a with
  | nil => rfl
  | cons x r ih =>
    simp only [cellsFrom]
    split
    · exact msortedFrom_le (Nat.le_succ a) (ih (a + 1))
    · simp [msortedFrom, ih]

/-- Bytes written in one piece keep the canonical form. -/
theorem Memory.wf_blit {m : List Host.Cell} (a : Nat) (b : List Byte) (h : Memory.wf m = true) :
    Memory.wf (blit m a b) = true := by
  have lowWf := Memory.wf_mfilter (fun k _ => decide (k < a)) h
  have highWf := Memory.wf_mfilter (fun k _ => decide (a + b.length ≤ k)) h
  simp only [Memory.wf, Bool.and_eq_true] at lowWf highWf ⊢
  refine ⟨?_, ?_⟩
  · refine msortedFrom_append lowWf.1 (mid := a) ?_ (Nat.zero_le a) (msortedFrom_append (msortedFrom_cellsFrom a b)
      (mid := a + b.length) (fun e h => (cellsFrom_bounds h).2.1) (Nat.le_add_right ..) (msortedFrom_raise highWf.1 ?_))
    · intro e h; simpa using (List.mem_filter.1 h).2
    · intro e h; simpa using (List.mem_filter.1 h).2
  · simp only [blit, List.all_append, Bool.and_eq_true]
    refine ⟨lowWf.2, ?_, highWf.2⟩
    simp only [List.all_eq_true]
    intro e h
    simpa using (cellsFrom_bounds h).2.2

theorem mget_append_none {m r : SMap β} {k : Nat} (h : ∀ e ∈ m, e.1 ≠ k) : mget (m ++ r) k = mget r k := by
  induction m with
  | nil => rfl
  | cons e t ih =>
    obtain ⟨a, w⟩ := e
    have ha : a ≠ k := h (a, w) (List.mem_cons_self ..)
    simp only [List.cons_append, mget, ha, if_false]
    exact ih fun e he => h e (List.mem_cons_of_mem _ he)

theorem mget_append_left {m r : SMap β} {k : Nat} (h : ∀ e ∈ r, e.1 ≠ k) : mget (m ++ r) k = mget m k := by
  induction m with
  | nil =>
    have := mget_append_none (r := []) h
    simpa using this
  | cons e t ih =>
    obtain ⟨a, w⟩ := e
    simp only [List.cons_append, mget]
    split <;> first | rfl | exact ih

theorem mget_mfilter_key {m : SMap β} (p : Nat → Bool) {k : Nat} (h : p k = true) :
    mget (mfilter (fun a _ => p a) m) k = mget m k := by
  induction m with
  | nil => rfl
  | cons e t ih =>
    obtain ⟨a, w⟩ := e
    simp only [mfilter, List.filter] at ih ⊢
    by_cases ha : a = k
    · subst ha; simp [h, mget]
    · split
      · simp only [mget, ha, if_false]; exact ih
      · simp only [mget, ha, if_false]; exact ih

theorem mgetD_cellsFrom (a j : Nat) (b : List Byte) :
    mgetD (cellsFrom a b) j 0 = if a ≤ j ∧ j < a + b.length then b.getD (j - a) 0 else 0 := by
  induction b generalizing a with
  | nil => simp [cellsFrom]
  | cons x r ih =>
    have out : ∀ k, k < a + 1 → mget (cellsFrom (a + 1) r) k = none := by
      intro k hk
      have := mget_append_none (m := cellsFrom (a + 1) r) (r := []) (k := k)
        (fun e he => by have := (cellsFrom_bounds he).1; omega)
      simpa using this
    simp only [cellsFrom]
    by_cases hj : j = a
    · subst hj
      split
      · simp [mgetD, out j (by omega), *]
      · simp [mgetD, mget]
    · have step : mgetD (if x = 0 then cellsFrom (a + 1) r else (a, x) :: cellsFrom (a + 1) r) j 0 =
          mgetD (cellsFrom (a + 1) r) j 0 := by
        split
        · rfl
        · simp [mgetD, mget, Ne.symm hj]
      rw [step, ih]
      by_cases h1 : a + 1 ≤ j ∧ j < a + 1 + r.length
      · have h2 : a ≤ j ∧ j < a + (x :: r).length := by simp; omega
        have h3 : j - a = (j - (a + 1)) + 1 := by omega
        rw [if_pos h1, if_pos h2, h3]; simp
      · have h2 : ¬ (a ≤ j ∧ j < a + (x :: r).length) := by simp; omega
        rw [if_neg h1, if_neg h2]

/-- What a byte reads as after bytes are written in one piece: as after writing them one at a time. -/
theorem mgetD_blit (m : List Host.Cell) (a j : Nat) (b : List Byte) :
    mgetD (blit m a b) j 0 = if a ≤ j ∧ j < a + b.length then b.getD (j - a) 0 else mgetD m j 0 := by
  unfold blit
  by_cases low : j < a
  · have h : mget (cellsFrom a b ++ mfilter (fun k _ => decide (a + b.length ≤ k)) m) j = none := by
      have := mget_append_none (m := cellsFrom a b ++ mfilter (fun k _ => decide (a + b.length ≤ k)) m) (r := [])
        (k := j) (fun e he => by
          rcases List.mem_append.1 he with he | he
          · have := (cellsFrom_bounds he).1; omega
          · have : a + b.length ≤ e.1 := by simpa using (List.mem_filter.1 he).2
            omega)
      simpa using this
    have h2 : ¬ (a ≤ j ∧ j < a + b.length) := by omega
    rw [if_neg h2]
    have := mget_append_left (m := mfilter (fun k _ => decide (k < a)) m) (k := j)
      (r := cellsFrom a b ++ mfilter (fun k _ => decide (a + b.length ≤ k)) m) (fun e he => by
          rcases List.mem_append.1 he with he | he
          · have := (cellsFrom_bounds he).1; omega
          · have : a + b.length ≤ e.1 := by simpa using (List.mem_filter.1 he).2
            omega)
    simp only [mgetD, this, mget_mfilter_key (fun k => decide (k < a)) (by simpa using low)]
  · have first := mget_append_none (m := mfilter (fun k _ => decide (k < a)) m) (k := j)
      (r := cellsFrom a b ++ mfilter (fun k _ => decide (a + b.length ≤ k)) m) (fun e he => by
          have : e.1 < a := by simpa using (List.mem_filter.1 he).2
          omega)
    by_cases high : a + b.length ≤ j
    · have second := mget_append_none (m := cellsFrom a b) (k := j)
        (r := mfilter (fun k _ => decide (a + b.length ≤ k)) m)
        (fun e he => by have := (cellsFrom_bounds he).2.1; omega)
      have h2 : ¬ (a ≤ j ∧ j < a + b.length) := by omega
      rw [if_neg h2]
      simp only [mgetD, first, second, mget_mfilter_key (fun k => decide (a + b.length ≤ k)) (by simpa using high)]
    · have second := mget_append_left (m := cellsFrom a b) (k := j)
        (r := mfilter (fun k _ => decide (a + b.length ≤ k)) m) (fun e he => by
          have : a + b.length ≤ e.1 := by simpa using (List.mem_filter.1 he).2
          omega)
      have h2 : a ≤ j ∧ j < a + b.length := by omega
      have := mgetD_cellsFrom a j b
      simp only [mgetD] at this ⊢
      rw [first, second, this, if_pos h2, if_pos h2]

/-- The save area's writing keeps memory's canonical form. -/
theorem Memory.wf_writeUnder {s : State} (key : Key) (a : Nat) (b : List Byte) (h : Memory.wf s.mem = true) :
    Memory.wf (s.writeUnder key a b).mem = true := Memory.wf_blit a b h

end Sys2Proof.Machine
end

