-- ==== Sys2Proof/Tests/Slice0.lean ====
section
/-!
SUPPORT. Tests: words of every instruction from the encoding tables, ill-formed terms refused, results that the spec
prints, and for each statement a state and operands that meet its hypotheses.
-/

namespace Sys2Proof.Tests
open Sys2Proof Sys2Proof.Machine
set_option Elab.async false

/-! ### Decoding -/

/-- Words of SYS, bit by bit from R103 and R104. -/
theorem test_decode_sys :
    decode 0b00000000000000010010000000000111 = .ok (.trap 9) ∧
    decode 0b00000000000000010010101010001000 = .ok (.slotw 9 21) ∧
    decode 0b00000000000000000000000000000001 = .ok (.ecall) ∧
    decode 0b00000000000000000000000000000010 = .ok (.brk) ∧
    decode 0b00000000000000000000000000000011 = .ok (.eret) ∧
    decode 0b00000000000000000000000000000100 = .ok (.uiret) ∧
    decode 0b00000000000000000000000000000101 = .ok (.wfi) ∧
    decode 0b00000000000000000000000000000110 = .ok (.halt) := by decide

/-- Words of ALU, bit by bit from R103 and R104. -/
theorem test_decode_alu :
    decode 0b00000010110100010010101010000000 = .ok (.add 26 9 21) ∧
    decode 0b00000010110100010010101010000001 = .ok (.sub 26 9 21) ∧
    decode 0b00000010110100010010101010000010 = .ok (.and 26 9 21) ∧
    decode 0b00000010110100010010101010000011 = .ok (.or 26 9 21) ∧
    decode 0b00000010110100010010101010000100 = .ok (.xor 26 9 21) ∧
    decode 0b00000010110100010010101010000101 = .ok (.sll 26 9 21) ∧
    decode 0b00000010110100010010101010000110 = .ok (.srl 26 9 21) ∧
    decode 0b00000010110100010010101010000111 = .ok (.sra 26 9 21) ∧
    decode 0b00000010110100010010101010001000 = .ok (.slt 26 9 21) ∧
    decode 0b00000010110100010010101010001001 = .ok (.sltu 26 9 21) ∧
    decode 0b00000010110100010010101010001010 = .ok (.mul 26 9 21) ∧
    decode 0b00000010110100010010101010001011 = .ok (.mulh 26 9 21) ∧
    decode 0b00000010110100010010101010001100 = .ok (.mulhu 26 9 21) ∧
    decode 0b00000010110100010010101010001101 = .ok (.div 26 9 21) ∧
    decode 0b00000010110100010010101010001110 = .ok (.divu 26 9 21) ∧
    decode 0b00000010110100010010101010001111 = .ok (.rem 26 9 21) ∧
    decode 0b00000010110100010010101010010000 = .ok (.remu 26 9 21) ∧
    decode 0b00000010110100010010101010010001 = .ok (.min 26 9 21) ∧
    decode 0b00000010110100010010101010010010 = .ok (.max 26 9 21) ∧
    decode 0b00000010110100010010101010010011 = .ok (.minu 26 9 21) ∧
    decode 0b00000010110100010010101010010100 = .ok (.maxu 26 9 21) ∧
    decode 0b00000010110100010010000000010101 = .ok (.clz 26 9) ∧
    decode 0b00000010110100010010000000010110 = .ok (.ctz 26 9) ∧
    decode 0b00000010110100010010000000010111 = .ok (.popc 26 9) := by decide

/-- Words of Immediates, SHI, LUI, ADDPC, bit by bit from R103 and R104. -/
theorem test_decode_imm :
    decode 0b00000100110100010011101100101110 = .ok (.addi 26 9 6958) ∧
    decode 0b00000110110100010011101100101110 = .ok (.andi 26 9 6958) ∧
    decode 0b00001000110100010011101100101110 = .ok (.ori 26 9 6958) ∧
    decode 0b00001010110100010011101100101110 = .ok (.xori 26 9 6958) ∧
    decode 0b00001100110100010011101100101110 = .ok (.slti 26 9 6958) ∧
    decode 0b00001110110100010011101100101110 = .ok (.sltiu 26 9 6958) ∧
    decode 0b00010000110100010010000000101101 = .ok (.slli 26 9 45) ∧
    decode 0b00010000110100010010100000101101 = .ok (.srli 26 9 45) ∧
    decode 0b00010000110100010011000000101101 = .ok (.srai 26 9 45) ∧
    decode 0b00010010110101111100111111000111 = .ok (.lui 26 511943) ∧
    decode 0b00010100110101111100111111000111 = .ok (.addpc 26 511943) := by decide

/-- Words of Loads, Stores, bit by bit from R103 and R104. -/
theorem test_decode_access :
    decode 0b00010110110100010011101100101110 = .ok (.ldb 26 9 6958) ∧
    decode 0b00011000110100010011101100101110 = .ok (.ldbu 26 9 6958) ∧
    decode 0b00011010110100010011101100101110 = .ok (.ldh 26 9 6958) ∧
    decode 0b00011100110100010011101100101110 = .ok (.ldhu 26 9 6958) ∧
    decode 0b00011110110100010011101100101110 = .ok (.ldw 26 9 6958) ∧
    decode 0b00100000110100010011101100101110 = .ok (.ldwu 26 9 6958) ∧
    decode 0b00100010110100010011101100101110 = .ok (.ldd 26 9 6958) ∧
    decode 0b00100100101010010011101100101110 = .ok (.stb 21 9 6958) ∧
    decode 0b00100110101010010011101100101110 = .ok (.sth 21 9 6958) ∧
    decode 0b00101000101010010011101100101110 = .ok (.stw 21 9 6958) ∧
    decode 0b00101010101010010011101100101110 = .ok (.std 21 9 6958) := by decide

/-- Words of Branches, JAL, JALR, LOOP, bit by bit from R103 and R104. -/
theorem test_decode_control :
    decode 0b00101100101010010011101100101110 = .ok (.beq 21 9 6958) ∧
    decode 0b00101110101010010011101100101110 = .ok (.bne 21 9 6958) ∧
    decode 0b00110000101010010011101100101110 = .ok (.blt 21 9 6958) ∧
    decode 0b00110010101010010011101100101110 = .ok (.bge 21 9 6958) ∧
    decode 0b00110100101010010011101100101110 = .ok (.bltu 21 9 6958) ∧
    decode 0b00110110101010010011101100101110 = .ok (.bgeu 21 9 6958) ∧
    decode 0b00111000110101111100111111000111 = .ok (.jal 26 511943) ∧
    decode 0b00111010110100010011101100101110 = .ok (.jalr 26 9 6958) ∧
    decode 0b00111101001001111100001101010001 = .ok (.loopi 4 19 50001) ∧
    decode 0b00111101001001100010010000000000 = .ok (.loop 4 19 9) := by decide

/-- Words of ATOM, bit by bit from R103 and R104. -/
theorem test_decode_atom :
    decode 0b00111110110100010010101010000000 = .ok (.amoadd 26 9 21 false) ∧
    decode 0b00111110110100010010101010100001 = .ok (.amoswap 26 9 21 true) ∧
    decode 0b00111110110100010010101010000010 = .ok (.amocas 26 9 21 false) ∧
    decode 0b00111110110100010010101010100011 = .ok (.amomin 26 9 21 true) ∧
    decode 0b00111110110100010010101010000100 = .ok (.amomax 26 9 21 false) ∧
    decode 0b00111110110100010010101010100101 = .ok (.amominu 26 9 21 true) ∧
    decode 0b00111110110100010010101010000110 = .ok (.amomaxu 26 9 21 false) ∧
    decode 0b00111110110100010010101010100111 = .ok (.amoand 26 9 21 true) ∧
    decode 0b00111110110100010010101010001000 = .ok (.amoor 26 9 21 false) ∧
    decode 0b00111110110100010010101010101001 = .ok (.amoxor 26 9 21 true) := by decide

/-- Words of SYNC, TASK, FE, VSET, bit by bit from R103 and R104. -/
theorem test_decode_task :
    decode 0b01000000000000000000001010000000 = .ok (.fence 5) ∧
    decode 0b01000000000000000000001100000001 = .ok (.fenceacq 6) ∧
    decode 0b01000000000000000000000000000010 = .ok (.fencerel 0) ∧
    decode 0b01000000000000000000000010000011 = .ok (.fenceeng 1) ∧
    decode 0b01000000000000000000000100000100 = .ok (.wfev 2) ∧
    decode 0b01000010110100000000000000000000 = .ok (.take 26) ∧
    decode 0b01000010110100010010000000000001 = .ok (.post 26 9) ∧
    decode 0b01000010000000001100101010000010 = .ok (.postw 6 21) ∧
    decode 0b01000010000000010010000000000011 = .ok (.retire 9) ∧
    decode 0b01000010000000010010000000000110 = .ok (.wake 9) ∧
    decode 0b01000010110100010010000000000111 = .ok (.signal 26 9) ∧
    decode 0b01000010000000010010101010001000 = .ok (.recoat 9 21) ∧
    decode 0b01000010000000000000000000000100 = .ok (.yield) ∧
    decode 0b01000010000000000000000000000101 = .ok (.sleep) ∧
    decode 0b01000100110100010010000000000000 = .ok (.ldfull 26 9) ∧
    decode 0b01000100110100010010000000000001 = .ok (.ldfullk 26 9) ∧
    decode 0b01000100110100010010000000000010 = .ok (.stfull 26 9) ∧
    decode 0b01000100110100010010000000000011 = .ok (.stfill 26 9) ∧
    decode 0b01000100000000010010000000000100 = .ok (.feclr 9) ∧
    decode 0b01000110110100010010111010011001 = .ok (.setvl 26 9 3 2 4 6 1) := by decide

/-- Words of VINT, bit by bit from R103 and R104. -/
theorem test_decode_vint :
    decode 0b01001001001011100100101011000000 = .ok (.vadd false 37 50 (.s 21)) ∧
    decode 0b11001001001011100100010110000001 = .ok (.vsub true 37 50 (.v 11)) ∧
    decode 0b01001001001011100100101011000010 = .ok (.vrsub false 37 50 (.s 21)) ∧
    decode 0b11001001001011100100101011000011 = .ok (.vmul true 37 50 (.s 21)) ∧
    decode 0b01001001001011100100010110000100 = .ok (.vmulh false 37 50 (.v 11)) ∧
    decode 0b11001001001011100100101011000101 = .ok (.vmulhu true 37 50 (.s 21)) ∧
    decode 0b01001001001011100100101011000110 = .ok (.vmadd false 37 50 (.s 21)) ∧
    decode 0b11001001001011100100010110000111 = .ok (.vmsub true 37 50 (.v 11)) ∧
    decode 0b01001001001011100100101011001000 = .ok (.vdiv false 37 50 (.s 21)) ∧
    decode 0b11001001001011100100101011001001 = .ok (.vdivu true 37 50 (.s 21)) ∧
    decode 0b01001001001011100100010110001010 = .ok (.vrem false 37 50 (.v 11)) ∧
    decode 0b11001001001011100100101011001011 = .ok (.vremu true 37 50 (.s 21)) ∧
    decode 0b01001001001011100100101011001100 = .ok (.vmin false 37 50 (.s 21)) ∧
    decode 0b11001001001011100100010110001101 = .ok (.vmax true 37 50 (.v 11)) ∧
    decode 0b01001001001011100100101011001110 = .ok (.vminu false 37 50 (.s 21)) ∧
    decode 0b11001001001011100100101011001111 = .ok (.vmaxu true 37 50 (.s 21)) ∧
    decode 0b01001001001011100100010110010000 = .ok (.vand false 37 50 (.v 11)) ∧
    decode 0b11001001001011100100101011010001 = .ok (.vor true 37 50 (.s 21)) ∧
    decode 0b01001001001011100100101011010010 = .ok (.vxor false 37 50 (.s 21)) ∧
    decode 0b11001001001011100100010110010011 = .ok (.vsll true 37 50 (.v 11)) ∧
    decode 0b01001001001011100100101011010100 = .ok (.vsrl false 37 50 (.s 21)) ∧
    decode 0b11001001001011100100101011010101 = .ok (.vsra true 37 50 (.s 21)) ∧
    decode 0b01001001001011100100010110010110 = .ok (.vsadd false 37 50 (.v 11)) ∧
    decode 0b11001001001011100100101011010111 = .ok (.vsaddu true 37 50 (.s 21)) ∧
    decode 0b01001001001011100100101011011000 = .ok (.vssub false 37 50 (.s 21)) ∧
    decode 0b11001001001011100100010110011001 = .ok (.vssubu true 37 50 (.v 11)) ∧
    decode 0b01001001001011100100101011011010 = .ok (.vmerge false 37 50 (.s 21)) ∧
    decode 0b11001001001010000000101011011011 = .ok (.vmv true 37 (.s 21)) ∧
    decode 0b01001001001011100100000000011100 = .ok (.vabs false 37 50) ∧
    decode 0b11001001001011100100000000011101 = .ok (.vclz true 37 50) ∧
    decode 0b01001001001011100100000000011110 = .ok (.vpopc false 37 50) := by decide

/-- Words of VFLT, SF, bit by bit from R103 and R104. -/
theorem test_decode_vflt :
    decode 0b11001011001011100100010110000000 = .ok (.vfadd true 37 50 (.v 11)) ∧
    decode 0b01001011001011100100101011000001 = .ok (.vfsub false 37 50 (.s 21)) ∧
    decode 0b11001011001011100100101011000010 = .ok (.vfmul true 37 50 (.s 21)) ∧
    decode 0b01001011001011100100010110000011 = .ok (.vfma false 37 50 (.v 11)) ∧
    decode 0b11001011001011100100101011000100 = .ok (.vfms true 37 50 (.s 21)) ∧
    decode 0b01001011001011100100101011000101 = .ok (.vfnma false 37 50 (.s 21)) ∧
    decode 0b11001011001011100100010110000110 = .ok (.vfdiv true 37 50 (.v 11)) ∧
    decode 0b01001011001011100100000000000111 = .ok (.vfsqrt false 37 50) ∧
    decode 0b11001011001011100100101011001000 = .ok (.vfmin true 37 50 (.s 21)) ∧
    decode 0b01001011001011100100010110001001 = .ok (.vfmax false 37 50 (.v 11)) ∧
    decode 0b11001011001011100100000000001010 = .ok (.vfabs true 37 50) ∧
    decode 0b01001011001011100100000000001011 = .ok (.vfneg false 37 50) ∧
    decode 0b11001011001011100100100010001100 = .ok (.vfcvt true 37 50 17) ∧
    decode 0b01001011001011100100000000001101 = .ok (.vfcvti false 37 50) ∧
    decode 0b11001011001011100100000000001110 = .ok (.vicvtf true 37 50) ∧
    decode 0b01001011001011100100000000001111 = .ok (.vfclass false 37 50) ∧
    decode 0b01100011001011100100000000000000 = .ok (.vexp2 false 37 50) ∧
    decode 0b11100011001011100100000000000001 = .ok (.vlog2 true 37 50) ∧
    decode 0b01100011001011100100000000000010 = .ok (.vrcp false 37 50) ∧
    decode 0b11100011001011100100000000000011 = .ok (.vrsqrt true 37 50) ∧
    decode 0b01100011001011100100000000000100 = .ok (.vsin false 37 50) ∧
    decode 0b11100011001011100100000000000101 = .ok (.vcos true 37 50) ∧
    decode 0b01100011001011100100000000000110 = .ok (.vtanh false 37 50) ∧
    decode 0b11100011001011100100000000000111 = .ok (.vsigm true 37 50) := by decide

/-- Words of VPERM, bit by bit from R103 and R104. -/
theorem test_decode_vperm :
    decode 0b11001101001011100100001110000000 = .ok (.vxchg true 37 50 7) ∧
    decode 0b01001101001011100100101011000001 = .ok (.vslideup false 37 50 21) ∧
    decode 0b11001101001011100100101011000010 = .ok (.vslidedn true 37 50 21) ∧
    decode 0b01001101001011100100101011000011 = .ok (.vslide1up false 37 50 21) ∧
    decode 0b11001101001011100100101011000100 = .ok (.vslide1dn true 37 50 21) ∧
    decode 0b01001101001011100100010110000101 = .ok (.vgather false 37 50 (.v 11)) ∧
    decode 0b11001101001011100100000000000110 = .ok (.vcompress true 37 50) ∧
    decode 0b01001100110101100100101011000111 = .ok (.vextr false 26 50 21) ∧
    decode 0b11001101001010010010101011001000 = .ok (.vinsr true 37 9 21) ∧
    decode 0b01001101001010000000000000001001 = .ok (.viota false 37) ∧
    decode 0b11001101001011100100101011001010 = .ok (.vredsum true 37 50 (.s 21)) ∧
    decode 0b01001101001011100100010110001011 = .ok (.vredmin false 37 50 (.v 11)) ∧
    decode 0b11001101001011100100101011001100 = .ok (.vredmax true 37 50 (.s 21)) ∧
    decode 0b01001101001011100100101011001101 = .ok (.vredminu false 37 50 (.s 21)) ∧
    decode 0b11001101001011100100010110001110 = .ok (.vredmaxu true 37 50 (.v 11)) ∧
    decode 0b01001101001011100100101011001111 = .ok (.vredand false 37 50 (.s 21)) ∧
    decode 0b11001101001011100100101011010000 = .ok (.vredor true 37 50 (.s 21)) ∧
    decode 0b01001101001011100100010110010001 = .ok (.vredxor false 37 50 (.v 11)) ∧
    decode 0b11001101001011100100101011010010 = .ok (.vfredsum true 37 50 (.s 21)) ∧
    decode 0b01001101001011100100000000010011 = .ok (.vscan false 37 50) := by decide

/-- Words of VCMP, bit by bit from R103 and R104. -/
theorem test_decode_vcmp :
    decode 0b11001110001011100100010110000000 = .ok (.vceq true 5 50 (.v 11)) ∧
    decode 0b01001110001011100100101011000001 = .ok (.vcne false 5 50 (.s 21)) ∧
    decode 0b11001110001011100100101011000010 = .ok (.vclt true 5 50 (.s 21)) ∧
    decode 0b01001110001011100100010110000011 = .ok (.vcltu false 5 50 (.v 11)) ∧
    decode 0b11001110001011100100101011000100 = .ok (.vcle true 5 50 (.s 21)) ∧
    decode 0b01001110001011100100101011000101 = .ok (.vcleu false 5 50 (.s 21)) ∧
    decode 0b11001110001011100100010110000110 = .ok (.vcgt true 5 50 (.v 11)) ∧
    decode 0b01001110001011100100101011000111 = .ok (.vcgtu false 5 50 (.s 21)) ∧
    decode 0b11001110001011100100101011001000 = .ok (.vfceq true 5 50 (.s 21)) ∧
    decode 0b01001110001011100100010110001001 = .ok (.vfclt false 5 50 (.v 11)) ∧
    decode 0b11001110001011100100101011001010 = .ok (.vfcle true 5 50 (.s 21)) ∧
    decode 0b01001110001011100100101011001011 = .ok (.vfcun false 5 50 (.s 21)) := by decide

/-- Words of MASK, VMEM, bit by bit from R103 and R104. -/
theorem test_decode_mask :
    decode 0b11010000001010000100001110000000 = .ok (.mand true 5 2 7) ∧
    decode 0b01010000001010000100001110000001 = .ok (.mor false 5 2 7) ∧
    decode 0b11010000001010000100001110000010 = .ok (.mxor true 5 2 7) ∧
    decode 0b01010000001010000100001110000011 = .ok (.mandn false 5 2 7) ∧
    decode 0b11010000001010000100000000000100 = .ok (.mnot true 5 2) ∧
    decode 0b01010000110100000100000000000101 = .ok (.mpopc false 26 2) ∧
    decode 0b11010000110100000100000000000110 = .ok (.mfirst true 26 2) ∧
    decode 0b01010000001010000100000000000111 = .ok (.mskft false 5 2) ∧
    decode 0b11010000001010000100000000001000 = .ok (.mskbf true 5 2) ∧
    decode 0b01010000001011100100000000001001 = .ok (.mfromv false 5 50) ∧
    decode 0b11010001001010000100000000001010 = .ok (.mtov true 37 2) ∧
    decode 0b01010011001010010010000000000000 = .ok (.vld false 37 9) ∧
    decode 0b11010011001010010010000000000001 = .ok (.vldff true 37 9) ∧
    decode 0b01010011001010010010010110000010 = .ok (.vldx false 37 9 11) ∧
    decode 0b11010011001010010010000000000011 = .ok (.vst true 37 9) ∧
    decode 0b01010011001010010010010110000100 = .ok (.vstx false 37 9 11) ∧
    decode 0b11010011001010010010000000000101 = .ok (.vldq true 37 9) ∧
    decode 0b01010011001010010010000000000110 = .ok (.vstq false 37 9) ∧
    decode 0b11010011001010010010000000000111 = .ok (.vldbc true 37 9) := by decide

/-- Words of MTX, MPLANE, bit by bit from R103 and R104. -/
theorem test_decode_matrix :
    decode 0b01010100110101100100010111101000 = .ok (.mma 26 50 11 13) ∧
    decode 0b01010100110101100100010111101001 = .ok (.mopa 26 50 11 13) ∧
    decode 0b01010100110101100100010111101010 = .ok (.mslide 26 50 11 13) ∧
    decode 0b01010100110101100100000001101011 = .ok (.mrdc 26 50 13) ∧
    decode 0b01010100110100000000000001101100 = .ok (.mzero 26 13) ∧
    decode 0b01010100110100000000000001101101 = .ok (.mdrain 26 13) ∧
    decode 0b01100100000000010010000000000000 = .ok (.mlds 9) ∧
    decode 0b01100100000000010010000000000001 = .ok (.mldss 9) ∧
    decode 0b01100100000000000000000000000010 = .ok (.mswap) := by decide

/-- Words of RING, CPY, CSR, bit by bit from R103 and R104. -/
theorem test_decode_rings :
    decode 0b01010110000000010010101010000000 = .ok (.ringcfg 9 21) ∧
    decode 0b01010110110100010010101010000001 = .ok (.rwaitf 26 9 21) ∧
    decode 0b01010110110100010010101010000010 = .ok (.rwaite 26 9 21) ∧
    decode 0b01010110110100010010101010000011 = .ok (.radvh 26 9 21) ∧
    decode 0b01010110110100010010101010000100 = .ok (.radvt 26 9 21) ∧
    decode 0b01010110110100010010000000000101 = .ok (.rstat 26 9) ∧
    decode 0b01011000110100010010000000000000 = .ok (.cpy 26 9) ∧
    decode 0b01011000110100010010000000000001 = .ok (.cpywait 26 9) ∧
    decode 0b01011000110100010010000000000010 = .ok (.cpystat 26 9) ∧
    decode 0b01011000110100010010000000000011 = .ok (.cpycan 26 9) ∧
    decode 0b01100110110100000000000001000001 = .ok (.csrr 26 65) ∧
    decode 0b01100110110100010010100001000001 = .ok (.csrw 26 9 65) ∧
    decode 0b01100110110100010011000001000001 = .ok (.csrs 26 9 65) ∧
    decode 0b01100110110100010011100001000001 = .ok (.csrc 26 9 65) := by decide

/-- Words of ROUTE, REMOTE, LEASE, GROUP, bit by bit from R103 and R104. -/
theorem test_decode_fabric :
    decode 0b01011010011010010010000000000000 = .ok (.wld 13 9) ∧
    decode 0b01011010011010010010000000000001 = .ok (.wst 13 9) ∧
    decode 0b01011010011010001100101010000010 = .ok (.wnarrow 13 6 21) ∧
    decode 0b01011010011010001100101010000011 = .ok (.wdlg 13 6 21) ∧
    decode 0b01011010011010010010000000000100 = .ok (.wstripe 13 9) ∧
    decode 0b01011010011010000000000000000101 = .ok (.wclr 13) ∧
    decode 0b01011010110100001100101010000110 = .ok (.winfo 26 6 21) ∧
    decode 0b01011010011010010010000000000111 = .ok (.wmint 13 9) ∧
    decode 0b01011010110100010010000000001000 = .ok (.wgen 26 9) ∧
    decode 0b01011100110100001100101010000000 = .ok (.send 26 6 21) ∧
    decode 0b01011101001010001100101010000001 = .ok (.sendv 37 6 21) ∧
    decode 0b01011100110100010010000000000010 = .ok (.recv 26 9) ∧
    decode 0b01011100110100001100101010000011 = .ok (.rld 26 6 21) ∧
    decode 0b01011100110100001100101010000100 = .ok (.rst 26 6 21) ∧
    decode 0b01011100110100001100101010000101 = .ok (.rstf 26 6 21) ∧
    decode 0b01011101001010001100101010001000 = .ok (.rldv 37 6 21) ∧
    decode 0b01011101001010001100101010001001 = .ok (.rstv 37 6 21) ∧
    decode 0b01011100110100001100101010010110 = .ok (.ramo 26 6 21 6) ∧
    decode 0b01011110110100001100101010000000 = .ok (.wlease 26 6 21) ∧
    decode 0b01011110110100010010000000000001 = .ok (.wrelease 26 9) ∧
    decode 0b01011110110100010010000000000010 = .ok (.wlstat 26 9) ∧
    decode 0b01100000110100010010000000000000 = .ok (.gbar 26 9) ∧
    decode 0b01100000110100010010000000000001 = .ok (.garrive 26 9) ∧
    decode 0b01100000110100010010101010000010 = .ok (.gwait 26 9 21) ∧
    decode 0b01100000110100010010101010000011 = .ok (.gred 26 9 21) ∧
    decode 0b01100000110100010010101010000100 = .ok (.ginfo 26 9 21) := by decide
/-! ### States that the tests start from -/

/-- Strand 0 of core 0, which State.withFetchWord binds. -/
def p0 : Place := { core := 0, strand := 0 }
/-- One READY vector strand at user privilege, with a page, a kernel and a trap vector; the fabric key is a fixed one. -/
def base : State := { State.reset.withFetchWord 32 0 with fabricKey := 0, moduleKey := 0 }
def up (f : Strand → Strand) : State := base.modStrand p0 f
def uc (f : Core → Core) : State := base.modCore 0 f
/-- Some scalar registers set. -/
def regs (l : SMap Word) : State := up fun t => { t with scalars := l }
def supStrand (t : Strand) : Strand := { t with trap := { t.trap with priv := true } }
def sup : State := up supStrand
/-- A loop body around the PC. -/
def inLoop (t : Strand) : Strand := { t with loops := [{ remaining := 2, initial := 2, body := 0x8000, len := 3 }] }
/-- The word of G at an offset, as an address of the local window (R46). -/
def gAt (off : Nat) : Word := BitVec.ofNat 64 (0xFF00000004000000 + off)
def ends (r : Res) : Bool := match r with | .next _ => true | _ => false

/-- VADD v37, v50, s21 with its C bit set: the first word of a convoy (R66, R107). -/
def wVaddConvoy : IWord := 0b11001001001011100100101011000000

/-! ### Hypotheses met: encoding and steps -/

theorem witness_DecodedIsWellFormed : decode 1 = .ok .ecall := by decide
theorem witness_StepRunsDecoded :
    let s := State.reset.withFetchWord 32 1
    s.agenda = [] ∧ s.turn ≠ closedTurn ∧ s.nextStrand = some p0 ∧ (s.strand p0).pendTrap = [] ∧
    (s.strand p0).interruptDue = false ∧ ((s.strand p0).ending && !(s.strand p0).mid) = false ∧
    s.fetch p0 (s.strand p0) (s.strand p0).pc = .word 1 ∧
    (convoyMajor (wordMajor 1) && (wordC 1 || s.mayPause p0)) = false ∧
    decode 1 = .ok .ecall := by decide +kernel
theorem witness_StepRunsConvoy :
    let w : IWord := wVaddConvoy
    let s := State.reset.withFetchWord 32 w.toNat
    s.agenda = [] ∧ s.turn ≠ closedTurn ∧ s.nextStrand = some p0 ∧ (s.strand p0).pendTrap = [] ∧
    (s.strand p0).interruptDue = false ∧ ((s.strand p0).ending && !(s.strand p0).mid) = false ∧
    s.fetch p0 (s.strand p0) (s.strand p0).pc = .word w ∧
    (convoyMajor (wordMajor w) && (wordC w || s.mayPause p0)) = true := by decide +kernel
theorem witness_StepsWithoutInstruction :
    let s := State.reset.withFetchWord 32 0
    s.agenda = [] ∧ s.turn ≠ closedTurn ∧ s.nextStrand = some p0 ∧ (s.strand p0).pendTrap = [] ∧
    (s.strand p0).interruptDue = false ∧ ((s.strand p0).ending && !(s.strand p0).mid) = false ∧
    s.fetch p0 (s.strand p0) (s.strand p0).pc = .word 0 ∧
    (convoyMajor (wordMajor 0) && (wordC 0 || s.mayPause p0)) = false ∧
    decode 0 = .error .undefinedFunction := by decide +kernel
theorem witness_StepsWithoutInstruction_due :
    let s := ({ base with agenda := [⟨.tamperMesh, .none⟩] } : State)
    s.agenda = [⟨.tamperMesh, .none⟩] ∧ s.turn ≠ closedTurn := by decide
theorem witness_PlacedInstructionRuns :
    1 < 2 ^ 32 ∧ decode (BitVec.ofNat 32 1) = .ok .ecall ∧
    (wordC (BitVec.ofNat 32 1) && convoyMajor (wordMajor (BitVec.ofNat 32 1))) = false := by decide
theorem witness_MemoryStaysCanonical :
    Memory.wf State.reset.mem = true ∧ ∃ t, step State.reset = .next t := ⟨rfl, _, rfl⟩

/-! ### Scalar instructions -/

theorem witness_ScalarResults : base.bound = true ∧ Claims.scalarValue base.me (.add 1 2 3) = some (1, 0) := by
  decide +kernel
theorem witness_ImmediateResults : base.bound = true := by decide +kernel
theorem witness_HighProductsAndCounts : base.bound = true ∧ (1 : SReg) ≠ 0 := by decide +kernel
theorem witness_DivisionResults : (regs [(1, BitVec.intMin 64), (2, -1)]).bound = true := by decide +kernel
theorem witness_ScalarFrame :
    Claims.scalarDest (.rem 3 1 2) = some 3 ∧ ∃ t, exec (.rem 3 1 2) (regs [(1, 7)]) = .next t :=
  ⟨rfl, _, rfl⟩

/-! ### Accesses -/

theorem witness_LoadResults :
    let s := regs [(2, gAt 0x5FF8)]
    let q := regs [(2, 0x8000)]
    let f : State := q.modCore 0 fun x => { x with sb := [⟨0, 0x8000, [1, 2, 3, 4, 5, 6, 7, 8], 0, 0⟩] }
    let m := q.modCore 0 fun x => { x with dcache := [(0x200, ())] }
    Claims.loadForm (.ldd 1 2 0) = some (1, 2, 0, 8, false) ∧
    (s.bound = true ∧ s.target p0 s.me (s.me.s 2 + 0) 8 0 = .buffer 0x3DFF8 ∧
      (s.core 0).localWait (some 0) 0x3DFF8 8 = none ∧ (s.core 0).localPoisoned 0x3DFF8 8 = false) ∧
    (f.bound = true ∧ f.target p0 f.me (f.me.s 2 + 0) 8 0 = .phys 0x8000 placedEntry ∧
      sbLookup (f.core 0).sb 0x8000 8 = .forward [1, 2, 3, 4, 5, 6, 7, 8]) ∧
    (m.bound = true ∧ m.target p0 m.me (m.me.s 2 + 0) 8 0 = .phys 0x8000 placedEntry ∧
      sbLookup (m.core 0).sb 0x8000 8 = .miss ∧ mhas m.owned 0x200 = false ∧ mhas (m.core 0).dcache 0x200 = true ∧
      m.physPoisoned 0x8000 8 = false) := by decide +kernel
theorem witness_AccessChecks :
    (regs [(2, 4)]).bound = true ∧ Claims.access (regs [(2, 4)]).me (.ldd 1 2 0) = some (4, 8, 0) ∧ 4 % 8 ≠ 0 ∧
    Claims.access (regs [(2, gAt 0x6000)]).me (.ldd 1 2 0) = some (gAt 0x6000, 8, 0) ∧ (gAt 0x6000).toNat % 8 = 0 ∧
    (gAt 0x6000).toNat / 2 ^ 32 = 0xFF000000 ∧ ¬ ((gAt 0x6000).toNat % 2 ^ 24 + 8 ≤ 0x6000) ∧
    (gAt 0x6000).toNat / 2 ^ 24 % 256 = 4 ∧
    Claims.access (regs [(2, 0x200000000000000)]).me (.std 1 2 0) = some (0x200000000000000, 8, 1) ∧
    0x200000000000000 / 2 ^ 32 ≠ 0xFF000000 ∧ 2 ^ 57 ≤ 0x200000000000000 := by decide +kernel
theorem witness_StoreResults :
    let s := regs [(2, gAt 0x5FF8)]
    let q := regs [(2, 0xFFF8)]
    Claims.storeForm (.std 1 2 0) = some (1, 2, 0, 8) ∧
    (s.bound = true ∧ s.target p0 s.me (s.me.s 2 + 0) 8 1 = .buffer 0x3DFF8 ∧
      (s.core 0).localWait (some 0) 0x3DFF8 8 = none) ∧
    (q.bound = true ∧ q.target p0 q.me (q.me.s 2 + 0) 8 1 = .phys 0xFFF8 placedEntry ∧ (q.core 0).sb.length < 16) := by
  decide +kernel
theorem witness_AccessFrame :
    let s := regs [(2, gAt 8)]
    (s.delivers = true ∧ s.poisoned = [] ∧ (s.core 0).bad = []) ∧ Claims.loadForm (.ldw 1 2 0) = some (1, 2, 0, 4, true) ∧
    Claims.storeForm (.stb 1 2 0) = some (1, 2, 0, 1) ∧ (∃ t, exec (.ldw 1 2 0) s = .next t) ∧
    ∃ t, exec (.stb 1 2 0) s = .next t := ⟨by decide +kernel, rfl, rfl, ⟨_, rfl⟩, _, rfl⟩
theorem witness_AtomicResults :
    let s := regs [(2, gAt 16)]
    Claims.atomicForm (.amoadd 1 2 3 true) = some (.add, 1, 2, 3, true) ∧
    Claims.atomicForm (.amocas 1 2 3 true) = some (.cas, 1, 2, 3, true) ∧
    (s.bound = true ∧ s.target p0 s.me (s.me.s 2) 8 3 = .buffer 0x38010 ∧ s.target p0 s.me (s.me.s 2) 8 4 = .buffer 0x38010 ∧
      (s.core 0).sbOf 0 = false ∧ (s.core 0).ni.out.any (fun e => e.2.ofStrand 0) = false ∧
      (s.core 0).localWait (some 0) 0x38010 8 = none ∧ (s.core 0).localPoisoned 0x38010 8 = false) := by
  decide +kernel
theorem witness_AtomicResultsDevice :
    let q := regs [(2, 0x8010)]
    q.bound = true ∧ q.target p0 q.me (q.me.s 2) 8 3 = .phys 0x8010 placedEntry ∧ (q.core 0).sbOf 0 = false ∧
    (q.core 0).ni.out.any (fun e => e.2.ofStrand 0) = false ∧ placedEntry.dirty = true ∧
    mhas q.owned 0x200 = false ∧ q.physPoisoned 0x8010 8 = false := by
  decide +kernel
theorem witness_AtomicResultsWaits :
    let g := (regs [(2, gAt 16)]).modCore 0 fun x => { x with sb := [⟨0, 0x8000, [1], 0, 0⟩] }
    let f := (regs [(2, 0x8010)]).modCore 0 fun x => { x with sb := [⟨0, 0x8000, [1], 0, 0⟩] }
    f.bound = true ∧ f.target p0 f.me (f.me.s 2) 8 3 = .phys 0x8010 placedEntry ∧ (f.core 0).sbOf 0 = true ∧
    g.bound = true ∧ g.target p0 g.me (g.me.s 2) 8 3 = .buffer 0x38010 ∧ (g.core 0).sbOf 0 = true := by decide +kernel

/-! ### Control flow and system functions -/

theorem witness_BranchesAndJumps :
    let s := regs [(2, 0x9000)]
    Claims.branch s.me (.bne 1 2 4) = some (true, 4) ∧ s.bound = true ∧ s.me.inBody = false ∧
    ((up inLoop).bound = true ∧ (up inLoop).me.inBody = true) ∧ (s.me.s 2 + (0 : Word)).toNat % 4 = 0 ∧
    (s.me.s 2 + (2 : Word)).toNat % 4 ≠ 0 := by decide +kernel
theorem witness_LoopNest_entry :
    Claims.loopForm base.me (.loopi 0 31 65535) = some (0, 31, 65535) ∧ base.bound = true ∧ base.me.suspended = false ∧
    base.me.loops.length = 0 ∧ Claims.loopForm base.me (.loop 0 0 1) = some (0, 0, 0) ∧
    Claims.loopForm base.me (.loopi 1 0 1) = some (1, 0, 1) ∧ 1 ≠ base.me.loops.length ∧
    (up inLoop).me.loops.length = 1 ∧ 0x8008 ≤ (LoopRec.last { remaining := 2, initial := 2, body := 0x8000, len := 3 }).toNat := by
  decide +kernel
theorem witness_LoopNest_stepping :
    let r : LoopRec := { remaining := 2, initial := 2, body := 0x8000, len := 0 }
    let q : LoopRec := { remaining := 1, initial := 2, body := 0x8000, len := 0 }
    let t := (up fun t => { t with loops := [r] }).me
    let u := (up fun t => { t with loops := [q] }).me
    (t.suspended = false ∧ t.loops = [r] ∧ t.pc = r.last ∧ 1 < r.remaining) ∧
    (u.suspended = false ∧ u.pc = q.last ∧ q.remaining ≤ 1) ∧ (up inLoop).me.pc ≠ 0x800C ∧ base.me.loops = [] ∧
    ({ t with suspTrap := true } : Strand).suspended = true := by decide +kernel
theorem witness_CsrResults :
    csrSup 0x040 = true ∧ base.bound = true ∧ base.me.trap.priv = false ∧ csrSup 0x001 = false ∧
    (sup.bound = true ∧ sup.me.trap.priv = true) ∧ (1 : SReg) ≠ 0 ∧ vcfgLegal (base.me.s 1).toNat = true ∧
    (base.csrRead p0 base.me 1 ||| base.me.s 1) = 0 ∧ (base.csrRead p0 base.me 1 &&& ~~~base.me.s 1) = 0 := by
  decide +kernel
theorem witness_CsrWriteThenRead :
    let s := up fun t => supStrand { t with scalars := [(1, 0xFFFFFFFFFFFFFFFF)] }
    (s.bound = true ∧ s.me.trap.priv = true ∧ s.isVector p0 = true ∧ s.me.pass = none) ∧
    Claims.csrKept s.me 0x052 (s.me.s 1) = some 0xFFFFFFFF ∧ Claims.csrKept s.me 0x044 (s.me.s 1) = some 0x11F ∧
    (∃ t, exec (.csrw 2 1 0x052) s = .next t) ∧ ∃ t, exec (.csrw 2 1 0x044) s = .next t :=
  ⟨by decide +kernel, by decide +kernel, by decide +kernel, ⟨_, rfl⟩, _, rfl⟩
theorem witness_SystemCalls :
    (base.bound = true ∧ base.alone = true ∧ base.me.inBody = false ∧ base.delivers = true) ∧
    Claims.systemCall base.me (.trap 1) = some (0x12, 0) ∧ base.me.trap.priv = false ∧
    ((up inLoop).bound = true ∧ (up inLoop).me.inBody = true) ∧
    (sup.bound = true ∧ sup.alone = true ∧ sup.me.inBody = false ∧ sup.me.trap.priv = true ∧ (sup.core 0).kern = some 0 ∧
      mget sup.kernels 0 = some placedKernel ∧ placedKernel.state ≠ .faulted ∧ placedKernel.state ≠ .retired) := by
  decide +kernel
theorem witness_TrapsAndReturns_trap :
    ((base.strand p0).trap.priv = false ∧ (base.strand p0).trap.tvec ≠ 0 ∧ base.cur.member = 0) ∧
    (sup.bound = true ∧ sup.me.trap.priv = true ∧ sup.me.inBody = false) ∧ addr57 base.me.pc = base.me.pc ∧ base.me.trap.priv = false := by
  decide +kernel
theorem witness_TrapsAndReturns_interrupt :
    let s := up fun t => { t with inUi := true, shadow := true }
    (s.bound = true ∧ s.me.trap.priv = false ∧ s.me.inBody = false ∧ s.me.inUi = true) ∧
    base.bound = true ∧ base.me.trap.priv = false ∧ base.me.inBody = false ∧ base.me.inUi = false := by decide +kernel
theorem witness_CoreWideInstructions_slots :
    let s := sup.modCore 0 fun x => { x with quiescent := true, barWaiting := [(0, ())] }
    (let f := up fun t => supStrand (inLoop t)
     f.bound = true ∧ f.me.trap.priv = true ∧ f.me.inBody = true) ∧
    (s.bound = true ∧ s.me.trap.priv = true ∧ s.me.inBody = false ∧ (s.core 0).quiet = true) ∧
    (sup.bound = true ∧ sup.me.trap.priv = true ∧ sup.me.inBody = false ∧ (sup.core 0).quiet = false) ∧
    base.bound = true ∧ base.me.trap.priv = false := by decide +kernel
theorem witness_CoreWideInstructions_barrier :
    let s := sup.modCore 0 fun x => { x with quiescent := true, barWaiting := [(0, ()), (1, ())] }
    let u : Strand := { supStrand base.me with run := .waiting, wait := .coreBarrier }
    let q := s.setStrand ⟨0, 1⟩ u
    (sup.bound = true ∧ sup.me.inBody = false ∧ ¬ ((sup.core 0).quiescent && mhas (sup.core 0).barWaiting 0) = true) ∧
    (q.bound = true ∧ q.me.trap.priv = true ∧ q.me.inBody = false ∧ ((q.core 0).quiescent && mhas (q.core 0).barWaiting 0) = true ∧
      q.me.run = .ready ∧ mget (q.core 0).strands 1 = some u) ∧
    (up inLoop).me.inBody = true ∧
    (let f := uc fun x => { x with sb := [⟨0, 0x8000, [1], 0, 0⟩] }
     f.bound = true ∧ f.me.inBody = false ∧ (f.core 0).sbOf 0 = true) ∧
    base.me.inBody = false ∧ (base.core 0).sbOf 0 = false := by decide +kernel

/-! ### Ordering, full/empty words and tasks -/

/-- A store of the strand in the store buffer. -/
def stored : State := uc fun x => { x with sb := [⟨0, 0x8000, [1], 0, 0⟩] }
def withTask : State := up fun t => { t with held := some { scope := 4, signal := true } }
/-- A packet with ENTRY 0x8000, argument 1 in the first word, and a wait on counter 3 when asked. -/
def packet (depv : Bool) : WorkPacket := BitVec.ofNat 512 (0x8000 + 2 ^ 128 + if depv then 2 ^ 79 else 0)
def queued : State := uc fun x => { x with queue := [(5, ⟨packet false, 0, 0, .eligible, 0, none, 0, 0, false, 0, 0⟩)] }
/-- A route word from its fields. -/
def route (path endp base len rights owner flags : Nat) : RouteWord :=
  BitVec.ofNat 256 (path + endp * 2 ^ 120 + base * 2 ^ 128 + len * 2 ^ 148 + rights * 2 ^ 168 + owner * 2 ^ 192 +
    flags * 2 ^ 208)
def routed (endp rights : Nat) : State :=
  up fun t => { t with routes := [(1, route 0 endp 0 256 rights 1 0)], scalars := [(5, 8)] }

theorem witness_FenceResults :
    base.bound = true ∧ (base.core 0).sbOf 0 = false ∧ ((base.core 0).ni.out.any fun e => e.2.ofStrand 0) = false ∧
    ((base.core 0).copies.all fun e => !e.2.active || e.2.strand != 0) = true ∧ 4 ≤ base.effScope p0 6 ∧
    (stored.bound = true ∧ (6 : Fin 7).val ≠ 0 ∧ (stored.core 0).sbOf 0 = true) := by decide +kernel
theorem witness_EventsAndRendezvous :
    let awake := up fun t => { t with wakeToken := true }
    let two := (regs [(1, 1)]).modCore 0 fun x => x.setStrand 1 { x.strand 0 with run := .ready }
    let seven := regs [(1, 0x70000)]
    let co := regs [(1, 0x10000), (2, 1)]
    (awake.bound = true ∧ awake.me.inBody = false ∧ awake.me.wakeToken = true) ∧
    (base.bound = true ∧ base.me.inBody = false ∧ base.me.wakeToken = false) ∧
    (two.bound = true ∧ two.me.inBody = false ∧ two.me.run = .ready ∧ bits (two.me.s 1).toNat 0 3 = 1 ∧
      1 ≠ two.cur.place.strand ∧ (two.strand ⟨0, 1⟩).run ≠ .unbound ∧ (two.strand ⟨0, 1⟩).run ≠ .waiting) ∧
    (seven.bound = true ∧ seven.me.inBody = false ∧ bits (seven.me.s 1).toNat 16 3 = 7) ∧
    (bits (co.me.s 1).toNat 16 3 = 1 ∧ co.releaseWait p0 1 = none) ∧
    (co.bound = true ∧ co.me.inBody = false ∧ (co.me.s 1).toNat % 256 = 0 ∧ (co.me.s 2).toNat < 2 ^ 14 ∧
      (co.core 0).kern = some 0 ∧ mget co.kernels 0 = some placedKernel ∧
      (∀ r ∈ placedKernel.rendezvous, r.2 = (co.me.s 1, co.me.s 2))) := by decide +kernel
theorem witness_FullEmptyResults :
    let s := regs [(2, 0x5FF8)]
    let f := s.modCore 0 fun x => { x with full := [(0xBFF, ())] }
    s.bound = true ∧ s.me.run = .ready ∧ (s.me.s 2).toNat % 8 = 0 ∧ (s.me.s 2).toNat + 8 ≤ 0x6000 ∧
    (s.core 0).localWait (some 0) (0x38000 + 0x5FF8) 8 = none ∧ (s.core 0).localPoisoned (0x38000 + 0x5FF8) 8 = false ∧
    (s.core 0).feWaiters 0x5FF8 [0, 1, 2] = [] ∧ (s.core 0).sbOf 0 = false ∧
    ((s.core 0).ni.out.any fun e => e.2.ofStrand 0) = false ∧ (s.core 0).isFull (0x5FF8 / 8) = false ∧
    (f.bound = true ∧ (f.core 0).localWait (some 0) (0x38000 + 0x5FF8) 8 = none ∧
      (f.core 0).localPoisoned (0x38000 + 0x5FF8) 8 = false ∧ (f.core 0).feWaiters 0x5FF8 [0, 1, 2] = [] ∧
      (f.core 0).isFull (0x5FF8 / 8) = true) := by decide +kernel
theorem witness_TakeAndRetire :
    (withTask.bound = true ∧ withTask.me.inBody = false ∧ withTask.me.held ≠ none) ∧
    (base.bound = true ∧ base.me.inBody = false ∧ base.me.held = none ∧ (base.core 0).select base.me = none) ∧
    (queued.me.held = none ∧ ((queued.core 0).select queued.me).map (·.1) = some 5) ∧
    withTask.me.held = some ⟨4, true⟩ ∧ withTask.releaseWait p0 (max 1 4) = none := by decide +kernel
theorem witness_PostResults :
    let s := (regs [(2, 64)]).modCore 0 fun x =>
      { x with buf := x.buf ++ [(0x38041, 0x80)] }
    let full := s.modCore 0 fun x => { x with
      queue := (List.range 64).map fun n => (n, ⟨0, 0, 0, .eligible, 0, none, 0, 0, false, 0, 0⟩) }
    let f := routed 0x06 8
    let b := (s.core 0).readLocal 0x38040 64
    (s.bound = true ∧ s.me.inBody = false ∧ s.me.run = .ready ∧ gCheck (s.me.s 2) 64 64 = none ∧
      s.fetchLocal p0 0x38040 64 = .bytes b ∧ mfree (s.core 0).queue 64 = some 0 ∧
      s.foreignCounter 0 (s.ctxOf p0) (BitVec.ofNat 512 (leNat b)) = false ∧ s.releaseWait p0 1 = none ∧
      ((s.core 0).strands.all fun e => e.2.run != .waiting || e.2.wait != .take) = true) ∧
    (full.fetchLocal p0 0x38040 64 = .bytes b ∧ mfree (full.core 0).queue 64 = none) ∧
    s.foreignCounter 0 1 (packet true) = true ∧
    (let z := List.replicate 64 (0 : Byte)
     f.bound = true ∧ f.me.inBody = false ∧ f.sends = true ∧ checkHead (f.me.w 1) (f.ctxOf p0) 1 rightS [0x06, 0x86] = none ∧
      gCheck (f.me.s 0) 64 64 = none ∧ f.fetchLocal p0 0x38000 64 = .bytes z ∧
      checkWindow (f.me.w 1) (unitOff (f.me.w 1) (bits (leNat z) 48 2)) 1 1 = none ∧
      f.releaseWait p0 (pathScope (f.me.w 1)) = none) := by decide +kernel

/-! ### Vector instructions -/

/-- A strand that owns no lanes. -/
def scalarOnly : State :=
  let s := base.modCore 0 fun x => x.setStrand 7 { x.strand 0 with run := .ready }
  { s with cur := { s.cur with place := ⟨0, 7⟩ } }
/-- VL 4 at a width code, with registers set. -/
def vecs (sew vfmt : Nat) (l : SMap Nat) : State := up fun t => { t with
  vec := { t.vec with vl := 4, vlmaxs := 8, sew := sew, vfmt := vfmt }
  vectors := l.map fun e => (e.1, BitVec.ofNat 4096 e.2) }
/-- The same in space G at an address, with a unit stride. -/
def vecsAt (space : Nat) (a : Nat) : State := up fun t => { t with
  vec := { t.vec with vl := 4, vlmaxs := 8, sew := 2, space := space, vstride := 4 }
  scalars := [(5, BitVec.ofNat 64 a)] }

theorem witness_VectorChecks :
    (scalarOnly.bound = true ∧ scalarOnly.isVector scalarOnly.cur.place = false ∧
      Claims.namesVector (.mma 1 2 3 0) = true) ∧
    (let s := vecs 0 0 []
     s.bound = true ∧ s.isVector p0 = true ∧ Claims.isFloat (.vfadd false 1 2 (.v 3)) = true ∧ s.me.vec.sew ≠ 2) ∧
    (vecs 1 0 []).me.vec.sew ≠ (if (vecs 1 0 []).me.vec.vfmt = 0 then 2 else 1) ∧
    ((vecsAt 1 0).bound = true ∧ (vecsAt 1 0).isVector p0 = true ∧ (vecsAt 1 0).me.vec.space = 1) := by decide +kernel
theorem witness_SetvlResults :
    (scalarOnly.bound = true ∧ scalarOnly.isVector ⟨0, 7⟩ = false) ∧ base.bound = true ∧ base.isVector p0 = true ∧
    base.me.pass = none := by decide +kernel
theorem witness_IntVectorResults :
    let s := vecs 0 0 [(2, 0x7F80FF01), (3, 0x01010101)]
    s.vecReady (Claims.vecNeeds (.vmerge false 1 2 (.v 3))) = true ∧
    (Claims.vint s.me (.vmerge false 1 2 (.v 3))).isSome = true ∧ (Claims.vint s.me (.vmadd false 1 2 (.s 3))).isSome = true ∧
    (Claims.vint s.me (.vmv false 1 (.s 3))).isSome = true ∧ (Claims.vint s.me (.vabs false 1 2)).isSome = true := by
  decide +kernel
theorem witness_FlaggedVectorResults :
    let s := vecs 0 0 [(2, 0x7F80FF01), (3, 0x00FF0001)]
    s.vecReady (Claims.vecNeeds (.vdiv false 1 2 (.v 3))) = true ∧
    (Claims.vintFlagged s.me (.vdiv false 1 2 (.v 3))).isSome = true ∧
    (Claims.vintFlagged s.me (.vssub false 1 2 (.v 3))).isSome = true := by decide +kernel
theorem witness_FloatVectorResults :
    let s := vecs 2 0 [(2, 0x3F800000), (3, 0x7FC00000)]
    s.vecReady (Claims.vecNeeds (.vfma false 1 2 (.v 3))) = true ∧
    (Claims.velem s.me (.vfma false 1 2 (.v 3))).isSome = true ∧ s.vecCheck p0 s.me (.vfma false 1 2 (.v 3)) = none ∧
    (Claims.velem s.me (.vexp2 false 1 2)).isSome = true ∧ s.vecCheck p0 s.me (.vexp2 false 1 2) = none ∧
    (Claims.velem s.me (.vfcvt false 1 2 2)).isSome = true ∧ s.vecCheck p0 s.me (.vfcvt false 1 2 2) = none ∧
    (Claims.velem s.me (.mtov false 1 2)).isSome = true ∧ s.vecCheck p0 s.me (.mtov false 1 2) = none := by decide +kernel
theorem witness_CompareResults :
    let s := vecs 2 0 [(2, 0x3F800000), (3, 0x7FC00000)]
    s.vecReady (Claims.vecNeeds (.vfclt false 1 2 (.v 3))) = true ∧ (1 : MReg) ≠ 0 ∧
    (Claims.vcompare s.me (.vfclt false 1 2 (.v 3))).isSome = true ∧ s.vecCheck p0 s.me (.vfclt false 1 2 (.v 3)) = none ∧
    (Claims.vcompare s.me (.vceq false 1 2 (.s 3))).isSome = true := by decide +kernel
theorem witness_MaskResults :
    let s := vecs 2 0 []
    (s.bound = true ∧ s.alone = true ∧ (Claims.maskBits s.me (.mskbf false 1 2)).isSome = true ∧
      (Claims.maskBits s.me (.mandn false 1 2 3)).isSome = true) ∧
    s.vecReady [((2 : VReg).val, false)] = true ∧ s.me.vec.vstart0 = 0 := by decide +kernel
theorem witness_PermutationResults :
    let s := vecs 2 0 []
    s.vecReady (Claims.vecNeeds (.vgather false 1 2 (.v 3))) = true ∧ s.me.vec.vl * s.me.sewW ≤ 4096 ∧
    (Claims.permuted s.me (.vgather false 1 2 (.v 3))).isSome = true ∧
    (Claims.permuted s.me (.vcompress false 1 2)).isSome = true ∧ (Claims.permuted s.me (.vinsr false 1 2 3)).isSome = true := by
  decide +kernel
theorem witness_ReductionResults :
    let s := vecs 2 0 [(2, 0x3F800000)]
    let x := s.me.sewW
    (s.vecReady (Claims.vecNeeds (.vredmax false 1 2 (.v 3))) = true ∧ s.me.vec.vstart0 = 0 ∧ x ≤ 64 ∧
      (Claims.reduction x (.vredmax false 1 2 (.v 3))).isSome = true) ∧
    (s.vecReady (Claims.vecNeeds (.vfredsum false 1 2 (.s 3))) = true ∧ s.me.sewFits = true) ∧
    (freduce s.me.fmt s.me.vec.rnd (s.laneCount p0) x
      ((activeIn (s.me.m s.me.vec.vmsel) 0 s.me.vec.vl).map fun e => (e, elem (s.me.v 2) x e))).1 = some 0x3F800000 ∧
    (freduce s.me.fmt s.me.vec.rnd (s.laneCount p0) x []).1 = none ∧
    (s.vecReady (Claims.vecNeeds (.vscan false 1 2)) = true ∧ (1 : VReg) ≠ 2) ∧
    s.vecReady (Claims.vecNeeds (.vextr false 1 2 3)) = true := by decide +kernel
theorem witness_VectorMemoryResults :
    let s := vecsAt 4 0x5FF0
    let m := (vecsAt 0 0x8000).modCore 0 fun x => { x with dcache := [(0x200, ())] }
    (s.vecReady (Claims.vecNeeds (.vld false 1 5)) = true ∧ (Claims.vload s (.vld false 1 5)).isSome = true ∧
      s.vecCheck p0 s.me (.vld false 1 5) = none ∧
      (let f := vform s.me 5 none false 0
       let c := s.vscan p0 s.me f.acc f.addr (activeIn (s.me.m s.me.vec.vmsel) s.me.vec.vstart0 s.me.vec.vl)
       c.good.length = 4 ∧ c.stop = none ∧ ∀ e ∈ c.good, c.st.vwait p0 f.acc e.2 = none ∧ c.st.vpoisoned p0 f.acc e.2 = false)) ∧
    (m.vecReady (Claims.vecNeeds (.vldbc false 1 5)) = true ∧ m.vecCheck p0 m.me (.vldbc false 1 5) = none ∧
      (let f := vform m.me 5 none true 0
       let c := m.vscan p0 m.me f.acc f.addr [0]
       c.good.length = 1 ∧ c.stop = none ∧ ∀ e ∈ c.good, c.st.vwait p0 f.acc e.2 = none ∧ c.st.vpoisoned p0 f.acc e.2 = false)) ∧
    (s.vecCheck p0 s.me (.vst false 1 5) = none ∧ s.releaseWait p0 s.me.vec.scope = none ∧
      (let f := vform s.me 5 none false 1
       let c := (s.releaseEffect p0 s.me.vec.scope).vscan p0 s.me f.acc f.addr
         (activeIn (s.me.m s.me.vec.vmsel) s.me.vec.vstart0 s.me.vec.vl)
       c.stop = none ∧ (∀ e ∈ c.good, c.st.vwait p0 f.acc e.2 = none) ∧
         (c.good.getLast?).map (·.1) = some 3)) := by decide +kernel

/-! ### Matrix unit, rings and copies -/

/-- The formats of a matrix operation, with a tile offset in s4. -/
def mtx (fa fb fc : Nat) (l : SMap Word) : State := up fun t => { t with
  task := { t.task with fmta := BitVec.ofNat 5 fa, fmtb := BitVec.ofNat 5 fb, fmtc := BitVec.ofNat 5 fc }
  scalars := l }
/-- The conditions of a multiplication of h rows, with scales of na and nb elements. -/
def mulReady (s : State) (h na nb : Nat) : Bool :=
  let u := s.me
  let fa := u.task.fmta.toNat
  let fb := u.task.fmtb.toNat
  let t0 := (u.s 4).toNat
  let x := s.core 0
  let rs := if isRns fa then [] else tileRange t0 h ++ scaleRange fa u.offA na ++ scaleRange fb u.offB nb
  pairingOk fa fb u.task.fmtc.toNat && x.mtx.busy.isNone && x.mtx.queue.isEmpty &&
    (rs.all fun r => (x.localWait (some 0) r.1 r.2).isNone && !x.localPoisoned r.1 r.2) &&
    (isRns fa || (t0 % 32 == 0 && decide (t0 + 32 * h ≤ 65536) && scalesClear fa u.offA na && scalesClear fb u.offB nb))
/-- One configured ring of two slots, with some filled. -/
def ringed (filled : Nat) (l : SMap Word) : State :=
  (regs l).modCore 0 fun x => { x with rings := [(3, ⟨0, 1, 1, 2, filled, 0, filled, 0, 0⟩)] }
/-- A copy of 64 B from W to G in one dimension, its descriptor at G + 64. -/
def copyBytes : SMap Byte :=
  [(0x38040 + 16, 0x21), (0x38040 + 17, 0x04), (0x38040 + 32, 64), (0x38040 + 36, 1), (0x38040 + 42, 1)]
def slot (st : CopyState) : CopySlot :=
  ⟨st, ⟨0, 0, 1, 4, 0, 1, none, none, false, false, 0, []⟩, 0, 0, 0, 0, 0, [], [], [], [], 0, 0, []⟩
def copying (busy : Nat) : State := (regs [(2, 64), (3, 1)]).modCore 0 fun x => { x with
  buf := copyBytes, copies := (List.range busy).map fun k => (k, slot .running) }

theorem witness_MatrixProducts :
    let s := mtx 0x04 0x04 0x00 [(4, 0x40)]
    let q := mtx 0x1A 0x1A 0x00 []
    let f := mtx 0x11 0x11 0x01 []
    let kp := (s.core 0).mtx.active.depth 0x04
    let h := 32 * s.laneCount p0 * 8 / (kp * 8)
    (kp = 32 ∧ s.laneCount p0 = 16 ∧ h = 16) ∧ (s.vecReady (groupNeeds 1 1 false ++ [srcReg 3]) = true ∧
      mulReady s h (h * kp) (8 * kp) = true) ∧ (s.core 0).mtx.active.loaded = false ∧
    mulReady q 1 16 128 = true ∧ (s.vecReady (srcReg 2 :: groupNeeds 3 1 false) = true ∧ mulReady s 64 64 8 = true) ∧
    mulReady f 1 8 15 = true ∧ 8 * (1 + 7) ≤ 8 * (32 * s.laneCount p0) := by decide +kernel
theorem witness_MatrixMoves :
    let s := mtx 0x1A 0x1A 0x00 [(4, 0x40)]
    let q := mtx 0x1D 0x1D 0x01 [(4, 0x40)]
    let f := mtx 0x10 0x10 0x01 [(4, 0x40)]
    let i := mtx 0x04 0x04 0x00 [(4, 0x200000040)]
    let free := fun (s : State) (rs : List (Nat × Nat)) =>
      (s.core 0).mtx.busy.isNone && (s.core 0).mtx.queue.isEmpty && rs.all fun r =>
        ((s.core 0).localWait (some 0) r.1 r.2).isNone && !(s.core 0).localPoisoned r.1 r.2
    (s.bound = true ∧ s.vecReady (groupNeeds 1 2 true) = true ∧ free s (tileRange 0x40 32) = true ∧
      (s.me.s 4).toNat % 32 = 0 ∧ (s.me.s 4).toNat + 32 * 32 ≤ 65536) ∧
    free s (tileRange 0x40 16) = true ∧
    (pairingOk 0x1A 0x1A 0 = true ∧ pairingOk 0x1D 0x1D 1 = true ∧ isRns 0x1A = true ∧ isRns 0x1D = true ∧
      q.bound = true ∧ scalesClear 0x1D q.me.offA 241 = true ∧ scalesClear 0x1D q.me.offB 113 = true ∧
      free q (tileRange 0x40 16 ++ scaleRange 0x1D q.me.offA 241 ++ scaleRange 0x1D q.me.offB 113) = true ∧
      scaleOf (q.core 0) 0x1D q.me.offA 0 ≠ .nan) ∧
    (free s [(0x40, 256)] = true ∧ f.bound = true ∧ free f [(0x40, 512)] = true ∧ 0x40 + 512 ≤ 98304) ∧
    (i.bound = true ∧ bits (i.me.s 4).toNat 32 2 = 2 ∧ bits (i.me.s 4).toNat 0 32 % 64 = 0 ∧ containerBits 0x04 = 8 ∧
      free i [(0x40, 256 + 4 * kOf 0x04)] = true) := by decide +kernel
theorem witness_RingResults :
    let s := ringed 1 [(1, 3), (2, 1), (5, 0x40), (6, 0xA0000A0110), (7, 3)]
    let e := ringed 0 [(1, 3), (2, 2)]
    let f := ringed 2 [(1, 3), (2, 1)]
    let r := (s.core 0).ring 3
    s.bound = true ∧ s.me.run = .ready ∧
    (((s.core 0).copies.all fun k => !(k.2.active && (k.2.names 3 true || k.2.names 3 false))) = true ∧
      bits (s.me.s 7).toNat 4 3 < 5 ∧ bits (s.me.s 7).toNat 8 8 = 0) ∧
    (bits (s.me.s 6).toNat 8 8 = 1 ∧ bits (s.me.s 6).toNat 4 3 = 1 ∧ (s.me.s 5).toNat % 64 = 0 ∧
      inBuffer 1 0x40 (64 * (bits (s.me.s 6).toNat 16 10 + 1)) = true) ∧
    ((base.core 0).ring 0).slot = 0 ∧
    (r.slot ≠ 0 ∧ r.filled < 2 ^ 11 ∧ r.prod < 2 ^ 10 ∧ r.cons < 2 ^ 10 ∧ r.space < 8) ∧
    (1 ≤ r.count ∧ 1 ≤ r.filled ∧ 1 ≤ r.count - r.filled ∧ s.releaseWait p0 s.me.vec.scope = none) ∧ r.count < 3 ∧
    (2 ≤ ((e.core 0).ring 3).count ∧ ((e.core 0).ring 3).filled < 2) ∧
    ((f.core 0).ring 3).count - ((f.core 0).ring 3).filled < 1 := by decide +kernel
theorem witness_CopyResults :
    let s := copying 1
    let d := copyDescOf (leNat ((s.core 0).readLocal 0x38040 192))
    s.bound = true ∧ s.me.run = .ready ∧ (s.me.s 3).toNat % 64 ≠ 0 ∧
    ((s.me.s 2).toNat % 64 = 0 ∧ (s.me.s 2).toNat + 192 ≤ 0x6000 ∧ (s.core 0).localWait (some 0) 0x38040 192 = none ∧
      (s.core 0).localPoisoned 0x38040 192 = false) ∧
    (d.sspace = 1 ∧ d.dspace = 4 ∧ d.dims = [⟨64, 1, 1⟩] ∧ d.scope ≠ 7 ∧
      (s.core 0).copyCheck (s.me.s 2) ((s.core 0).copySpaces d).1 d.sring d.src d.sext false = none ∧
      (s.core 0).copyCheck (s.me.s 2) ((s.core 0).copySpaces d).2 d.dring d.dst d.dext true = none) ∧
    (mget (s.core 0).copies 0).map CopySlot.active = some true ∧ mget (s.core 0).copies 1 = none ∧
    ((List.range 4).all fun k => ((mget ((copying 4).core 0).copies k).map CopySlot.active).getD false) = true ∧
    ((slot .running).failing = 0 ∧ (slot .running).sent = [] ∧ (slot .running).reason < 16 ∧ (slot .running).strand < 8) ∧
    (slot .done).active = false := by decide +kernel

/-! ### Routes, remote operations, leases and groups -/

/-- A sealed word of the context, and its bytes at G + 64. -/
def sealed1 : RouteWord := sealWord 0 (route 0x101 4 0 256 0xFF 1 1)
def inG (w : RouteWord) : SMap Byte :=
  ((leBytes 32 w.toNat).zipIdx.filter fun e => e.1 != 0).map fun e => (0x38040 + e.2, e.1)
def wordIn (w : RouteWord) : State := (regs [(2, 64)]).modCore 0 fun x => { x with buf := inG w }
def holding (w : RouteWord) (l : SMap Word) : State :=
  up fun t => { t with routes := [(1, w), (2, w)], scalars := l }
/-- Strand 0 of a manager core at supervisor privilege, with a word in G. -/
def manager (w : RouteWord) (l : SMap Word) : State :=
  let x := base.core 0
  let q : Place := ⟨managerBase, 0⟩
  let s := base.setCore managerBase { x with buf := inG w, strands := [(0, { supStrand base.me with scalars := l })] }
  { s with cur := { s.cur with place := q } }

/-- The 32 bytes at an aligned address of G, of a state whose next instruction may read them. -/
def thereG (s : State) : Bool := (s.me.s 2).toNat == 64 &&
  ((s.core s.cur.place.core).localWait (some 0) 0x38040 32).isNone && !(s.core s.cur.place.core).localPoisoned 0x38040 32
def readG (s : State) : RouteWord := BitVec.ofNat 256 (leNat ((s.core s.cur.place.core).readLocal 0x38040 32))

theorem witness_RouteRegisterResults :
    let s := wordIn sealed1
    let other := wordIn (sealWord 0 (route 0x101 4 0 256 0xFF 2 1))
    (s.bound = true ∧ thereG s = true ∧ readG s = sealed1 ∧ sealed1 ≠ 0 ∧ s.fabricKey = 0 ∧ sealOk 0 sealed1 = true ∧
      wOwner sealed1 = s.ctxOf p0) ∧
    (thereG other = true ∧ sealOk 0 (readG other) = true ∧ wOwner (readG other) ≠ other.ctxOf p0) := by
  decide +kernel
theorem witness_RouteRegisterResults_wld :
    let bad := wordIn (route 0x101 4 0 256 0xFF 1 1)
    (thereG bad = true ∧ readG bad ≠ 0 ∧ bad.fabricKey = 0 ∧ sealOk 0 (readG bad) = false) ∧ readG (wordIn 0) = 0 := by
  decide +kernel
theorem witness_RouteRegisterResults_narrow :
    let h := holding (route 0x101 4 0 256 0xFF 1 1) [(2, 0xFF00001000FF), (3, 0x10005), (4, 6)]
    (h.bound = true ∧ h.me.w 1 ≠ 0 ∧ wOwner (h.me.w 1) = h.ctxOf p0 ∧ wRights (h.me.w 1) &&& rightN = rightN ∧
      wRights (h.me.w 1) &&& rightD = rightD ∧ bits (h.me.s 2).toNat 20 20 = 1 ∧
      bits (h.me.s 2).toNat 0 20 + 1 ≤ wLen (h.me.w 1)) ∧
    (h.me.s 3).toNat.testBit 0 = true := by decide +kernel
theorem witness_RouteRegisterResults_stripe :
    let h := holding (route 0x101 4 0 256 0xFF 1 1) [(4, 6)]
    let mask := (h.me.s 4).toNat % 2 ^ 16 ||| 2 ^ (1 : RReg).val
    mask.testBit 0 = false ∧ maskRegs mask = [1, 2] ∧ (wFlags (h.me.wn 2)).testBit 0 = true ∧ h.me.wn 2 = h.me.w 1 ∧
      h.me.sheaves = [] := by decide +kernel
theorem witness_RouteRegisterResults_mint :
    let m := manager (route 0x101 4 0 256 0xFF 1 1) [(2, 64)]
    base.me.trap.priv = false ∧ isManager 0 = false ∧
    (m.bound = true ∧ m.me.trap.priv = true ∧ isManager m.cur.place.core = true ∧ thereG m = true ∧
      wLen (readG m) ≠ 0 ∧ endpListed (wEndp (readG m)) = true ∧ ∀ q ∈ segments (wPath (readG m)), q.1 < 8) := by
  decide +kernel
theorem witness_RemoteResults :
    let s := up fun t => { t with
      routes := [(1, route 0x101 4 0 256 0xFF 1 0)], scalars := [(2, 8), (3, 0x2000000040), (4, 0x100)]
      vec := { t.vec with vl := 4, vlmaxs := 128, sew := 2 } }
    let m := routed 0x05 8
    let none' := up fun t => { t with scalars := [(2, 8)] }
    let i := base.modCore 0 fun x => { x with inbox := [(3, ⟨0, 0, [1, 2, 3], 0, 1, 9, 3⟩)] }
    let w := s.me.w 1
    (none'.bound = true ∧ none'.sends = true ∧ none'.me.w 1 = 0 ∧ ramoForm 2 1 = true) ∧
    (s.bound = true ∧ s.sends = true ∧ checkRoute w (s.ctxOf p0) 1 rightR [1, 2, 3, 4] 8 8 8 = none ∧
      checkRoute w (s.ctxOf p0) 1 rightW [1, 2, 4] 8 8 8 = none ∧
      checkRoute w (s.ctxOf p0) 1 (rightW + rightF) [4] 8 8 8 = none ∧ checkRoute w (s.ctxOf p0) 1 rightA [4] 8 8 8 = none ∧
      s.releaseWait p0 (pathScope w) = none) ∧
    (s.vecReady [dstReg 3] = true ∧ s.vecReady [srcReg 3] = true ∧
      checkRoute (s.me.wn 1) (s.ctxOf p0) 1 rightR [1, 2, 3, 4] 8 16 4 = none ∧ s.me.sheafOf 1 = [1] ∧
      checkRoute (s.me.wn 1) (s.ctxOf p0) 1 rightW [1, 2, 4] 8 16 4 = none ∧
      activeIn (s.me.m s.me.vec.vmsel) 0 4 = [0, 1, 2, 3] ∧ (chunksOf [0, 1, 2, 3] 0 4 4).length = 1 ∧
      activeIn (base.me.m base.me.vec.vmsel) 0 0 = []) ∧
    (checkHead (m.me.w 1) (m.ctxOf p0) 1 rightS [0x05, 0x85] = none ∧
      checkWindow (m.me.w 1) (unitOff (m.me.w 1) (msgStrand 0)) 1 1 = none ∧ m.releaseWait p0 (pathScope (m.me.w 1)) = none ∧
      bits (s.me.s 3).toNat 32 9 = 32 ∧ bits (s.me.s 3).toNat 0 15 = 0x40 ∧
      (s.core 0).localWait (some 0) 0x38040 32 = none ∧ (s.core 0).localPoisoned 0x38040 32 = false) ∧
    ((s.me.s 4).toNat % 8 = 0 ∧ (s.me.s 4).toNat + 256 ≤ 0x6000 ∧ (s.core 0).oldestFor 0 = none ∧
      ((i.core 0).oldestFor 0).map (·.1) = some 3 ∧ (i.core 0).localWait (some 0) 0x38100 3 = none) := by decide +kernel
/-- A route that leaves by gate 0 over one fibre segment and lands, for WLEASE. -/
def fibreRoute : RouteWord := route (0x500 + 0x641 * 2 ^ 12 + 0x700 * 2 ^ 24) 8 0 1 0x40 1 0
/-- The strand is member 1 of a group of two, number 0, in slot 0; some strands of the core have arrived. -/
def grouped (arrived : List Nat) (l : SMap Word) : State :=
  let s := (up fun t => { t with scalars := l, gslots := [(0, 0)] }).modCore 0 fun x =>
    { x with views := [(0, ⟨0, arrived.map fun k => (k, 0), false, none, []⟩)] }
  let k := { placedKernel with groups := [(0, ⟨[⟨0, 3⟩, ⟨0, 0⟩], false⟩)] }
  { s with kernels := [(0, k)] }
theorem witness_LeaseAndGroupResults :
    let leaseOf := fun (st : LeaseState) => (⟨st, 0, 2, 0, 4, 0, 100, false, 0, 0, [], 0, 0⟩ : Lease)
    let s := up fun t => { t with routes := [(1, fibreRoute)], scalars := [(2, 0x640004), (3, 32)] }
    let all := s.modCore 0 fun x => { x with leases := (List.range 16).map fun h => (h, leaseOf .requested) }
    let g := grouped [] [(3, 0xFFFFFFFF), (5, 0x600)]
    let one := grouped [0] []
    let v := g.core 0
    let m := manager 0 [(2, 0x500500030), (3, 0x1600504030)]
    (checkHead (s.me.w 1) (s.ctxOf p0) 1 rightL anyEndp = none ∧ leasePath (s.me.w 1) = some (2, 0) ∧
      (s.me.s 2).toNat % 32 ≠ 0 ∧ (s.me.s 3).toNat % 32 = 0 ∧ mget (s.core 0).leases 0 = none) ∧
    (((List.range 16).all fun h => ((mget (all.core 0).leases h).map Lease.live).getD false) = true ∧
      checkHead (all.me.w 1) (all.ctxOf p0) 1 rightL anyEndp = none) ∧
    ((leaseOf .active).live = true ∧ (leaseOf .expired).live = false ∧ (mget (all.core 0).leases 0).isSome = true) ∧
    (g.bound = true ∧ g.sends = true ∧ base.me.slotOf 0 = none ∧ g.me.slotOf 0 = some 0 ∧ mhas (v.view 0).arrived 0 = false ∧
      g.releaseWait p0 2 = none ∧ bits (g.me.s 5).toNat 8 3 = 6 ∧
      (BitVec.ofNat 32 (v.view 0).phase - (g.me.s 3).setWidth 32 : BitVec 32).toNat = 1 ∧
      (BitVec.ofNat 32 (v.view 0).phase - (g.me.s 0).setWidth 32 : BitVec 32).toNat = 0 ∧
      ((g.groupOf 0 0).map fun q => q.members.findIdx fun m => m == p0) = some 1) ∧
    (one.me.slotOf 0 = some 0 ∧ mhas ((one.core 0).view 0).arrived 0 = true) ∧
    (base.me.trap.priv = false ∧ isManager 0 = false) ∧
    (m.bound = true ∧ m.sends = true ∧ m.me.trap.priv = true ∧ isManager m.cur.place.core = true ∧
      bits (m.me.s 2).toNat 16 8 < 160 ∧ bits (m.me.s 2).toNat 32 4 = 5 ∧ (m.me.s 2).toNat.testBit 36 = false ∧
      (m.me.s 3).toNat.testBit 36 = true ∧ bits (m.me.s 3).toNat 8 7 = 64 ∧ bits (m.me.s 3).toNat 16 8 = 80 ∧
      bits (m.me.s 3).toNat 32 4 = 6) := by decide +kernel

/-! ### Steps of strands and of the copy engine -/

/-- A step without an encoding, with its operands. -/
def due (s : State) (g : Given) : State := { s with given := g }
def waitsFor (w : Wait) : State := up fun t => { t with run := .waiting, wait := w }
def stalledFor (l : Lack) : State := up fun t => { t with run := .stalled, lack := l }

theorem witness_WaitEndSteps :
    let met : Lack := .bufferStrand
    let ui := up fun t => { t with trap := { t.trap with uieEn := 0x7F, uieOn := true, uip := 1, uivec := 0xA000 } }
    let sl := up fun t => { t with
      run := .waiting, wait := .sleep, trap := { t.trap with uieEn := 0x7F, uieOn := true, uip := 1, uivec := 0xA000 } }
    let bar := waitsFor (.barrier 0 0 0)
    let can := (up fun t => { t with run := .stalled, wait := .cancel 1 }).modCore 0 fun x => { x with
      copies := [(0, slot .cancelled)] }
    let ln := stalledFor (.line 0x200)
    let all := (waitsFor .coreBarrier).modCore 0 fun x => { x with barWaiting := [(0, ())] }
    ((due (stalledFor .loft) (.place p0)).given = .place p0 ∧ ((stalledFor .loft).strand p0).run = .stalled ∧
      ((stalledFor .loft).strand p0).lack = .loft) ∧
    ((stalledFor met).lackMet p0 met = true ∧ ((stalledFor met).strand p0).wait = .none) ∧
    (base.strand p0).run ≠ .unbound ∧
    (((waitsFor .yield).strand p0).run = .waiting ∧ ((waitsFor .yield).strand p0).yieldEnd ≤ (waitsFor .yield).now) ∧
    ((ui.strand p0).run = .ready ∧ (ui.strand p0).interruptDue = true) ∧
    ((sl.strand p0).interruptible = true ∧ (sl.strand p0).wait = .sleep) ∧
    ((base.strand p0).trap.priv = false ∧ (base.strand p0).trap.tvec ≠ 0) ∧
    ((bar.strand p0).run = .waiting ∧ (bar.strand p0).wait = .barrier 0 0 0 ∧ (bar.strand p0).limited = false) ∧
    ((can.strand p0).run = .stalled ∧ (can.strand p0).wait = .cancel 1 ∧
      mget (can.core 0).copies 0 = some (slot .cancelled) ∧ (slot .cancelled).active = false) ∧
    (((ln.core 0).strand 0).run = .stalled ∧ ((ln.core 0).strand 0).lack = .line 0x200) ∧
    ((all.core 0).barrierMet = true ∧
      ((all.core 0).strands.find? (fun e => e.2.run != .unbound)).map (·.1) = some 0) := by
  decide +kernel
/-- A matrix operation with one row still to write, which ends at clk 9. -/
def mtxOp : MtxOp := ⟨0, 9, 4, [.zero (bufBase 3)], [], .none, none⟩
theorem witness_WaitEndSteps_matrix :
    let mx := fun (n : Nat) => { up fun t => { t with run := .parked, wait := .matrix } with now := n }.modCore 0 fun x =>
      { x with mtx := { x.mtx with busy := some mtxOp } }
    (((mx 9).core 0).mtx.busy = some mtxOp ∧ ((mx 9).strand p0).run = .parked ∧ ((mx 9).strand p0).wait = .matrix) ∧
    (mtxOp.endClk ≤ (mx 9).now ∧ mtxOp.rows.all (fun r => ((mx 9).core 0).localWait (some 0) r.range.1 r.range.2 == none)) ∧
    (mx 8).now < mtxOp.endClk := by decide +kernel
theorem witness_WaitEndSteps_recoat :
    let r := waitsFor .recoat
    (r.strand p0).run = .waiting ∧ (r.strand p0).wait = .recoat ∧ (r.strand p0).limited = false ∧
    r.recoating 0 = false ∧ (r.strand p0).trap.priv = false ∧ (r.strand p0).trap.tvec ≠ 0 := by decide +kernel
theorem witness_TrapAndMemorySteps :
    let e := up fun t => { t with pendTrap := [(1, 0x40)] }
    let k := { base with now := 4096 }.modCore 0 fun x => { x with locks := [(2, 0)], lockFrom := [(0, 0)] }
    let d := base.modDie 0 fun x => { x with dirty := [(0x8000, 7)], writers := [(0x200, [0])] }
    ((e.strand p0).pendTrap = [(1, 0x40)] ∧ (e.strand p0).trap.priv = false ∧ (e.strand p0).trap.tvec ≠ 0) ∧
    (due base (.error p0 true 5)).given = .error p0 true 5 ∧ (base.core 0).owner.id ≠ 0 ∧
    (mget (k.core 0).lockFrom 0 = some 0 ∧ 0 + 4096 ≤ k.now ∧ (k.core 0).heldBays 0 ≠ 0 ∧ (k.core 0).kern = some 0 ∧
      mget k.kernels 0 = some placedKernel ∧ placedKernel.state = .running) ∧
    ((stored.core 0).sb = [⟨0, 0x8000, [1], 0, 0⟩] ∧ mhas stored.owned (0x8000 / 64) = false) ∧
    (0x200 < 2 ^ 42 ∧ msorted (d.die 0).dirty = true ∧ mgetD d.lineKey 0x200 0 = 0) ∧
    (due base (.item 0 3)).given = .item 0 3 := by decide +kernel
/-- One command in slot 0 that copies 64 B from W to G. -/
def unit (st : CopyState) (f : CopySlot → CopySlot) : State := base.modCore 0 fun x => { x with
  copies := [(0, f { slot st with desc := { (slot st).desc with dims := [⟨64, 1, 1⟩] }, todo := [0] })] }
def slot0 (s : State) : CopySlot := mgetD (s.core 0).copies 0 (slot .free)
def copied (s : State) : Nat := match (s.copyBytes 0 1 ((slot0 s).unitBytes 0)).2 with | .ok l => l.length | _ => 0

theorem witness_CopyEngineSteps :
    let w := unit .waiting id
    let r := unit .running id
    let done := unit .running fun q => { q with todo := [] }
    let fail := unit .running fun q => { q with failing := 1 }
    ((w.core 0).canStart (slot0 w) = true ∧ (done.core 0).canFinish (slot0 done) = true) ∧
    ((slot0 fail).active = true ∧ (slot0 fail).failing = 1 ∧ (slot0 fail).sent = []) ∧
    ((slot0 r).state = .running ∧ (slot0 r).todo = [0] ∧ (slot0 r).failing = 0 ∧ (slot0 r).cancelBy = [] ∧
      (slot0 r).isRoute = false ∧ (r.core 0).copySpaces (slot0 r).desc = (1, 4) ∧ copied r = 64 ∧
      (slot0 r).reachesLoft (1, 4) 0 = false) ∧
    (64 * 0 < 0x6000 ∧ (r.core 0).lockedAgainst none (bayOf (bufBase 4)) = false ∧
      mhas (r.core 0).scrub (bayOf (bufBase 4)) = false) := by decide +kernel

/-! ### Steps of pages, packets, the fabric, queues, the host and contexts -/

/-- A table entry: frame address and low bits (R352). -/
def pte (frame low : Nat) : Nat := frame / 32768 * 2 ^ 28 + low
/-- Both stages of tables: the system stage maps the first 128 MiB to themselves, and the context stage pages 1 (copy on
write, to frame 0x8000), 2 (the pool, whose first frame is 0x150000) and 3 (writable). -/
def tables : List Host.Cell :=
  [(0x100000, pte 0x108000 1), (0x108000, pte 0x110000 1), (0x110000, pte 0 0x2CF), (0x118000, pte 0x120000 1),
   (0x120000, pte 0x128000 1), (0x128000, pte 0x130000 1), (0x130008, pte 0x8000 0xDF), (0x130010, pte 0x140000 0xCF),
   (0x130018, pte 0x148000 0xCF), (0x140000, 42)].foldl
    (fun m (e : Nat × Nat) => writeBytes m e.1 (leBytes 8 e.2)) []
def paged : State :=
  { base with
    mem := tables, lineKey := [(0x5000, 0)]
    contexts := [(1, { placedContext with
      tbAddr := 0x160000, tb := ⟨0x118000, 0x100000, 0x10000, 4, 0⟩, counters := [(0, 1), (0, 2)] })] }
/-- A service of the page with one waiter. -/
def service (k : ServiceKind) (asked : Bool) : State :=
  (stalledFor (.service 0x8000 1)).modDie 0 fun x => { x with services := [⟨1, 0x8000, k, true, 1, [p0], asked⟩] }
def hits (f : Option Leaf) (addr : Nat) : Bool := f.any fun l => l.addr == addr && l.size == 32768 && pteV l.pte

/-- Every link of the switch of core 0 is DOWN. -/
def severed : State := { base with links := (List.range 4).map fun d => (meshLink 0 (d + 1), ⟨.down, 0, 0, false⟩) }

/-- The frame that a read of the table or of a page frame gives. -/
def gotPa (r : State × Got Nat) : Option Nat := match r.2 with | .ok a => some a | _ => none

theorem witness_PageSteps_services :
    let q : PageReq := ⟨0, 1, 0x8000, .faultIn, 0, true, (0, 0, 0)⟩
    let v := { service .faultIn true with pageReqs := [q] }
    (((stalledFor (.translation 0x8000 0)).strand p0).run = .stalled ∧
      ((stalledFor (.translation 0x8000 0)).strand p0).lack = .translation 0x8000 0 ∧
      base.stationOpen 0 0 1 = true ∧ severed.stationOpen 0 0 1 = false) ∧
    ((((service .cow false).die 0).service 1 0x8000 .cow).map (fun r => (r.waiters, r.asked)) = some ([p0], false) ∧
      ((service .cow false).strand p0).run = .stalled ∧ ((service .cow false).strand p0).lack = .service 0x8000 1 ∧
      (((service .system false).die 0).service 1 0x8000 .system).isSome = true ∧
      ((service .system false).context 1).isSome = true) ∧
    (v.pageReqs.find? fun q => q.die == 0 && q.ctx == 1 && q.va == 0x8000 && q.kind == .faultIn) = some q ∧
    ((v.die 0).service 1 0x8000 .faultIn).map (·.waiters) = some [p0] ∧ (v.strand p0).lack = .service 0x8000 1 := by
  decide +kernel
/-- The paged state with a copy on write waiting, and the unit that serves it. -/
def poolSt : State := paged.modDie 0 fun x => { x with services := [⟨1, 0x8000, .cow, true, 1, [p0], false⟩] }
def poolUnit : Place := serviceUnit 0 1 0x8000 0
/-- The states after the pool's frame is read, and after the translations of the old and of the new frame. -/
def poolGot := poolSt.poolFrame 0 1 poolUnit
def srcGot := poolGot.1.frameXlat 0 1 0x8000 0 poolUnit
def dstGot := srcGot.1.frameXlat 0 1 0x150000 1 poolUnit
theorem got_pair {α β : Type} {r : α × β} {b : β} (h : r.2 = b) : r = (r.1, b) := by cases r; cases h; rfl
theorem witness_PageSteps_copy :
    poolGot = (poolGot.1, .ok 0x150000) ∧ srcGot = (srcGot.1, .ok 0x8000) ∧ dstGot = (dstGot.1, .ok 0x150000) ∧
    dstGot.1.physPoisoned 0x8000 32768 = false ∧
    ((poolSt.die 0).service 1 0x8000 .cow).map (·.asked) = some false ∧ hits (poolSt.leafOf 0 1 0x8000) 0x130008 = true ∧
    (poolSt.leafOf 0 1 0x8000).map (fun l => (pteFrame l.pte, pteCow l.pte, (poolSt.slotOf 0 1 l.pte).bind (·.key))) =
      some (0x8000, true, some 0) ∧
    0x130008 + 8 ≤ 2 ^ 48 :=
  ⟨got_pair (by decide +kernel), got_pair (by decide +kernel), got_pair (by decide +kernel), by decide +kernel⟩
theorem witness_PageSteps_management :
    let w := paged.leafOf 0 1 0x18000
    let d := { base with shootdowns := [⟨1, 0, 1, none, none, none, none⟩] }
    ((due base (.maint 1 0 0 7 0 1 2)).given = .maint 1 0 0 7 0 1 2 ∧ (base.context 1).isSome = true) ∧
    (hits w 0x130018 = true ∧ (w.map fun l => (pteGen l.pte, pteCow l.pte, pteBusy l.pte, pteFrame l.pte)) =
        some (0, false, false, 0x148000) ∧
      gotPa (paged.frameXlat 0 1 0x148000 0 (serviceUnit 0 1 0x18000 2)) = some 0x148000 ∧
      (paged.frameXlat 0 1 0x148000 0 (serviceUnit 0 1 0x18000 2)).1.physPoisoned 0x148000 32768 = false ∧
      (w.bind fun l => (paged.slotOf 0 1 l.pte).bind (·.key)) = some 0 ∧
      ((paged.context 1).bind fun c => mget c.slots 0).bind (·.key) = some 0 ∧ isHost 0x148000 = false) ∧
    ((d.shootdowns.find? fun q => q.ctx == 1 && q.first == 0) = some ⟨1, 0, 1, none, none, none, none⟩ ∧
      ∀ e ∈ d.cores, e.2.owner.id = 1 → e.2.sb = []) := by decide +kernel
theorem witness_PageSteps_skimEvicted :
    let e : Leaf := ⟨0x130018, pte 0x148000 0xCE, 32768⟩
    pteV e.pte = false ∧ pteGen e.pte ≠ 0x3FF := by decide
/-- A packet of strand 0 of core 0 for core 0, under the word of an endpoint. -/
def pkt (endp : Nat) (kind : PKind) (payload : List Byte) : Packet :=
  { word := route 0 endp 0 (if endp = 6 then 4 else 8) 0xFF 1 0, seg := 0, taken := 0, leadx := 0, leady := 0, kind := kind, payload := payload,
    strand := 0, core := 0, module' := 0, wreg := 1, seq := 0, chunk := 0, num := 0, op := 0, ordered := false, ngw := false,
    nport := 0, nmod := 0, nonce := 0, key := 0, damage := 0, vc := 0, loc := .switch 0, target := 0, trail := [], port := none, stamp := 0,
    flagged := false, blockedFrom := 0 }
def arriving (k : Packet) : State := { base with packets := [(7, k)] }
/-- A packet of the strand that has no answer yet. -/
def outing (kind : PKind) (f : Outstanding → Outstanding) (s : State) : State := s.modCore 0 fun x => { x with
  ni := { x.ni with out := [(0, f ⟨pkt 4 kind [], true, 0, false, 0, none, true, none, 0, [], []⟩)] } }
def taskEntry (st : TaskState) (depv : Bool) : TaskEntry := ⟨packet depv, 1, 0, st, 0, none, 0, 0, false, 0, 0⟩
def queueOf (st : TaskState) (depv : Bool) : State := uc fun x => { x with queue := [(5, taskEntry st depv)] }

theorem witness_PacketArrivals_apply :
    let st := arriving (pkt 4 (.rst 0) [1, 2, 3, 4, 5, 6, 7, 8])
    let ld := arriving (pkt 4 (.rld 0) [])
    let msg := arriving (pkt 5 (.send 0 9) [1])
    let z := List.replicate 64 (0 : Byte)
    let post := arriving (pkt 6 (.postw 1) z)
    (mget st.packets 7).isSome = true ∧
    (st.verdict (pkt 4 (.rst 0) [1, 2, 3, 4, 5, 6, 7, 8]) = .apply ∧ st.moduleId = 0 ∧
      (st.core 0).localWait none ((pkt 4 (.rst 0) []).local' 0) 8 = none ∧ wBase (pkt 4 (.rst 0) []).word = 0) ∧
    ld.verdict (pkt 4 (.rld 0) []) = .apply ∧
    (msg.verdict (pkt 5 (.send 0 9) [1]) = .apply ∧ (msg.core 0).inboxTakes 0 = true ∧
      mfree (msg.core 0).inbox inboxSlots = some 0 ∧ ((msg.core 0).strand 0).run = .ready) ∧
    (post.verdict (pkt 6 (.postw 1) z) = .apply ∧ isManager 0 = false ∧ mfree (post.core 0).queue 64 = some 0 ∧
      post.foreignCounter 0 (post.core 0).owner.id (BitVec.ofNat 512 (leNat z)) = false ∧
      ∀ e ∈ (post.core 0).strands, e.2.wait ≠ .take) := by decide +kernel
theorem witness_PacketArrivals_answers :
    let asks := up fun t => { t with run := .stalled, wait := .answer }
    let loads := outing (.rld 0) id (up fun t => { t with run := .stalled, wait := .remote 0 })
    let stores := outing (.rst 0) id base
    let ack := { pkt 4 .ack [] with wreg := 1 }
    ((asks.strand p0).wait = .answer ∧ { ack with word := 0 }.damage = 0) ∧
    (loads.awaited ack = loads.outOf 0 0 ∧ stores.awaited ack = stores.outOf 0 0) ∧
    ((loads.outOf 0 0).map (fun o => o.pkt.kind) = some (.rld 0) ∧ (loads.strand p0).wait = .remote 0 ∧
      msorted (loads.core 0).ni.out = true ∧ ((loads.core 0).ni.out.all fun e => e.1 == 0) = true ∧
      (pkt 4 (.resp 0) []).word ≠ 0) ∧
    ((stores.outOf 0 0).map (fun o => o.pkt.kind) = some (.rst 0) ∧
      (stores.outOf 0 0).map (fun o => o.pkt.wreg) = some 1 ∧ (stores.strand p0).run ≠ .unbound ∧
      (stores.outOf 0 0).map (fun o => o.nacks) = some 0 ∧ nextMember [] 1 = none) := by decide +kernel
theorem witness_PacketArrivals_resent :
    let back := outing (.rst 0) (fun o => { o with resendAt := some 0, inFlight := false }) base
    let late := { outing (.rst 0) id base with now := 24000 }
    ((back.outOf 0 0).map (fun o => o.resendAt) = some (some 0) ∧ (back.core 0).owner.frozen = false ∧
      (back.core 0).ni.nonce < 2 ^ 64 - 1) ∧
    ((late.outOf 0 0).map (fun o => (o.inFlight, o.got, o.timerFrom)) = some (true, none, 0) ∧ 0 + 24000 ≤ late.now ∧
      (walkPath (wPath (pkt 4 .ack []).word) (wEndp (pkt 4 .ack []).word)).isSome = true) := by decide +kernel
theorem witness_PacketArrivals_parked :
    let shut := base.modDie 0 fun x => { x with faultQueue := [pkt 4 (.rst 0) []] }
    let sends := queueOf .moving false
    let many := uc fun x => { x with queue := (List.range 64).map fun n => (n, taskEntry .eligible false) }
    (sends.entry 0 5 = some (taskEntry .moving false) ∧ mfree (base.core 0).queue 64 = some 0 ∧
      mfree (many.core 0).queue 64 = none) ∧
    ((shut.die 0).faultQueue = [pkt 4 (.rst 0) []] ∧ (pkt 4 (.rst 0) []).module' = shut.moduleId) ∧
    ((taskEntry .moving false).stores ≤ (sends.core 0).drains ∧ (sends.core 0).queue = [(5, taskEntry .moving false)]) := by decide +kernel

/-- A packet under a sealed word, and one under the sealed word of the fibre route, at a segment of it. -/
def meshPkt : Packet := { pkt 4 (.rst 0) [] with word := sealWord 0 (route 0x102 4 0 8 0xFF 1 0) }
def fibrePkt (seg : Nat) (kind : PKind) : Packet :=
  { pkt 4 kind [] with word := sealWord 0 fibreRoute, seg := seg, loc := .gateway }
def leaseOf (st : LeaseState) : Lease := ⟨st, 0, 2, 0, 4, 2, 100, false, 0, 0, [768], 3, 5⟩
def leasing (st : LeaseState) : State := uc fun x => { x with leases := [(1, leaseOf st)] }
/-- What the switch's hop of a packet is, by its direction. -/
def hopDir (k : Packet) : Nat := match k.hop with | .mesh d _ => d | _ => 0

theorem witness_FabricAndLeaseSteps_mesh :
    let s := arriving meshPkt
    let fixed := { meshPkt with word := 0, leadx := 2 }
    s.level3 = false ∧ s.fabricKey = 0 ∧ s.isHead 7 meshPkt = true ∧ meshPkt.retraces = false ∧
    sealOk 0 meshPkt.word = true ∧ sealOk 0 (pkt 4 (.rst 0) []).word = false ∧
    (arriving (pkt 4 (.rst 0) [])).isHead 7 (pkt 4 (.rst 0) []) = true ∧
    (s.mergeArrival 7 meshPkt).isNone = true ∧ hopDir meshPkt = 1 ∧ (s.link (meshLink 0 1)).state = .up ∧
    linkBetween (.switch 0) (.switch (nextSwitch 0 1)) = some (meshLink 0 1) ∧
    fixed.leadHop.map (·.1) = some 1 ∧ (arriving fixed).isHead 7 fixed = true ∧
    meshPkt.loc = .switch 0 ∧ ({ s with level3 := true } : State).level3 = true := by decide +kernel
theorem witness_FabricAndLeaseSteps_answer :
    let k := { pkt 4 .ack [] with vc := 1, trail := [.switch 1] }
    let e := { k with trail := [] }
    k.retraces = true ∧ (arriving k).isHead 7 k = true ∧ linkBetween (.switch 0) (.switch 1) = some (meshLink 0 1) ∧
    ((arriving k).link (meshLink 0 1)).state = .up ∧ (arriving e).isHead 7 e = true ∧ e.vc ≠ 3 := by decide +kernel
theorem witness_FabricAndLeaseSteps_gateway :
    let k := fibrePkt 1 (.rst 0)
    let s := arriving k
    let w := fibreRoute
    let l := fibrePkt 2 (.rst 0)
    let m := fibrePkt 1 (.wlease 1 5)
    (sealOk 0 k.word = true ∧ (k.ngw && k.nmod != s.moduleId) = false ∧ s.isHead 7 k = true ∧ s.level3 = false ∧
      (k.skipped 10).seg = 1 ∧ (l.skipped 10).seg = 2) ∧
    (segDir (wPath w) 1 = 6 ∧ segCount (wPath w) 1 = 65 ∧ s.chooseChannel (k.skipped 10) 2 0 = .take 768 ∧
      (s.link (fibreLink 24)).state = .up) ∧
    (segDir (wPath w) 2 = 7 ∧ segCount (wPath w) 2 = 0 ∧ ((arriving l).link (portInLink 0 0)).state = .up ∧
      (arriving l).isHead 7 l = true ∧ (walkPath (wPath w) (wEndp w)).isSome = true) ∧
    ((arriving m).isHead 7 m = true ∧ sealOk 0 m.word = true) := by decide +kernel
theorem witness_FabricAndLeaseSteps_links :
    let l := fun (n : Nat) => ({ base with links := [(5, ⟨.up, 0, n, false⟩)] } : State)
    let c := arriving { pkt 4 (.rst 0) [] with flagged := true }
    let k := base.modCore 0 fun x => { x with ni := { x.ni with sink := [pkt 4 (.rst 0) []] } }
    let r := route 0x102 4 0 8 0xFF 1 0
    let p := { pkt 4 (.rst 0) [] with port := some (.switch 1) }
    (p.vc ≠ 3 ∧ p.queued = true ∧ ({ arriving p with now := 4096 } : State).isHead 7 p = true ∧
      0 + 4096 ≤ ({ arriving p with now := 4096 } : State).now) ∧
    (({ base with links := [(5, ⟨.narrowed, 0, 0, false⟩)] } : State).link 5).state ≠ .up ∧
    (((l 0).link 5).failures < 15 ∧ 15 ≤ ((l 15).link 5).failures ∧ ((l 15).link 5).state = .up) ∧
    (mget ((holding r []).strand p0).routes 1 = some r ∧ sameEnd 0x102 (wPath r) (wEndp r) = true ∧
      sameEnd 0x101 (wPath r) (wEndp r) = false ∧ bit base.duty 2 = false ∧ bit ({ base with duty := 4 } : State).duty 2 = true) ∧
    (c.tokenBusy = false ∧ (c.tokenChoice 0).map (·.1) = some 7 ∧ base.tokenBusy = false ∧
      (base.tokenChoice 0).isNone = true) ∧
    (k.core 0).ni.sink = [pkt 4 (.rst 0) []] := by decide +kernel
theorem witness_FabricAndLeaseSteps_leases :
    let q := leasing .requested
    let s := { q with fifos := [(2, [(0, 1)])] }
    let d := { s with absent := [(s.moduleAt s.moduleId 2 1, ())] }
    let g := { leasing .granted with leased := [(768, 1, 3, 0)] }
    let a := leasing .active
    (q.lease 0 1 = some (leaseOf .requested) ∧ (0, 1) ∉ mgetD q.fifos 2 [] ∧ (leaseOf .requested).dir = 2 ∧
      (leaseOf .requested).reqNo = 5) ∧
    ((mgetD s.fifos 2 []).head? = some (0, 1) ∧ s.indexAbsent 2 0 = false ∧ bit s.duty 4 = false ∧ s.grantable 2 0 4 ≠ 0 ∧
      s.grantable 2 0 0 = 0 ∧ bit ({ s with duty := 16 } : State).duty 4 = true ∧ s.dutyReqs = []) ∧
    d.indexAbsent 2 0 = true ∧
    (a.lease 0 1 = some (leaseOf .active) ∧ (leaseOf .active).endClk ≤ a.now) ∧
    (leaseOf .requested).reqClk + (leaseOf .requested).term * 1500 ≤ ({ q with now := 150000 } : State).now ∧
    ((g.leased.filter fun e => e.2.2.1 == 3).head? = some (768, 16 * 0 + 1, 3, 0) ∧ (leaseOf .granted).grantNo = 3) ∧
    (mfind (fun _ (l : Lease) => l.grantNo == 3 && l.state == .reclaiming) ((leasing .reclaiming).core 0).leases).map (·.1) =
      some 1 := by decide +kernel
theorem witness_FabricAndLeaseSteps_starve :
    let l := { leaseOf .active with endClk := 1 }
    let s := uc fun x => { x with leases := [(1, l)] }
    (s.cores.all fun e => e.2.leases.all fun f => f.2.state != .reclaiming) = true ∧ s.reclaimable 2 0 = [(0, 1, l)] ∧
    s.lease 0 1 = some l ∧ s.now < l.endClk := by decide +kernel

def withCounter (v : Nat) : State := base.modDie 0 fun x => { x with counters := [(3, ⟨v, 1⟩)] }
def open' : Barrier := ⟨.opened, 4, 2, [], [], 0, 0, none⟩
def barred (b : Barrier) (k : Packet) : State := (arriving k).modCore 0 fun x => { x with barriers := [(0, b)] }
def one : Arrival := .one p0 none
def limitedAt (kind : Nat) : State := up fun t => { t with run := .waiting, wait := .barrier 0 kind 0, limited := true }

theorem witness_QueueAndBarrierSteps_counters :
    let e := taskEntry .eligible false
    let old := { (queueOf .eligible false) with now := 750000 }
    let two := base.modCore 1 fun x => { x with tag := 0, kern := some 0 }
    let cmd := queueOf .eligible false
    let asks := { taskEntry .waiting true with arming := some 7 }
    let armed := uc fun x => { x with queue := [(5, asks)] }
    ((due base (.counter 0 3 1 0 5)).given = .counter 0 3 1 0 5 ∧
      (queueOf .waiting true).entry 0 5 = some (taskEntry .waiting true) ∧
      (armed.core 0).armed 7 = some (5, asks) ∧ asks.state = .waiting ∧
      ((queueOf .waiting true).core 0).strands.all (fun e => e.2.wait != .take) = true ∧
      WorkPacket.depctr (taskEntry .waiting true).packet = 0) ∧
    ((withCounter 2).counterAt 0 3 = ⟨2, 1⟩ ∧ ((waitsFor .answer).strand p0).wait = .answer) ∧
    (old.entry 0 5 = some e ∧ e.prio ≠ 0 ∧ e.stamp + 750000 ≤ old.cycle ∧ e.state ≠ .moving) ∧
    (bit base.duty 3 = false ∧ msorted base.cores = true ∧ bit ({ base with duty := 8 } : State).duty 3 = true) ∧
    ((base.core 0).tag ≠ (base.core 1).tag ∧ (two.core 0).tag = (two.core 1).tag ∧ (cmd.core 0).kern.isSome = true ∧
      (cmd.core 0).queue = [(5, e)] ∧ e.movable = true) := by decide +kernel
theorem witness_QueueAndBarrierSteps_barrier :
    let a : Packet := pkt 7 (.arrive 0 4 one) []
    let r : Packet := pkt 7 (.release 0 5 none) []
    let w : Packet := pkt 7 (.watch 0 p0) []
    let d : Packet := pkt 7 (.withdraw 0 p0 false) []
    ((barred open' a).verdict a = .apply ∧ mget ((barred open' a).core 0).barriers 0 = some open' ∧
      open'.state ≠ .released ∧ one.keep (fun p => !open'.has 4 p) = some one) ∧
    ((waitsFor (.barrier 0 0 0)).parked r.target = false ∧ r.kind = .release 0 5 none ∧ ((waitsFor (.barrier 0 0 0)).strand ⟨0, 0⟩).run = .waiting) ∧
    ((barred open' w).verdict w = .apply ∧ w.module' = (barred open' w).moduleId) ∧
    (((waitsFor (.barrier 0 1 0)).strand p0).wait = .barrier 0 1 0 ∧ phasePast 5 0 = true) ∧
    (mget ((barred open' a).portCore 0).barriers 0 = some open' ∧ (barred open' d).verdict d = .apply ∧
      ({ open' with counted := [one] }).holds p0 = true ∧ open'.holds p0 = false) ∧
    (((limitedAt 0).strand p0).run = .waiting ∧ ((limitedAt 0).strand p0).limited = true ∧
      ((limitedAt 0).strand p0).trap.priv = false ∧ ((limitedAt 0).strand p0).trap.tvec ≠ 0) ∧
    mget ((barred { open' with state := .released } a).portCore 0).barriers 0 = some { open' with state := .released } := by
  decide +kernel

/-- A host request from its words, at the head of an enabled interface of the physical function. -/
def request (ws : List Nat) : List Byte := ((ws ++ List.replicate 8 0).take 8).map (leBytes 8) |>.flatten
def hosted (b : List Byte) (isPf : Bool) (s : State) : State :=
  { s with given := .request 0 0 b
           hostQueues := [(0, ⟨1, 0x4000, 4, true, 0x8000, 1, 0, true, if isPf then 0 else 1, [(0, b)]⟩)] }
/-- The page tables, and at 0x18000 a descriptor of one core with one strand, ENTRY 0x8000 and TVEC 0x9000. -/
def described : State := { paged with
  mem := [(0x148008, 0x8000), (0x148010, 0x9000), (0x148018, 1)].foldl
    (fun m (e : Nat × Nat) => writeBytes m e.1 (leBytes 8 e.2)) tables }
def launching : State :=
  let s := described.modCore 0 fun x => { x with kern := none, strands := [] }
  { s.modDie 0 fun x => { x with launches := [⟨1, 0x18000, none, false, none, none⟩] } with given := .die 0 }
def kernelIs (st : KernState) (l : List (Place × Word × Word)) (strands : SMap Strand) : State :=
  let s := described.modCore 0 fun x => { x with strands := strands }
  { s with given := .kernel 0, kernels := [(0, { placedKernel with state := st, rendezvous := l })] }
/-- The descriptor and tables that a die's unit reads, when it can. -/
def programOf (r : State × Got Desc) (ctx : Nat) (who : Place) : Option (State × Program) :=
  match r with
  | (s, .ok x) => (match s.readTables 0 ctx x who with
    | (s', .ok p) => some (s', p)
    | _ => none)
  | _ => none
def readOk (r : State × Got (List Byte)) : Option (State × List Byte) :=
  match r with
  | (s, .ok b) => some (s, b)
  | _ => none

theorem witness_HostAndKernelSteps_registers :
    let q := fun (e : Bool) => { base with hostQueues := [(9, ⟨0, 0x4000, 4, e, 0, 0, 0, true, 0, []⟩)] }
    ((q false).queue 9).enable = false ∧ (((q true).queue 9).enable = true ∧ (q true).needsStart = false) ∧
    8 * 1 + 1 = 9 ∧ 1 < 2 ∧ 1 < 8 ∧ base.holdsCommands = false := by decide +kernel
theorem witness_HostAndKernelSteps_requests :
    let r := fun (ws : List Nat) => hosted (request ws) true described
    let launch := request [1, 0x18000, 1]
    let post := request [2, 0, 0x18040]
    let set := request [3, 3 * 2 ^ 16, 7]
    let bal := request [4, 1 * 2 ^ 20 + 2 ^ 40]
    let duty := request [5, 4, 2]
    ((r [1]).queue 0).todo = [(0, request [1])] ∧ reqBits (request [0]) 0 0 8 = 0 ∧
    (reqBits (request [0x50001]) 0 0 8 = 1 ∧ (r []).pasidBound (reqPasid (request [0x50001])) = false) ∧
    (reqBits (request [6]) 0 0 8 = 6 ∧ (r []).pasidBound (reqPasid (request [6])) = true ∧
      ((hosted (request [6]) false described).queue 0).fn = 1 ∧ ((r []).queue 0).fn = 0) ∧
    (reqBits launch 0 0 8 = 1 ∧ (r []).pasidOwns (reqPasid launch) (reqBits launch 16 0 16) = true) ∧
    (reqBits post 0 0 8 = 2 ∧ postCore post = some 0 ∧ (r []).pasidOwns (reqPasid post) ((r []).core 0).owner.id = true ∧
      reqBits post 16 0 64 % 64 = 0 ∧ mfree ((r []).core 0).queue 64 = some 0 ∧ (r []).parked 0 = false ∧
      Claims.ctxState (r []) 1 = some .locked ∧ ((r []).core 0).owner.id = 1 ∧
      Claims.ctxState { r [] with contexts := [(1, { placedContext with state := .scrubbing })] } 1 = some .scrubbing) ∧
    (reqBits set 0 0 8 = 3 ∧ reqBits set 8 16 12 = 3 ∧
      ({ described with dies := [(0, { Die.reset with counters := [(3, ⟨0, 1⟩)] })] } : State).pasidOwns (reqPasid set) 1 = true) ∧
    (reqBits bal 0 0 8 = 4 ∧ balanceList bal = [⟨0, 1, 1⟩] ∧ balanceList (request [4, 2 ^ 40]) = [⟨0, 0, 1⟩] ∧
      (r []).pasidOwns (reqPasid (request [4, 2 ^ 40])) ((r []).core 0).owner.id = true) ∧
    (reqBits duty 0 0 8 = 5 ∧ reqBits duty 8 0 64 = 4 ∧ mget (r []).dutyReqs 4 = none ∧ reqBits duty 16 0 5 = 2) ∧
    (reqBits (request [6, 16]) 8 0 5 = 16 ∧ reqBits (request [7, 0, 0x10000]) 16 0 48 = 0x10000 ∧ 0x8000 + 16 ≤ 0x10000) := by
  decide +kernel
theorem witness_HostAndKernelSteps_post :
    let s := hosted (request [2, 0, 0x18040]) true described
    ((readOk (s.unitRead 0 1 0x18040 64 (queueUnit 0 0))).map fun e =>
      (e.2.length, e.1.foreignCounter 0 1 (BitVec.ofNat 512 (leNat e.2)), (e.1.queue 0).todo.length,
        (e.1.core 0).strands.all fun e => e.2.wait != .take)) = some (64, false, 1, true) := by decide +kernel
theorem witness_HostAndKernelSteps_launch :
    let began := launching.modDie 0 fun x => { x with launches := [⟨1, 0x18000, none, true, none, none⟩] }
    (launching.die 0).launches = [⟨1, 0x18000, none, false, none, none⟩] ∧
    ((programOf (began.readDesc 0 1 0x18000 (launchUnit 0)) 1 (launchUnit 0)).map fun e =>
      (e.1.launchFault 1 e.2, e.1.freeTag, e.2.desc.plot, e.2.desc.strands, e.2.desc.entry)) =
      some (none, some 0, [0], 1, 0x8000) := by decide +kernel
theorem witness_HostAndKernelSteps_retire :
    let s := kernelIs .retiring [] []
    mget s.kernels 0 = some { placedKernel with state := .retiring } ∧ placedKernel.cmpl = 0 ∧ s.boundOf 0 = [] ∧
    s.plotOf 0 = [0] ∧ (s.core 0).drained = true ∧ placedKernel.recorded = false ∧ placedKernel.doneSignal = none ∧
    (s.plotOf 0 ≠ []) := by
  decide +kernel
/-- The record is written and the decrement of DONECTR has been made. -/
theorem witness_HostAndKernelSteps_retired :
    let q : Kernel := { placedKernel with state := .retiring, recorded := true, done := some (0, 3) }
    let s : State := { kernelIs .retiring [] [] with kernels := [(0, q)] }
    mget s.kernels 0 = some q ∧ q.cmpl = 0 ∧ s.boundOf 0 = [] ∧ s.plotOf 0 = [0] ∧ (s.core 0).drained = true ∧
    q.doneSignal.isSome = true ∧ s.agenda = [] := by decide +kernel
theorem witness_HostAndKernelSteps_recoat :
    let s := kernelIs .recoating [(p0, 0x18000, 1)] [(0, { placedStrand with run := .waiting, wait := .recoat })]
    let q : Kernel := { placedKernel with state := .recoating, rendezvous := [(p0, 0x18000, 1)] }
    mget s.kernels 0 = some q ∧ q.cmpl = 0 ∧ q.successor = none ∧ q.spansDies = false ∧ (s.core 0).recoatDrained = true ∧
    ((programOf (s.readDesc 0 1 0x18000 (kernelUnit 0 0)) 1 (kernelUnit 0 0)).map fun e =>
      (e.1.successorOk q e.2, (e.1.cancelForRecoat [0] (1 &&& e.2.desc.accept) e.2).cancelling [0])) = some (true, false) := by
  decide +kernel

theorem witness_HostAndKernelSteps_duty :
    let s := { hosted (request [5, 4, 2]) true (leasing .requested) with
      dutyReqs := [(4, .lease 0 1 2 0 2 1), (6, .mint p0 1 fibreRoute false)] }
    s.lease 0 1 = some (leaseOf .requested) ∧ mget s.dutyReqs 4 = some (.lease 0 1 2 0 2 1) ∧
    (reqBits (request [5, 4, 2]) 16 0 5 ≤ 2 ∧ ¬ 2 < reqBits (request [5, 4, 2]) 16 0 5 ∧
      2 < reqBits (request [5, 4, 3]) 16 0 5 ∧ reqBits (request [5, 4, 0]) 16 0 5 = 0) ∧
    (mget s.dutyReqs 6 = some (.mint p0 1 fibreRoute false) ∧ s.templateFits fibreRoute fibreRoute = true ∧
      s.templateFits fibreRoute 0 = false ∧ (s.strand p0).run ≠ .unbound) := by decide +kernel

/-- The context in a state, with a migration record of one direction. -/
def ctxIn (st : CtxState) (out verified : Bool) (parcel : Option Parcel) (f : State → State) : State :=
  f { base with
    contexts := [(1, { placedContext with state := st, saved := [(0, base.core 0)] })]
    migrations := [(1, ⟨out, 3, [], none, verified, verified, 0, parcel⟩)] }
def parcel1 : Parcel := ⟨placedContext, [], [], []⟩
def emptied (s : State) : State := { s with cores := [] }
def unbound1 (s : State) : State := { s with cores := [(0, { Core.reset with owner := (base.core 0).owner })] }

theorem witness_ContextAndManagementSteps_lock :
    State.reset.lockable 1 [⟨0, 0, 1, 0⟩] [] = true ∧ State.reset.holdsCommands = false ∧
    State.reset.lockable 0 [⟨0, 0, 1, 0⟩] [] = false := by decide +kernel
theorem witness_ContextAndManagementSteps_unlock :
    let s := ctxIn .scrubbing false false none unbound1
    let e := ctxIn .scrubbing false false none emptied
    Claims.ctxState base 2 = none ∧ Claims.ctxState base 1 = some .locked ∧ base.holdsCommands = false ∧
    (Claims.ctxState s 1 = some .scrubbing ∧ s.coresOf 1 = [0] ∧ s.inFlightFrom 0 = false ∧ (s.core 0).sb = [] ∧
      (s.core 0).mtx.busy = none ∧ (s.core 0).kern = none) ∧ e.coresOf 1 = [] := by decide +kernel
theorem witness_ContextAndManagementSteps_suspend :
    let s := base.modCore 0 fun x => { x with
      stopping := true, strands := [(0, { placedStrand with run := .waiting, wait := .sleep })] }
    s.coresOf 1 = [0] ∧ (s.core 0).stopping = true ∧ (s.core 0).suspendable = true ∧
    (s.kernels.all fun e => e.2.state != .recoating) = true := by decide +kernel
theorem witness_ContextAndManagementSteps_migration :
    let outg := ctxIn .migratingOut true false none unbound1
    let inc := ctxIn .migratingIn false true (some parcel1) emptied
    let late := { inc with now := 15000000 }
    let fresh := ctxIn .migratingIn false false none emptied
    (Claims.ctxState outg 1 = some .migratingOut ∧ (mget outg.migrations 1).isSome = true) ∧
    (Claims.ctxState inc 1 = some .migratingIn ∧
      (mget inc.migrations 1).map (fun g => (g.outgoing, g.verified)) = some (false, true) ∧
      (mget inc.migrations 1).map (fun g => g.parcel) = some (some parcel1)) ∧
    (mget late.migrations 1).map (fun g => (g.confirmed, g.lastClk + 15000000)) = some (true, late.now) ∧
    (mget fresh.migrations 1).map (fun g => (g.outgoing, g.verified)) = some (false, false) := by decide +kernel
theorem witness_ContextAndManagementSteps_restore :
    let s := ctxIn .suspended false false none unbound1
    let x : Context := { placedContext with state := .suspended, saved := [(0, base.core 0)] }
    s.holdsCommands = false ∧ s.context 1 = some x ∧ s.restorable 1 x (movedTo []) = true ∧ s.movesWhole 1 [] = true ∧ (s.core 0).owner.id = 1 ∧
    ((base.core 0).strand 0).run = .ready := by decide +kernel
theorem witness_ContextAndManagementSteps_peer :
    let s := { ctxIn .suspended false false none unbound1 with transfer := [(3, 0)] }
    (Claims.ctxState s 1 = some .suspended ∧ mhas s.transfer 3 = true) ∧
    ((2 : Nat) ≠ 0 ∧ 2 < 0xFFFF ∧ (s.context 2).isNone = true) := by decide +kernel
/-- A chunk of four bytes under key 0, and a module that expects it from module 3. -/
def cipher1 : List Nat := Gcm.crypt 0 (chunkNonce 1) [1, 2, 3, 4]
def receiving (b : Given) : State := { ctxIn .migratingIn false false none emptied with transfer := [(3, 0)], given := b }
/-- The manifest that lists that chunk alone. -/
def manifest1 : List Nat := Gcm.crypt 0 (chunkNonce 2) (manifestBytes [Gcm.tag 0 (chunkNonce 1) [] cipher1])
theorem witness_ContextAndManagementSteps_chunk :
    let fits := receiving (.chunk 1 1 false cipher1 (Gcm.tag 0 (chunkNonce 1) [] cipher1) none)
    let whole : Migration := ⟨false, 3, [(1, (Gcm.tag 0 (chunkNonce 1) [] cipher1, [1, 2, 3, 4]))], none, false, false, 0, none⟩
    (fits.context 1).map (·.state) = some .migratingIn ∧
    (mget fits.migrations 1).map (fun g => (g.outgoing, g.verified, mget fits.transfer g.peer)) = some (false, false, some 0) ∧
    Gcm.tag 0 (chunkNonce 1) [] cipher1 ≠ [] ∧
    whole.complete 2 (Gcm.crypt 0 (chunkNonce 2) manifest1) (some { parcel1 with bytes := [1, 2, 3, 4] }) = true ∧
    whole.complete 2 [] (some parcel1) = false := by decide +kernel
theorem witness_ContextAndManagementSteps_exchange :
    (due base (.exchange 3 true)).given = .exchange 3 true ∧ (due base (.offer 2 3 0 0 7)).given = .offer 2 3 0 0 7 := by
  decide +kernel
theorem witness_ContextAndManagementSteps_start :
    let s := { base with contexts := [(1, { placedContext with state := .suspended })], manifests := [(base.fwActive, 7)] }
    s.imageOk s.bootSlot = true ∧ s.level3 = false ∧ s.needsStart = false ∧ mget s.manifests s.fwActive = some 7 ∧
    s.shootdowns = [] ∧ s.starting = false ∧ ∀ e ∈ s.contexts, e.2.state = .suspended := by decide +kernel
theorem witness_ContextAndManagementSteps_given :
    (due base (.alarm 2 [1])).given = .alarm 2 [1] ∧ (due base (.sensor 0 (.temperature 106))).given = .sensor 0 (.temperature 106) ∧
    (Reading.temperature 106).level = 2 ∧ (Reading.temperature 95).level = 0 ∧ (Reading.temperature 96).level = 1 ∧
    (Reading.temperature 115).level = 2 ∧ (Reading.temperature 116).level = 3 ∧
    (due base (.duty 0x1FF)).given = .duty 0x1FF ∧ (due base (.start true [] [] [] [] 7 none)).given = .start true [] [] [] [] 7 none ∧
    (due base (.start true [] [] [] [] 7 (some (0x8000, [1])))).given = .start true [] [] [] [] 7 (some (0x8000, [1])) ∧ (due base (.firmware 1 2 3 true)).given = .firmware 1 2 3 true := by
  decide +kernel

/-! ### Ill-formed terms are refused (R28, R36, R224) -/

theorem test_mask_destination_m0_refused :
    ([.vceq false 0 1 (.v 2), .vcne false 0 1 (.v 2), .vclt false 0 1 (.v 2), .vcltu false 0 1 (.v 2), .vcle false 0 1 (.v 2),
      .vcleu false 0 1 (.v 2), .vcgt false 0 1 (.v 2), .vcgtu false 0 1 (.v 2), .vfceq false 0 1 (.v 2),
      .vfclt false 0 1 (.v 2), .vfcle false 0 1 (.v 2), .vfcun false 0 1 (.v 2), .mand false 0 1 2, .mor false 0 1 2,
      .mxor false 0 1 2, .mandn false 0 1 2, .mnot false 0 1, .mskft false 0 1, .mskbf false 0 1,
      .mfromv false 0 1] : List Instr).all (fun i => !i.wf) = true := by decide
theorem test_unlisted_csr_refused :
    ([.csrr 1 0x00B, .csrw 1 2 0x017, .csrs 1 2 0x033, .csrc 1 2 0x7FF] : List Instr).all (fun i => !i.wf) = true := by decide
theorem test_ramo_cas_pair_refused :
    ([.ramo 1 1 2 2, .ramo 31 1 2 2] : List Instr).all (fun i => !i.wf) = true ∧ (Instr.ramo 30 1 2 2).wf = true := by decide

/-! ### Words and results that the spec prints -/

/-- Words of the tables and examples of spec/05, 08 and 09. -/
theorem test_printed_words :
    decode 0x12280092 = .ok (.lui 5 0x92) ∧ decode 0x0428BABC = .ok (.addi 5 5 0x1ABC) ∧
    decode 0x6400A000 = .ok (.mlds 5) ∧ decode 0x64000002 = .ok .mswap ∧ decode 0x5600A300 = .ok (.ringcfg 5 6) ∧
    decode 0x5638A005 = .ok (.rstat 7 5) ∧ decode 0x54384192 = .ok (.mslide 7 2 3 2) ∧
    decode 0x5A206282 = .ok (.wnarrow 4 3 5) ∧ decode 0x5C388304 = .ok (.rst 7 4 6) := by decide
/-- R9: the sum wraps to 64 bits. -/
theorem test_add_wraps : (match exec (.add 7 5 5) (regs [(5, 0x7FFFFFFFFFFFFFFF)]) with
    | .next t => t.me.s 7 | _ => 0) = 0xFFFFFFFFFFFFFFFE := by decide +kernel
/-- R120: the corners of division. -/
theorem test_division_corners :
    (match exec (.div 3 1 2) (regs [(1, 0x8000000000000000), (2, -1)]) with | .next t => t.me.s 3 | _ => 0) =
      0x8000000000000000 ∧
    (match exec (.remu 3 1 2) (regs [(1, 7)]) with | .next t => t.me.s 3 | _ => 0) = 7 := by decide +kernel
/-- G with the word of the atomic example at 0x200. -/
def amoState (v : Byte) (s6 : Word) : State :=
  (regs [(4, 5), (5, 0xFF00000004000200), (6, s6)]).modCore 0 fun x => { x with buf := [(0x38200, v)] }
def amoGives (i : Instr) (s : State) : Word × Byte :=
  match exec i s with | .next t => (t.me.s 6, (t.core 0).readLocalByte 0x38200) | _ => (0, 0)
/-- The atomic example of spec/06: AMOADD, a failing and a succeeding AMOCAS. -/
theorem test_atomics_of_the_example :
    amoGives (.amoadd 6 5 4 true) (amoState 0x10 0) = (0x10, 0x15) ∧
    amoGives (.amocas 6 5 4 true) (amoState 0x15 0x10) = (0x15, 0x15) ∧
    amoGives (.amocas 6 5 4 true) (amoState 0x15 0x15) = (0x15, 5) := by decide +kernel
/-- R46: an STD to the last doubleword of W traps SPACE. -/
theorem test_store_to_weights_traps :
    (match exec (.std 1 2 0) (regs [(2, 0xFF00000001017FF8)]) with | .next t => t.me.trap.tcause.toNat | _ => 0) =
      causeSpace := by decide +kernel
/-- The MSLIDE example of spec/08: three taps, C words that hold 100. -/
theorem test_mslide_of_the_example :
    (let s := (up fun t => { t with
        task := { t.task with fmta := 3, fmtb := 3 }, scalars := [(7, 0x100)]
        vectors := [(2, 0x06010702FF0009040503), (3, 0x01FE01)] }).modCore 0 fun x => { x with
        buf := (List.range 8).map fun k => (bufBase 3 + 0x100 + 4 * k, 100) }
     match exec (.mslide 7 2 3 2) s with
     | .next t => (t.core 0).mtx.busy.map fun op =>
         let e := op.settle (t.core 0)
         (Claims.out e.1 0x100 0 0, Claims.out e.1 0x100 0 1)
     | _ => none) = some (97, 106) := by decide +kernel
/-- R91: RNS16 of -5, and the channel sums of the RNS12 example. -/
theorem test_residues_of_the_example :
    rnsValue (rnsFmt 0x1C) (rnsSplit (rnsFmt 0x1C) 0x737A) = -5 ∧ rnsValue (rnsFmt 0x1B) (0, 2, 3) = -13 := by decide
/-- R99: 2^24, 1, -2^24, 1 reduce to 2 on two lanes and to 1 on four, with NX only there. -/
theorem test_reduction_by_partition :
    let xs := [(0, 0x4B800000), (1, 0x3F800000), (2, 0xCB800000), (3, 0x3F800000)]
    freduce fFP32 0 2 32 xs = (some 0x40000000, 0) ∧ (freduce fFP32 0 4 32 xs).1 = some 0x3F800000 ∧
    (freduce fFP32 0 4 32 xs).2 ≠ 0 := by decide +kernel
/-- R348: the two orders of the GRED example. -/
theorem test_gred_of_the_example :
    redAll 3 [0x4B800000, 0x3F800000, 0x3F800000, 0xCB800000] = some 0 ∧
    ((redAll 3 [0xCB800000, 0x3F800000]).bind fun m => redAll 3 [m, 0x4B800000, 0x3F800000]) = some 0x40000000 := by
  decide +kernel
/-- WINFO selector 7 of the two routes of spec/11. -/
theorem test_winfo_place_of_the_example :
    pathInfo 0x4B41061FF 2 = 0x0000000000140506 ∧ pathInfo 0x46410870A687502 4 = 0x000000070064280A := by decide +kernel
/-- R357: the entry of the example after the copy, with the frame 0x2468C0. -/
theorem test_copied_entry : pteCopied 0x0002468010143057 (0x2468C0 * 32768) = 0x0002468C001430C7 := by decide
/-- R332: the inherit-result word of the example, whose template names w3. -/
theorem test_inherit_word :
    inheritWord 0x1107 8 ⟨Desc.parse 0 [], [], [⟨3, 4, 0, 0, 1, 0, 0, 1⟩], [], []⟩ = 0x00000008FFF61107 := by decide +kernel
/-- R334, R336: group 1 of the example: its members' places in package coordinates, with their strands, in rank order. -/
theorem test_group_members_of_the_example :
    let d := { Desc.parse 0 [] with rects := [⟨100, 40, 103, 41⟩], strands := 4 }
    let g := GroupEntry.parse (leBytes 8 1 ++ leBytes 8 0x0000600200400000)
    (d.members g).map (fun p => (pxOf p.core, pyOf p.core, p.strand)) =
      [(100, 40, 1), (100, 40, 2), (101, 40, 1), (101, 40, 2), (100, 41, 1), (100, 41, 2), (101, 41, 1), (101, 41, 2)] := by
  decide +kernel

/-! The save record that R80 sizes, and the fixed part of a core record (R374). -/

/-- The strand of R80's example: s1, s2, s10 to s14 and s20, v0 to v9 and v40, m1 and w3 written, on a P4 core. -/
def savedStrand : Strand :=
  { Strand.reset with
    scalars := [1, 2, 10, 11, 12, 13, 14, 20].map fun k => (k, 1)
    vectors := [0, 1, 2, 3, 4, 5, 6, 7, 8, 9, 40].map fun k => (k, 1)
    masks := [(1, 1)]
    routes := [(3, 1)] }
theorem test_strand_record :
    let s : State := { State.reset with cores := [(0, { Core.reset with part := 2 })] }
    let r := s.strandRecord ⟨0, 0⟩ savedStrand
    r.length = 2120 ∧ (r.drop 0x10).take 8 = dword 0x107C06 ∧ (r.drop 0x18).take 8 = dword 0x100000003FF ∧
    (r.drop 8).take 2 = [2, 0x20] := by decide +kernel
theorem test_core_record :
    let x : Core := { Core.reset with bayGen := (List.range 64).map fun b => (b, 1) }
    let r := x.record (fun _ => false) 0x31 5
    r.take 8 = dword (0x31 + 5 * 2 ^ 16 + 0xFFF * 2 ^ 46) := by decide +kernel

/-! ### Further clauses: control registers, convoys, faulting elements, arithmetic -/

/-- s1 holds a value, with three more fields of the vector state. -/
def vcfg (w : Word) (pass : Option Nat) : State := up fun t => { t with
  scalars := [(1, w)], pass := pass, vec := { t.vec with vl := 8, vlmaxs := 512 } }
theorem witness_VcfgWrites :
    let bad := vcfg 3 none
    let good := vcfg 0x102 none
    let held := vcfg 0x102 (some 2)
    (bad.bound = true ∧ bad.isVector p0 = true ∧ bad.alone = true ∧ bad.delivers = true ∧ ((bad.me.s 1).extractLsb' 0 2).toNat = 3) ∧
    (good.bound = true ∧ good.isVector p0 = true ∧ ((good.me.s 1).extractLsb' 0 2).toNat = 2 ∧ good.me.vec.sew = 0 ∧
      good.me.pass = none ∧ ((good.me.s 1).extractLsb' 2 3).toNat = 0 ∧ ((good.me.s 1).extractLsb' 5 3).toNat = 0 ∧
      ((good.me.s 1).extractLsb' 8 2).toNat = 1 ∧ ((good.me.s 1).extractLsb' 10 3).toNat = 0) ∧
    (held.isVector p0 = true ∧ held.me.pass = some 2) ∧ (1 : SReg) ≠ 0 := by decide +kernel
theorem witness_CsrWriteThenRead_module :
    let s := up fun t => supStrand { t with scalars := [(1, 0xFFFFFFFFFFFFFFFF)] }
    let m := manager 0 []
    s.bound = true ∧ s.me.trap.priv = true ∧ (s.core 0).locks = [] ∧ msorted (s.core 0).locks = true ∧ isManager 0 = false ∧
    (m.bound = true ∧ m.me.trap.priv = true ∧ isManager m.cur.place.core = true) ∧
    (scalarOnly.bound = true ∧ scalarOnly.isVector scalarOnly.cur.place = false) := by decide +kernel

/-- The vector strand with VL 4 and its program from 0x8000 on. -/
def running (is : List Instr) : State :=
  let s := (vecs 2 0 [(2, 0x300000001), (3, 0x500000004)]).modStrand p0 fun t => { t with run := .ready }
  { s with mem := writeBytes [] placedAt (is.map fun i => leBytes 4 (wordOf i).toNat).flatten }
def wordAt (s : State) (k : Nat) (i : Instr) : Bool :=
  s.fetch p0 (s.strand p0) ((s.strand p0).pc + BitVec.ofNat 64 (4 * k)) == .word ((wordOf i).setWidth 32)
def first4 : List Instr := [.vadd true 4 2 (.v 3), .vmul true 5 2 (.v 3), .vxchg true 6 2 1, .vexp2 true 7 2]
/-- VADD and VMUL in a convoy: two members, all registers resident. -/
theorem witness_Convoys :
    let s := running [.vadd true 4 2 (.v 3), .vmul false 5 4 (.v 3)]
    let t := s.strand p0
    (s.agenda = [] ∧ s.turn ≠ closedTurn ∧ s.nextStrand = some p0 ∧ t.pendTrap = [] ∧ t.interruptDue = false ∧
      (t.ending && !t.mid) = false) ∧
    (s.issueAs p0).mayPause p0 = false ∧ t.loops = [] ∧ t.midMask = none ∧ s.isVector p0 = true ∧
    wordAt s 0 (.vadd true 4 2 (.v 3)) = true ∧
    (match (s.issueAs p0).gather p0 t 5 0 [] t.pc [] [] with
      | .members ms => ms.map (·.instr) == [.vadd true 4 2 (.v 3), .vmul false 5 4 (.v 3)] &&
          ms.all (fun m => (Claims.vint t m.instr).isSome) &&
          (t.reside (s.residentCap p0) (s.spills p0) (ms.map fun m => vecNeeds m.instr).flatten).2.moves == 0
      | _ => false) = true := by decide +kernel
theorem witness_Convoys_traps :
    let w := fun (i : Instr) => (wordOf i).setWidth 32
    let s := running [.vadd true 4 2 (.v 3), .add 1 2 3]
    let q := running [.vadd true 4 2 (.v 3), .vsub false 5 2 (.v 3)]
    let r := running [.vadd true 4 2 (.v 3), .vldff false 5 2]
    let f := running [.vldff true 5 2]
    (unitClass (w (.vadd true 4 2 (.v 3))) = some .alu ∧ isVldff (w (.vadd true 4 2 (.v 3))) = false ∧
      wordC (w (.vadd true 4 2 (.v 3))) = true) ∧
    (s.nextStrand = some p0 ∧ wordAt s 0 (.vadd true 4 2 (.v 3)) = true ∧ wordAt s 1 (.add 1 2 3) = true ∧
      convoyMajor (wordMajor (w (.add 1 2 3))) = false) ∧
    ((s.strand p0).trap.priv = false ∧ (s.strand p0).trap.tvec ≠ 0 ∧ (s.strand p0).ending = false) ∧
    (wordAt q 1 (.vsub false 5 2 (.v 3)) = true ∧ unitClass (w (.vsub false 5 2 (.v 3))) = some .alu) ∧
    (wordAt r 1 (.vldff false 5 2) = true ∧ isVldff (w (.vldff false 5 2)) = true) ∧
    (wordAt f 0 (.vldff true 5 2) = true ∧ isVldff (w (.vldff true 5 2)) = true ∧ wordC (w (.vldff true 5 2)) = true ∧
      f.nextStrand = some p0) := by decide +kernel
theorem witness_Convoys_fifth :
    let s := running first4
    s.nextStrand = some p0 ∧ s.isVector p0 = true ∧
    (first4.zipIdx.all fun e => wordAt s e.2 e.1) = true ∧
    (first4.all fun i => let w : IWord := (wordOf i).setWidth 32
      convoyMajor (wordMajor w) && wordC w && !isVldff w && (decode w).toOption == some i) = true ∧
    first4.map (fun i => unitClass ((wordOf i).setWidth 32)) = [some .alu, some .mul, some .perm, some .sf] := by decide +kernel

/-- What stops a vector access, as element, cause and value. -/
def stopOf (s : State) (f : VForm) (is : List Nat) : Option (Nat × Nat × Word) :=
  match (s.vscan p0 s.me f.acc f.addr is).stop with
  | some (e, .fail (.trap cause x)) => some (e, cause, x)
  | some (e, .fail (.page x kind _)) => some (e, 100 + kind, x)
  | _ => none
/-- The paged state with a vector access of four elements at an address, by a stride. -/
def pagedAt (a stride : Nat) : State := paged.modStrand p0 fun t => { t with
  vec := { t.vec with vl := 4, vlmaxs := 8, sew := 2, space := 0, vstride := BitVec.ofNat 64 stride }
  scalars := [(5, BitVec.ofNat 64 a)] }
/-- Elements that fail: past the end of G, misaligned, at an address of 2^57, on a page that is copied on write. -/
theorem witness_VectorFaults :
    let g := vecsAt 4 0x5FF8
    let m := vecsAt 0 0x8001
    let h := pagedAt (2 ^ 57 - 8) 4
    let c := (pagedAt 0x8000 4).modCore 0 fun x => { x with tlb := [] }
    let is := [0, 1, 2, 3]
    (g.vecReady (Claims.vecNeeds (.vld false 1 5)) = true ∧ g.vecCheck p0 g.me (.vld false 1 5) = none ∧ g.delivers = true ∧
      activeIn (g.me.m g.me.vec.vmsel) g.me.vec.vstart0 g.me.vec.vl = is ∧
      stopOf g (vform g.me 5 none false 0) is = some (2, causeSpace, 0x6000) ∧
      ((g.vscan p0 g.me (vform g.me 5 none false 0).acc (vform g.me 5 none false 0).addr is).good.all fun e =>
        !g.vpoisoned p0 (vform g.me 5 none false 0).acc e.2) = true) ∧
    stopOf g (vform g.me 5 none false 1) is = some (2, causeSpace, 0x6000) ∧
    stopOf m (vform m.me 5 none false 0) is = some (0, causeMisalign, 0x8001) ∧
    stopOf h (vform h.me 5 none false 0) [2] = some (2, causeLoadPage, BitVec.ofNat 64 (2 ^ 57)) ∧
    (c.vecReady (Claims.vecNeeds (.vst false 1 5)) = true ∧ c.vecCheck p0 c.me (.vst false 1 5) = none ∧
      c.releaseWait p0 c.me.vec.scope = none ∧ stopOf c (vform c.me 5 none false 1) is = some (0, 101, 0x8000)) := by
  decide +kernel
theorem witness_VectorFaults_elements :
    let a : VAccess := (vform (vecsAt 4 0).me 5 none false 0).acc
    let z : VAccess := (vform (vecsAt 0 0).me 5 none false 0).acc
    (a.slot = none ∧ a.size = 4 ∧ a.space = 4) ∧ (z.slot = none ∧ z.size = 4 ∧ z.space = 0 ∧ z.kind = 0) ∧
    (0x6000 : Int) % 4 = 0 ∧ ((24576 : Int) ≤ 0x6000) ∧ ((-4 : Int) % 4 = 0 ∧ (-4 : Int) < 0) ∧ (0x5FFC : Int) < 24576 ∧
    (match (base.translate 0 0x8000 0).2 with | .ok e => e == placedEntry | _ => false) = true ∧
    (match (paged.modCore 0 (fun x => { x with tlb := [] })).translate 0 0x10000000 0 with
      | (_, .error .bad) => true | _ => false) = true := by decide +kernel

theorem witness_ReductionResults_skipped :
    let s := up fun t => { t with vec := { t.vec with vl := 4, vlmaxs := 8, sew := 2, vstart0 := 1 } }
    s.bound = true ∧ s.alone = true ∧ s.me.vec.vstart0 ≠ 0 ∧
    s.vecReady (Claims.vecNeeds (.vredsum false 1 2 (.v 3))) = true ∧ s.vecCheck p0 s.me (.vredsum false 1 2 (.v 3)) = none ∧
    s.vecReady (Claims.vecNeeds (.vfredsum false 1 2 (.v 3))) = true ∧ s.vecCheck p0 s.me (.vfredsum false 1 2 (.v 3)) = none ∧
    s.vecReady (Claims.vecNeeds (.vextr false 1 2 3)) = true := by decide +kernel

/-- Operands of the arithmetic clauses: 1.5 and 1 in FP32, an integer, a power of 2, and a value of the sine's wide range. -/
theorem witness_FloatArithmetic :
    fFP32.dec 0x3FC00000 = .fin false 12582912 (-23) ∧ (12582912 : Nat) ≠ 0 ∧ fFP32.dec 0x40400000 = .fin false 12582912 (-22) ∧
    fFP32.dec 0x7FC00000 = .nan ∧ fFP32.dec 0xBF800000 = .fin true 8388608 (-23) ∧ (2 : Nat) < 5 ∧
    (sfOf fFP32 .rcp 0x40000000).1 % fFP32.signW ≠ fFP32.infMag ∧ (0x40000000 : Nat) < 2 * fFP32.signW ∧
    fFP32.dec 0x40000000 = .fin false 8388608 (-22) := by decide +kernel

/-! ### Further clauses: steps without an encoding -/

theorem witness_WaitEndSteps_line :
    base.memoryOpen 0 (64 * 0x200) = true ∧ severed.memoryOpen 0 (64 * 0x200) = false ∧
    ((stalledFor (.line 0x200)).memoryOpen 0 (64 * 0x200)) = true := by decide +kernel
theorem witness_TrapAndMemorySteps_open :
    let k := base.modCore 0 fun x => { x with locks := [(2, 0)], lockFrom := [(0, 0)] }
    stored.memoryOpen 0 0x8000 = true ∧ (k.strand p0).mid = false ∧ base.memoryOpen 0 0x8010 = true ∧
    (base.strand p0).ending = false := by decide +kernel
/-- The word of the endpoint is the context's own, and core 0 has its key. -/
theorem witness_PacketArrivals_genuine :
    let k := pkt 4 (.rst 0) []
    let g : Packet := { pkt 4 (.wgen 0 1) [] with word := 0 }
    let m : Packet := { pkt 4 (.move 0 5 (taskEntry .moving false)) [] with word := 0 }
    let r : Packet := { pkt 4 (.moveRefused 5) [] with word := 0 }
    let s := arriving k
    let held := (arriving r).modCore 0 fun x => { x with queue := [(5, taskEntry .moving false)] }
    (k.loc = .switch 0 ∧ k.damage = 0 ∧ s.keyFits k = true ∧ k.module' = s.moduleId ∧ k.word ≠ 0) ∧
    (g.damage = 0 ∧ (arriving g).keyFits g = true ∧ ((base.core 0).ni.port 1 = 1 ∨ (base.core 0).ni.port 1 = 0)) ∧
    ({ k with damage := 1 } : Packet).damage ≠ 0 ∧
    (m.damage = 0 ∧ (arriving m).keyFits m = true ∧ (base.core 0).owner.frozen = false ∧ (base.core 0).ni.nonce < 2 ^ 64 - 1 ∧
      mfree (base.core 0).queue 64 = some 0 ∧ ((base.core 0).strands.all fun e => e.2.wait != .take) = true) ∧
    (r.damage = 0 ∧ held.keyFits r = true ∧ held.entry 0 5 = some (taskEntry .moving false)) := by decide +kernel
theorem witness_PacketArrivals_nack :
    let k := pkt 4 (.nack 0) []
    let s := outing (.rst 0) id (arriving k)
    (s.awaited k).isSome = true ∧ k.damage = 0 ∧ s.keyFits k = true ∧ nextMember [] 1 = none ∧
    ((s.outOf 0 0).map fun o => (o.members, o.nacks)) = some ([], 0) := by decide +kernel
/-- Two unanswered packets of one register: the later one waits for the earlier one. -/
theorem witness_PacketArrivals_order :
    let o : Outstanding := ⟨pkt 4 (.rst 0) [], false, 0, false, 1, some 0, false, none, 0, [], []⟩
    let first : Outstanding := { o with resendAt := some 9 }
    let s := uc fun x => { x with ni := { x.ni with out := [(0, first), (1, { o with pkt := { o.pkt with num := 1, seq := 1 } })] } }
    let one := uc fun x => { x with ni := { x.ni with out := [(0, o)] } }
    let waits := fun (s : State) => ((s.core 0).ni.out.filter fun e => e.2.pkt.strand == 0 && e.2.pkt.wreg == 1 && !e.2.inFlight)
    (waits one = [(0, o)] ∧ 0 ≤ one.now) ∧ (waits s).head? = some (0, first) ∧ s.now < 9 ∧
    (s.outOf 0 1).map (·.resendAt) = some (some 0) := by decide +kernel
theorem witness_PacketArrivals_move :
    let s := queueOf .moving false
    (taskEntry .moving false).sent = false ∧ (taskEntry .moving false).notBefore ≤ s.now ∧
    (s.core 0).owner.frozen = false ∧ (s.core 0).ni.nonce < 2 ^ 64 - 1 := by decide +kernel
theorem witness_QueueAndBarrierSteps_ways :
    let r : Packet := { pkt 7 (.release 0 5 none) [] with word := 0 }
    let a : Packet := pkt 7 (.arrive 0 4 one) []
    let l : Packet := { pkt 7 (.leave 0 4 p0 true) [] with word := 0 }
    let s := barred open' a
    base.stationOpen 0 0 (counterStation 3) = true ∧
    ((List.range 4096).all fun n => severed.stationOpen 0 0 (counterStation n)) = false ∧
    (s.rootUnit 0 0) = some open' ∧ (r.damage = 0 ∧ (arriving r).keyFits r = true) ∧ (arriving l).keyFits l = true ∧
    open'.state ≠ .released := by decide +kernel
theorem witness_FabricAndLeaseSteps_order :
    let s := arriving (fibrePkt 1 (.rst 0))
    msorted s.packets = true ∧ s.asideBefore 7 ((fibrePkt 1 (.rst 0)).skipped 10) = false ∧
    ((leasing .requested).dutyReqs.all fun e => !e.2.isLeaseOf 0 1) = true := by decide +kernel
/-- Register w1 alone, of no sheaf, and the selector 7. -/
theorem witness_RouteRegisterResults_info :
    let s := holding (route 0x101 4 0 256 0xFF 1 1) [(2, 7)]
    (s.bound = true ∧ s.me.w 1 ≠ 0 ∧ (s.me.s 2).toNat % 16 = 7 ∧ msorted s.me.sheaves = true) ∧
    (maskRegs (0 ||| 2 ^ 1)).length = 1 ∧ 4 < (maskRegs 0x3E).length ∧ (2 ^ 1 : Nat).testBit 0 = false := by decide +kernel

end Sys2Proof.Tests
end

section
/-!
PROOFS. Convoys (O43). The statement's first clause takes every state, whether or not its maps are canonical (keys strictly rising).
Which strand issues is found by walking the list of cores, and the strand at a place by looking its core up; in a list that names a
core twice the two differ, and the strand that issues may be one that is UNBOUND where it is looked up.
-/

set_option Elab.async false

namespace Sys2Proof.Machine.ConvoyProofs

/-- INSTRET counts every member of a convoy whose members have been executed one after another. -/
theorem instret_of_membersDone {m : MImage} {k : Nat} {is : List Instr} {t u : Strand}
    (h : Claims.membersDone m k is t u) : u.time.instret = t.time.instret + BitVec.ofNat 64 is.length := by
  induction is generalizing k t with
  | nil =>
    obtain ⟨_, _, _, _, _, _, hcount, _⟩ := h
    simp [hcount]
  | cons i r ih =>
    obtain ⟨x, ⟨d, f, _, _, _, _, _, _, _, _, hmember, _⟩, hrest⟩ := h
    rw [ih hrest, hmember, List.length_cons, Nat.add_comm, BitVec.ofNat_add, ← BitVec.add_assoc]
    rfl

/-- The INSTRET of a strand after a step, where the step answers a next state. -/
def instretAfter (p : Place) : Res → Option Word
  | .next s => some (s.strand p).time.instret
  | _ => none

/-- The place of the one strand that issues. -/
def issuer : Place := { core := 0, strand := 0 }

/-- The word of an instruction as it is fetched. -/
def codeOf (i : Instr) : IWord := (wordOf i).setWidth 32

/-- A convoy of two: an ALU word with C = 1, and a MUL word with C = 0. -/
def vaddJoined : Instr := .vadd true 4 2 (.v 3)
def vmulLast : Instr := .vmul false 5 4 (.v 3)

/-- The convoy placed at the PC of strand 0, with every map canonical. -/
def convoyPlaced : State :=
  { State.reset.withFetchWord 32 0 with
    mem := writeBytes [] placedAt (leBytes 4 (codeOf vaddJoined).toNat ++ leBytes 4 (codeOf vmulLast).toNat) }

/-- The same state with core 0 listed a second time, ahead of its own entry, and its strand UNBOUND there. -/
def coreListedTwice : State :=
  { convoyPlaced with
    cores := (0, (convoyPlaced.core 0).setStrand 0 { placedStrand with run := .unbound }) :: convoyPlaced.cores }

/-- What the gathering of R107 finds in that state. -/
def gatheredPair : List Member :=
  [{ pc := BitVec.ofNat 64 placedAt, word := codeOf vaddJoined, instr := vaddJoined },
   { pc := BitVec.ofNat 64 placedAt + 4, word := codeOf vmulLast, instr := vmulLast }]

theorem coreListedTwice_issuesNext : Claims.issuesNext coreListedTwice issuer := by
  unfold Claims.issuesNext
  decide +kernel

theorem coreListedTwice_fetch :
    coreListedTwice.fetch issuer (coreListedTwice.strand issuer) (coreListedTwice.strand issuer).pc =
      .word (codeOf vaddJoined) := by
  decide +kernel

theorem coreListedTwice_gather :
    (coreListedTwice.issueAs issuer).gather issuer (coreListedTwice.strand issuer) 5 0 []
      (coreListedTwice.strand issuer).pc [] [] = .members gatheredPair := by
  decide +kernel

/-- No member is executed in that state: the strand that the members act for is UNBOUND (R56). -/
theorem coreListedTwice_step : instretAfter issuer (step coreListedTwice) = some 0 := by
  decide +kernel

/-- Refutes O43: its first clause does not ask that the state's maps are canonical. With a core listed twice, the strand READY in
the entry that issues and UNBOUND in the one that the strand is read from, the premises hold and no member of the convoy is executed:
INSTRET stays, where the statement has it count two. -/
theorem not_convoys : ¬ Obligations.Convoys := by
  unfold Obligations.Convoys
  rintro ⟨members_execute, -⟩
  obtain ⟨s', hstep, hdone, -⟩ := members_execute coreListedTwice issuer gatheredPair coreListedTwice_issuesNext
    (by decide +kernel) (by decide +kernel) (by decide +kernel) (by decide +kernel)
    ⟨codeOf vaddJoined, coreListedTwice_fetch, by decide +kernel, by decide +kernel⟩
    coreListedTwice_gather (by decide +kernel) (by decide +kernel)
  have counted : (s'.strand issuer).time.instret = 2 := instret_of_membersDone hdone
  have unchanged : some (s'.strand issuer).time.instret = some 0 := by
    rw [← coreListedTwice_step, hstep]; rfl
  rw [counted] at unchanged
  exact absurd unchanged (by decide)

end Sys2Proof.Machine.ConvoyProofs
end

section
/-!
PROOFS. The reset state (O8). It lists no core, no line and no byte, so each part of it reads its default.
-/
set_option Elab.async false

namespace Sys2Proof.Machine

/-! ### The reset state -/

/-- Every core of the reset state is a reset core: none is listed. -/
theorem State.core_reset (c : Nat) : State.reset.core c = .reset := rfl

/-- Every strand of a reset core is a reset strand. -/
theorem Core.strand_reset (k : Nat) : Core.reset.strand k = .reset := rfl

theorem isHost_of_lt_deviceSize {pa : Nat} (h : pa < deviceSize) : isHost pa = false :=
  decide_eq_false (Nat.not_le.mpr (Nat.lt_trans h (by decide)))

/-- In the reset state no line is tagged, keyed or held dirty, so device memory under generation 0 reads its home byte. -/
theorem State.devByte_reset (d : Nat) (key : Key) (pa : Nat) :
    State.reset.devByte d key 0 pa = State.reset.homeByte pa := rfl

theorem State.homeByte_reset (pa : Nat) : State.reset.homeByte pa = 0 := rfl

theorem State.physByte_reset (d : Nat) (key : Key) {pa : Nat} (h : pa < deviceSize) :
    State.reset.physByte d key 0 pa = 0 := by
  rw [State.physByte, isHost_of_lt_deviceSize h, if_neg Bool.false_ne_true, State.devByte_reset, State.homeByte_reset]

/-- Settles O8: the reset state lists no core, no tag, no key and no byte, so each part reads its default. -/
theorem resetIsIdle : Obligations.ResetIsIdle := by
  refine ⟨rfl, fun c => ⟨?_, ?_, fun k => ?_⟩, rfl, rfl, fun d key pa => State.physByte_reset d key, rfl⟩
  · rw [State.core_reset]; rfl
  · rw [State.core_reset]; rfl
  · rw [State.core_reset, Core.strand_reset]; rfl

end Sys2Proof.Machine
end

section
/-!
PROOFS. The module's operations that leave memory as it is (R15, R248), one rule each, in the order of the model. They are the layer
that the proof of O7 stands on: an operation made of them leaves memory as it is.
-/
set_option Elab.async false

namespace Sys2Proof.Machine

/-! ### Operations that leave memory unchanged -/

@[simp] theorem State.foldl_mem {α : Type} {f : State → α → State} (hf : ∀ s a, (f s a).mem = s.mem) (l : List α)
    (s : State) : (l.foldl f s).mem = s.mem :=
  List.foldlRecOn (motive := fun t : State => t.mem = s.mem) l f rfl fun t ht a _ => (hf t a).trans ht

@[simp] theorem State.foldl_fst_mem {α β : Type} {f : State × β → α → State × β} (hf : ∀ r a, (f r a).1.mem = r.1.mem)
    (l : List α) (r : State × β) : (l.foldl f r).1.mem = r.1.mem :=
  List.foldlRecOn (motive := fun q : State × β => q.1.mem = r.1.mem) l f rfl fun q hq a _ => (hf q a).trans hq

@[simp] theorem State.mem_ite (c : Prop) [Decidable c] (a b : State) :
    (if c then a else b).mem = if c then a.mem else b.mem := apply_ite ..

@[simp] theorem State.modStrand_mem (s : State) (p : Place) (f : Strand → Strand) :
    (s.modStrand p f).mem = s.mem := (rfl)

@[simp] theorem State.cacheHostLine_mem (s : State) (d pa : Nat) : (s.cacheHostLine d pa).mem = s.mem := by
  unfold State.cacheHostLine
  split <;> rfl

@[simp] theorem State.fillTlb_mem (s : State) (c : Nat) (e : TlbEntry) : (s.fillTlb c e).mem = s.mem := (rfl)

@[simp] theorem State.keepLevels_mem (s : State) (d ctx va : Nat) : (s.keepLevels d ctx va).mem = s.mem := by
  unfold State.keepLevels
  split <;> rfl

@[simp] theorem State.stirCore_mem (s : State) (c : Nat) : (s.stirCore c).mem = s.mem := by
  simp [State.stirCore]

@[simp] theorem State.illegal_mem (s : State) (p : Place) (i : Instr) : (s.illegal p i).mem = s.mem := by
  simp [State.illegal]

@[simp] theorem State.askWalk_mem (s : State) (p : Place) (va kind : Nat) : (s.askWalk p va kind).mem = s.mem := (rfl)

@[simp] theorem State.poisonContext_mem (s : State) (ctx : Nat) (p : Place) (tval : Word) :
    (s.poisonContext ctx p tval).mem = s.mem := by
  simp [State.poisonContext]

@[simp] theorem State.uncorrected_mem (s : State) (p : Place) (tval : Word) : (s.uncorrected p tval).mem = s.mem := by
  simp [State.uncorrected]

@[simp] theorem State.stallFor_mem (s : State) (p : Place) (l : Lack) : (s.stallFor p l).mem = s.mem := by
  unfold State.stallFor
  split <;> rfl

@[simp] theorem State.feServe_mem (s : State) (c off n : Nat) : (s.feServe c off n).mem = s.mem := by
  induction n generalizing s with
  | zero => rfl
  | succ n ih =>
    simp only [State.feServe]
    (repeat' split) <;> simp [ih]

@[simp] theorem State.feEvent_mem (s : State) (c off : Nat) : (s.feEvent c off).mem = s.mem := by
  simp [State.feEvent]

@[simp] theorem State.logAlarm_mem (s : State) (level trigger : Nat) (ctxs : List Nat) :
    (s.logAlarm level trigger ctxs).mem = s.mem := (rfl)

@[simp] theorem State.raiseAlarm_mem (s : State) (level trigger : Nat) (named : List Nat) :
    (s.raiseAlarm level trigger named).mem = s.mem := by
  simp [State.raiseAlarm]

@[simp] theorem State.countTagFail_mem (s : State) (d ctx : Nat) : (s.countTagFail d ctx).mem = s.mem := by
  simp [State.countTagFail]

@[simp] theorem State.countGcmFail_mem (s : State) (d ctx : Nat) : (s.countGcmFail d ctx).mem = s.mem := by
  simp [State.countGcmFail]

@[simp] theorem State.nextHead_mem (s : State) (k : Packet) : (s.nextHead k).mem = s.mem := by
  unfold State.nextHead
  split <;> rfl

@[simp] theorem State.dropPacket_mem (s : State) (id : Nat) : (s.dropPacket id).mem = s.mem := by
  unfold State.dropPacket
  split <;> simp

@[simp] theorem State.inject_mem (s : State) (pkt : Packet) (step : Instr) : (s.inject pkt step).mem = s.mem := (rfl)

@[simp] theorem State.advancePacket_mem (s : State) (id : Nat) (k : Packet) (i : Instr) :
    (s.advancePacket id k i).mem = s.mem := by
  unfold State.advancePacket
  split <;> simp

@[simp] theorem State.holdPacket_mem (s : State) (id : Nat) (i : Instr) : (s.holdPacket id i).mem = s.mem := (rfl)

@[simp] theorem State.cacheKey_mem (s : State) (c ctx : Nat) : (s.cacheKey c ctx).mem = s.mem := by
  unfold State.cacheKey
  split <;> rfl

@[simp] theorem State.syncKeys_mem (s : State) : (s.syncKeys).mem = s.mem := by
  unfold State.syncKeys
  refine State.foldl_mem (fun s a => ?_) _ _
  simp

theorem State.mem_of_takeNonce {s s1 : State} {c : Nat} {n : Option Nat} (e : s.takeNonce c = (s1, n)) :
    s1.mem = s.mem := by
  simp only [State.takeNonce] at e
  repeat' split at e
  all_goals cases e; simp

@[simp] theorem State.sendFrom_mem (s : State) (start ctx core strand nonce target : Nat) (k : PKind) (payload : List Byte) :
    (s.sendFrom start ctx core strand nonce target k payload).mem = s.mem := (rfl)

@[simp] theorem State.sendFixed_mem (s : State) (from' strand target : Nat) (k : PKind) (payload : List Byte) :
    (s.sendFixed from' strand target k payload).mem = s.mem := by
  unfold State.sendFixed
  split <;> simp [State.mem_of_takeNonce ‹_›]

@[simp] theorem State.answerOne_mem (s : State) (q : Packet) (k : PKind) (payload : List Byte) (damage : Nat) :
    (s.answerOne q k payload damage).mem = s.mem := by
  simp only [State.answerOne]
  cases q.loc with
  | ni c =>
    simp only []
    split
    · simp
    · split <;> simp [State.mem_of_takeNonce ‹_›]
  | _ => simp

@[simp] theorem State.answerFixed_mem (s : State) (q : Packet) (k : PKind) (payload : List Byte) :
    (s.answerFixed q k payload).mem = s.mem := by
  unfold State.answerFixed
  split
  · split <;> simp [State.mem_of_takeNonce ‹_›]
  · simp
  · rfl

@[simp] theorem State.answer_mem (s : State) (q : Packet) (k : PKind) (payload : List Byte) (damage : Nat) :
    (s.answer q k payload damage).mem = s.mem := by
  unfold State.answer
  split
  · refine State.foldl_mem (fun s e => ?_) _ _
    split <;> simp
  · split <;> simp

@[simp] theorem State.modOut_mem (s : State) (c num : Nat) (f : Outstanding → Outstanding) :
    (s.modOut c num f).mem = s.mem := (rfl)

@[simp] theorem State.transmit_mem (s : State) (c num : Nat) : (s.transmit c num).mem = s.mem := by
  simp only [State.transmit]
  rcases h : s.takeNonce c with ⟨s1, _ | n⟩
  all_goals
    split
    · rfl
    · simp [State.mem_of_takeNonce h]

@[simp] theorem State.sendNumbered_mem (s : State) (p : Place) (op num : Nat) (q : SendReq) :
    (s.sendNumbered p op num q).mem = s.mem := by
  simp [State.sendNumbered]

@[simp] theorem State.sendReq_mem (s : State) (p : Place) (op : Nat) (q : SendReq) :
    (s.sendReq p op q).mem = s.mem := by
  simp [State.sendReq]

@[simp] theorem State.sendAll_mem (s : State) (p : Place) (qs : List SendReq) : (s.sendAll p qs).mem = s.mem := by
  simp [State.sendAll]

@[simp] theorem State.sendUntil_mem (s : State) (c : Nat) (l : List (Nat × Outstanding)) :
    (s.sendUntil c l).mem = s.mem := by
  induction l generalizing s with
  | nil => rfl
  | cons e r ih =>
    unfold State.sendUntil
    (repeat' split) <;> simp [ih]

@[simp] theorem State.releaseHeld_mem (s : State) (c strand wreg : Nat) :
    (s.releaseHeld c strand wreg).mem = s.mem := by
  simp [State.releaseHeld]

@[simp] theorem State.settle_mem (s : State) (c num : Nat) : (s.settle c num).mem = s.mem := by
  unfold State.settle
  split <;> simp

@[simp] theorem State.modLease_mem (s : State) (c h : Nat) (f : Lease → Lease) :
    (s.modLease c h f).mem = s.mem := (rfl)

@[simp] theorem State.stirFifo_mem (s : State) (dir : Nat) : (s.stirFifo dir).mem = s.mem := by
  unfold State.stirFifo
  split <;> rfl

@[simp] theorem State.askMint_mem (s : State) (p : Place) (holds : Bool) (e : Nat × RouteWord) :
    (s.askMint p holds e).mem = s.mem := (rfl)

@[simp] theorem State.leaveFifo_mem (s0 : State) (c h : Nat) : (s0.leaveFifo c h).mem = s0.mem := by
  simp [State.leaveFifo]

@[simp] theorem State.emptyChannels_mem (s : State) (chs : List Nat) : (s.emptyChannels chs).mem = s.mem := by
  simp [State.emptyChannels]

@[simp] theorem State.retuneBack_mem (s : State) (c g : Nat) : (s.retuneBack c g).mem = s.mem := by
  simp [State.retuneBack]

@[simp] theorem State.endLease_mem (s : State) (c h : Nat) (st : LeaseState) (granted : Option Nat) :
    (s.endLease c h st granted).mem = s.mem := by
  simp only [State.endLease]
  (repeat' split) <;> simp

@[simp] theorem State.releaseLeases_mem (s : State) (c : Nat) : (s.releaseLeases c).mem = s.mem :=
  State.foldl_mem (fun s e => by split <;> simp) _ _

@[simp] theorem State.csrWrite_mem (s : State) (p : Place) (t : Strand) (n : Nat) (w : Word) :
    (s.csrWrite p t n w).1.mem = s.mem := by
  unfold State.csrWrite
  (repeat' split) <;> simp

@[simp] theorem State.modStrands_mem (s : State) (c : Nat) (f : Strand → Strand) :
    (s.modStrands c f).mem = s.mem := by
  simp [State.modStrands]

@[simp] theorem State.stirCopies_mem (s : State) (c : Nat) : (s.stirCopies c).mem = s.mem := by
  simp [State.stirCopies]

@[simp] theorem State.ringChanged_mem (s : State) (c g : Nat) (old : Ring) : (s.ringChanged c g old).mem = s.mem := by
  simp [State.ringChanged]

@[simp] theorem State.setRing_mem (s : State) (c g : Nat) (r : Ring) : (s.setRing c g r).mem = s.mem := by
  simp [State.setRing]

@[simp] theorem State.modCopy_mem (s : State) (c k : Nat) (f : CopySlot → CopySlot) :
    (s.modCopy c k f).mem = s.mem := (rfl)

@[simp] theorem State.nextLine_mem (s : State) (c k : Nat) : (s.nextLine c k).mem = s.mem := by
  unfold State.nextLine
  (repeat' split) <;> simp

@[simp] theorem State.retryLine_mem (s : State) (c k u : Nat) : (s.retryLine c k u).mem = s.mem := (rfl)

@[simp] theorem State.looseLines_mem (s : State) (c k : Nat) (units : List Nat) :
    (s.looseLines c k units).mem = s.mem := (rfl)

@[simp] theorem State.acquireDone_mem (s : State) (p : Place) (mask : Nat) : (s.acquireDone p mask).mem = s.mem := by
  simp [State.acquireDone]

@[simp] theorem State.copyChanged_mem (s : State) (c : Nat) : (s.copyChanged c).mem = s.mem := by
  simp only [State.copyChanged, State.stirCopies_mem]
  refine (State.foldl_mem (fun s k => ?_) _ _).trans (State.stirCore_mem s c)
  (repeat' split) <;> simp

@[simp] theorem State.dropLines_mem (s : State) (c k : Nat) : (s.dropLines c k).mem = s.mem := (rfl)

@[simp] theorem State.failCopy_mem (s : State) (c k reason : Nat) : (s.failCopy c k reason).mem = s.mem := by
  unfold State.failCopy
  split <;> simp

@[simp] theorem State.cancelCopies_mem (s : State) (c by' : Nat) (which : Nat → CopySlot → Bool) :
    (s.cancelCopies c by' which).mem = s.mem := by
  simp [State.cancelCopies]

@[simp] theorem State.unitLanded_mem (s : State) (c k u : Nat) (ok : Bool) : (s.unitLanded c k u ok).mem = s.mem := by
  unfold State.unitLanded
  split <;> simp

@[simp] theorem State.makeMoves_mem (s : State) (p : Place) (r : Strand × Residency) :
    (s.makeMoves p r).mem = s.mem := by
  simp only [State.makeMoves]
  (repeat' split) <;> simp

theorem State.withResident_cases (s : State) (p : Place) (t : Strand) (needs : List (Nat × Bool)) (f : Strand → State) :
    (∃ u, s.withResident p t needs f = f u) ∨ ∃ r, s.withResident p t needs f = s.makeMoves p r := by
  unfold State.withResident
  dsimp only
  split
  · exact .inl ⟨_, rfl⟩
  · exact .inr ⟨_, rfl⟩
theorem State.withResident_mem {s : State} {p : Place} {t : Strand} {needs : List (Nat × Bool)} {f : Strand → State}
    (hf : ∀ u, (f u).mem = s.mem) : (s.withResident p t needs f).mem = s.mem := by
  obtain ⟨u, e⟩ | ⟨r, e⟩ := s.withResident_cases p t needs f
  · rw [e, hf]
  · rw [e, State.makeMoves_mem]

@[simp] theorem vecRun_mem (s : State) (p : Place) (t : Strand) (needs : List (Nat × Bool)) (d : VReg) (m : MImage)
    (f : Strand → Nat → ElemRes) : (vecRun s p t needs d m f).mem = s.mem := State.withResident_mem fun _ => rfl

@[simp] theorem mtxIssue_mem (s : State) (p : Place) (t : Strand) (clk : Nat) (scales read : List (Nat × Nat))
    (f : Core → Strand → Core × List MtxRow × MtxInto) :
    (mtxIssue s p t clk scales read f).mem = s.mem := by
  simp only [mtxIssue]
  (repeat' split) <;> simp

@[simp] theorem mtxOp_mem (s : State) (p : Place) (t : Strand) (needs : List (Nat × Bool)) (checks : List (Bool × Nat × Word))
    (clk : Nat) (scales read : List (Nat × Nat))
    (f : Core → Strand → Core × List MtxRow × MtxInto) :
    (mtxOp s p t needs checks clk scales read f).mem = s.mem := by
  unfold mtxOp
  split
  · simp
  · exact State.withResident_mem fun u => mtxIssue_mem ..

@[simp] theorem planeLoad_mem (s : State) (p : Place) (t : Strand) (o z clk sparse : Nat) :
    (planeLoad s p t o z clk sparse).mem = s.mem := by
  simp [planeLoad]

@[simp] theorem State.sendGroup_mem (s : State) (p : Place) (t : Strand) (k : Nat) (kind : PKind) (waiting : Bool) :
    (s.sendGroup p t k kind waiting).mem = s.mem := by
  simp [State.sendGroup]

@[simp] theorem State.sendLeaves_mem (s : State) (p : Place) (t : Strand) : (s.sendLeaves p t).mem = s.mem :=
  State.foldl_mem (fun s e => by split <;> simp) _ _

@[simp] theorem State.serveTakers_mem (s : State) (c : Nat) : (s.serveTakers c).mem = s.mem :=
  State.foldl_mem (fun s e => by dsimp only; split <;> simp) _ _

@[simp] theorem State.ageIn_mem (s : State) (n c entry : Nat) : (s.ageIn n c entry).mem = s.mem := by
  unfold State.ageIn
  split <;> rfl

@[simp] theorem State.enqueue_mem (s : State) (c entry : Nat) (w : WorkPacket) (acquire : Nat) :
    (s.enqueue c entry w acquire).mem = s.mem := by
  simp [State.enqueue]

@[simp] theorem State.wakeStrand_mem (s : State) (p : Place) : (s.wakeStrand p).mem = s.mem := by
  simp [State.wakeStrand]

@[simp] theorem State.checkRendezvous_mem (s : State) (k : Nat) : (s.checkRendezvous k).mem = s.mem := by
  unfold State.checkRendezvous
  split <;> simp

@[simp] theorem State.endStrand_mem (s : State) (p : Place) : (s.endStrand p).mem = s.mem := by
  simp only [State.endStrand]
  (repeat' split) <;> simp

@[simp] theorem State.endMatrix_mem (s : State) (c : Nat) (op : MtxOp) : (s.endMatrix c op).mem = s.mem := by
  simp [State.endMatrix]

@[simp] theorem State.spoil_mem (s : State) (c : Nat) (isLocal : Bool) (a : Nat) :
    (s.spoil c isLocal a).mem = s.mem := by
  unfold State.spoil
  split <;> rfl

@[simp] theorem State.leaveRendezvous_mem (s : State) (p : Place) : (s.leaveRendezvous p).mem = s.mem := by
  unfold State.leaveRendezvous
  (repeat' split) <;> simp

@[simp] theorem State.unitWritten_mem (s : State) (c k u : Nat) : (s.unitWritten c k u).mem = s.mem := by
  simp only [State.unitWritten]
  split <;> simp

@[simp] theorem State.writeLocalUnit_mem (s : State) (c k u space : Nat) (l : List (Int × Byte)) :
    (s.writeLocalUnit c k u space l).mem = s.mem := by
  simp [State.writeLocalUnit]

@[simp] theorem State.sendUnit_mem (s : State) (c k u : Nat) (q : CopySlot) (l : List (Int × Byte)) :
    (s.sendUnit c k u q l).mem = s.mem := by
  simp [State.sendUnit]

@[simp] theorem State.advanceRing_mem (s : State) (c : Nat) (g : Option Nat) (asSource : Bool) :
    (s.advanceRing c g asSource).mem = s.mem := by
  unfold State.advanceRing
  split <;> simp

@[simp] theorem State.tellStrand_mem (s : State) (r : CopyReport) : (s.tellStrand r).mem = s.mem := by
  unfold State.tellStrand
  (repeat' split) <;> simp

@[simp] theorem State.report_mem (s : State) (c k : Nat) (q : CopySlot) (reason : Nat) :
    (s.report c k q reason).mem = s.mem := by
  unfold State.report
  split <;> simp

@[simp] theorem State.freeWaiter_mem (s : State) (page : Nat) (ok : Bool) (w : Place) :
    (s.freeWaiter page ok w).mem = s.mem := by
  simp only [State.freeWaiter]
  (repeat' split) <;> simp

@[simp] theorem State.forgetUnit_mem (s : State) (d : Nat) (who : Place) : (s.forgetUnit d who).mem = s.mem := by
  unfold State.forgetUnit
  split <;> rfl

@[simp] theorem State.startShootdown_mem (s : State) (q : Shootdown) : (s.startShootdown q).mem = s.mem := (rfl)

@[simp] theorem State.maintDone_mem (s : State) (ctx : Nat) (c : Nat × Nat) : (s.maintDone ctx c).mem = s.mem := (rfl)

@[simp] theorem State.dropTranslations_mem (s : State) (ctx : Nat) (gone : TlbEntry → Bool) :
    (s.dropTranslations ctx gone).mem = s.mem := (rfl)

@[simp] theorem State.setSlot_mem (s : State) (ctx n : Nat) (v : KeySlot) : (s.setSlot ctx n v).mem = s.mem := by
  unfold State.setSlot
  split <;> simp

@[simp] theorem State.modPort_mem (s : State) (c : Nat) (f : Core → Core) : (s.modPort c f).mem = s.mem := by
  unfold State.modPort
  (repeat' split) <;> simp

@[simp] theorem State.nackAtTarget_mem (s : State) (id : Nat) (k : Packet) : (s.nackAtTarget id k).mem = s.mem := by
  simp [State.nackAtTarget]

@[simp] theorem State.countDamage_mem (s : State) (d : Nat) (k : Packet) : (s.countDamage d k).mem = s.mem := by
  simp [State.countDamage]

@[simp] theorem State.refuseDropped_mem (s : State) (k : Packet) : (s.refuseDropped k).mem = s.mem := by
  unfold State.refuseDropped
  split <;> simp

@[simp] theorem State.nackNarrowed_mem (s : State) (k : Packet) : (s.nackNarrowed k).mem = s.mem := by
  unfold State.nackNarrowed
  split <;> simp

theorem State.crossLink_mem {s go : State} (hgo : go.mem = s.mem) (id : Nat) (k : Packet) (l : Nat) (i : Instr) :
    (s.crossLink id k l i go).mem = s.mem := by
  simp only [State.crossLink]
  (repeat' split) <;> simp [hgo]

@[simp] theorem State.move_mem (s : State) (id : Nat) (k q : Packet) (l : Loc) : (s.move id k q l).mem = s.mem := by
  unfold State.move
  split <;> simp [State.crossLink_mem]

@[simp] theorem State.dropLogged_mem (s : State) (d id : Nat) (k : Packet) : (s.dropLogged d id k).mem = s.mem := by
  simp [State.dropLogged]

@[simp] theorem State.deliver_mem (s : State) (id : Nat) (k : Packet) (t : Nat) : (s.deliver id k t).mem = s.mem := by
  simp only [State.deliver]
  (repeat' split) <;> simp

theorem State.mem_of_mergeArrival {s t : State} {id : Nat} {k : Packet} (e : s.mergeArrival id k = some t) :
    t.mem = s.mem := by
  unfold State.mergeArrival at e
  dsimp only at e
  repeat' split at e
  all_goals cases e
  all_goals exact State.dropPacket_mem ..

@[simp] theorem State.fixedHop_mem (s : State) (id : Nat) (k : Packet) (c : Nat) : (s.fixedHop id k c).mem = s.mem := by
  simp only [State.fixedHop]
  (repeat' split) <;> simp [State.crossLink_mem]

@[simp] theorem State.retrace_mem (s : State) (id : Nat) (k : Packet) : (s.retrace id k).mem = s.mem := by
  unfold State.retrace
  (repeat' split) <;> simp [State.crossLink_mem]

@[simp] theorem State.gatewayNonce_mem (s : State) (key : Nat) : (s.gatewayNonce key).1.mem = s.mem := by
  simp only [State.gatewayNonce]
  split <;> simp

@[simp] theorem State.setAside_mem (s : State) (id : Nat) (k : Packet) : (s.setAside id k).mem = s.mem := by
  simp [State.setAside]

@[simp] theorem State.sendLeg_mem (s : State) (id : Nat) (k : Packet) (dir stride : Nat) :
    (s.sendLeg id k dir stride).mem = s.mem := by
  simp only [State.sendLeg]
  (repeat' split) <;> simp [State.crossLink_mem]

@[simp] theorem State.land_mem (s : State) (id : Nat) (k : Packet) (die port : Nat) : (s.land id k die port).mem = s.mem := by
  simp only [State.land]
  split
  · simp
  · refine State.crossLink_mem ?_ ..
    split <;> simp

@[simp] theorem State.home_mem (s : State) (k : Packet) : (s.home k).1.mem = s.mem := by
  simp only [State.home]
  split <;> simp

@[simp] theorem State.fromFibre_mem (s : State) (id : Nat) (k : Packet) : (s.fromFibre id k).mem = s.mem := by
  simp [State.fromFibre]

@[simp] theorem State.answerBack_mem (s : State) (id : Nat) (k : Packet) : (s.answerBack id k).mem = s.mem := by
  simp [State.answerBack]

@[simp] theorem State.gatewaySeg_mem (s : State) (id : Nat) (k : Packet) : (s.gatewaySeg id k).mem = s.mem := by
  simp [State.gatewaySeg]

@[simp] theorem State.sendWaiting_mem (s : State) (p : Place) (t : Strand) (d : SReg) (qs : List SendReq) :
    (s.sendWaiting p t d qs).mem = s.mem := by
  simp [State.sendWaiting]

@[simp] theorem State.takeMessage_mem (s : State) (p : Place) (slot g : Nat) (m : InboxSlot) :
    (s.takeMessage p slot g m).mem = s.mem := by
  simp [State.takeMessage]

@[simp] theorem State.feedRecv_mem (s : State) (p : Place) : (s.feedRecv p).mem = s.mem := by
  unfold State.feedRecv
  (repeat' split) <;> simp

@[simp] theorem State.park_mem (s : State) (id : Nat) (k : Packet) : (s.park id k).mem = s.mem := by
  simp [State.park]

@[simp] theorem State.applied_mem (s : State) (id : Nat) (k : Packet) (a : PKind) (payload : List Byte) (damage : Nat) :
    (s.applied id k a payload damage).mem = s.mem := by
  simp [State.applied]

@[simp] theorem State.managerPacket_mem (s : State) (k : Packet) (w : WorkPacket) :
    (s.managerPacket k w).mem = s.mem := by
  simp only [State.managerPacket]
  split <;> simp

@[simp] theorem State.revokeGroups_mem (s : State) (c : Nat) : (s.revokeGroups c).mem = s.mem := by
  unfold State.revokeGroups
  (repeat' split) <;> simp

@[simp] theorem State.settleOp_mem (s : State) (c op : Nat) : (s.settleOp c op).mem = s.mem := by
  simp [State.settleOp]

@[simp] theorem State.completeRemote_mem (s : State) (p : Place) (op : Nat) :
    (s.completeRemote p op).mem = s.mem := by
  simp only [State.completeRemote]
  (repeat' split) <;> simp

@[simp] theorem State.modBound_mem (s : State) (p : Place) (f : Strand → Strand) : (s.modBound p f).mem = s.mem := by
  unfold State.modBound
  split <;> rfl

@[simp] theorem State.refuseOut_mem (s : State) (c num reason : Nat) : (s.refuseOut c num reason).mem = s.mem := by
  simp only [State.refuseOut]
  (repeat' split) <;> simp

@[simp] theorem State.reDeal_mem (s : State) (c num : Nat) : (s.reDeal c num).mem = s.mem := by
  simp only [State.reDeal]
  (repeat' split) <;> simp

@[simp] theorem State.failOver_mem (s : State) (c num : Nat) (o : Outstanding) (reason : Nat) :
    (s.failOver c num o reason).mem = s.mem := by
  simp [State.failOver]

@[simp] theorem State.nackMove_mem (s : State) (c n : Nat) : (s.nackMove c n).mem = s.mem := by
  unfold State.nackMove
  split <;> simp

@[simp] theorem State.failLink_mem (s : State) (l : Nat) (st : LinkState) : (s.failLink l st).mem = s.mem := (rfl)

@[simp] theorem State.loseOn_mem (s : State) (l : Nat) : (s.loseOn l).mem = s.mem := by
  unfold State.loseOn
  split <;> simp

@[simp] theorem State.linkDown_mem (s : State) (l : Nat) : (s.linkDown l).mem = s.mem := by
  simp [State.linkDown]

@[simp] theorem State.retireEntry_mem (s : State) (l : Nat) : (s.retireEntry l).mem = s.mem := by
  simp only [State.retireEntry]
  split <;> simp

@[simp] theorem State.remintStrand_mem (s : State) (l : Nat) (p : Place) (t : Strand) :
    (s.remintStrand l p t).mem = s.mem := by
  unfold State.remintStrand
  refine State.foldl_mem (fun s a => ?_) _ _
  (repeat' split) <;> simp

@[simp] theorem State.grantLease_mem (s : State) (c h g : Nat) (l : Lease) : (s.grantLease c h g l).mem = s.mem := by
  simp [State.grantLease]

@[simp] theorem State.setCounter_mem (s : State) (d n : Nat) (v : Counter) : (s.setCounter d n v).mem = s.mem := (rfl)

@[simp] theorem State.sendNotices_mem (s : State) (d n scope : Nat) : (s.sendNotices d n scope).mem = s.mem := by
  unfold State.sendNotices
  refine State.foldl_mem (fun s a => ?_) _ _
  simp

@[simp] theorem State.writeCounter_mem (s : State) (d n scope : Nat) (old : Counter) (v : Nat) :
    (s.writeCounter d n scope old v).mem = s.mem := by
  simp [State.writeCounter]

@[simp] theorem State.setBarrier_mem (s : State) (c g : Nat) (b : Barrier) : (s.setBarrier c g b).mem = s.mem := by
  simp [State.setBarrier]

@[simp] theorem State.releaseBarrier_mem (s : State) (c g : Nat) (b : Barrier) :
    (s.releaseBarrier c g b).mem = s.mem := by
  simp [State.releaseBarrier]

@[simp] theorem State.checkBarrier_mem (s : State) (c g : Nat) (b : Barrier) :
    (s.checkBarrier c g b).mem = s.mem := by
  simp [State.checkBarrier]

@[simp] theorem State.countArrival_mem (s : State) (c g : Nat) (b : Barrier) (a : Arrival) :
    (s.countArrival c g b a).mem = s.mem := by
  simp [State.countArrival]

@[simp] theorem State.arriveRoot_mem (s : State) (c g phase : Nat) (b : Barrier) (a : Arrival) :
    (s.arriveRoot c g phase b a).mem = s.mem := by
  unfold State.arriveRoot
  split <;> simp

@[simp] theorem State.startRequest_mem (s : State) (q : Nat) : (s.startRequest q).mem = s.mem := by
  unfold State.startRequest
  split <;> rfl

@[simp] theorem State.holdFor_mem (s : State) (k : Nat) : (s.holdFor k).mem = s.mem := (rfl)

@[simp] theorem State.passMints_mem (s : State) (k : Nat) (words : Place → Strand → List (Nat × RouteWord)) :
    (s.passMints k words).mem = s.mem := by
  unfold State.passMints
  split
  · rfl
  · rw [State.holdFor_mem]
    refine State.foldl_mem (fun s e => State.foldl_mem (fun s t => ?_) _ _) _ _
    simp [State.foldl_mem]

@[simp] theorem State.dropMints_mem (s : State) (cores : List Nat) : (s.dropMints cores).mem = s.mem := (rfl)

@[simp] theorem State.skimCore_mem (s : State) (c : Nat) (bays : List Nat) : (s.skimCore c bays).mem = s.mem := by
  unfold State.skimCore
  refine State.foldl_mem (fun s a => ?_) _ _
  simp

@[simp] theorem State.emptyQueues_mem (s : State) (c : Nat) : (s.emptyQueues c).mem = s.mem := (rfl)

@[simp] theorem State.dropBarriers_mem (s : State) (cores : List Nat) : (s.dropBarriers cores).mem = s.mem := (rfl)

@[simp] theorem State.advancePorts_mem (s : State) (c : Nat) : (s.advancePorts c).mem = s.mem := by
  simp [State.advancePorts]

@[simp] theorem State.applyCounters_mem (s : State) (p : Program) : (s.applyCounters p).mem = s.mem := by
  simp [State.applyCounters]

@[simp] theorem State.launchCore_mem (s : State) (ctx k tag : Nat) (p : Program) (gs : List (Nat × List Place)) (c : Nat) :
    (s.launchCore ctx k tag p gs c).mem = s.mem := by
  simp [State.launchCore]

@[simp] theorem State.launchPlot_mem (s : State) (d ctx tag : Nat) (p : Program) :
    (s.launchPlot d ctx tag p).mem = s.mem := by
  simp [State.launchPlot]

@[simp] theorem State.freePlot_mem (s : State) (k : Nat) (q : Kernel) (cores : List Nat) :
    (s.freePlot k q cores).mem = s.mem := by
  unfold State.freePlot
  rw [State.forgetUnit_mem, State.dropMints_mem, State.dropBarriers_mem, State.foldl_mem fun _ _ => State.modCore_mem ..]

@[simp] theorem State.recoatCore_mem (s : State) (ctx tag want k : Nat) (p : Program) (gs : List (Nat × List Place)) (c : Nat) :
    (s.recoatCore ctx tag want k p gs c).mem = s.mem := by
  simp [State.recoatCore]

@[simp] theorem State.cancelForRecoat_mem (s : State) (cores : List Nat) (want : Nat) (p : Program) :
    (s.cancelForRecoat cores want p).mem = s.mem := by
  simp [State.cancelForRecoat]

@[simp] theorem State.handOver_mem (s : State) (k : Nat) (q : Kernel) (p : Program) (want : Nat) (cores : List Nat) :
    (s.handOver k q p want cores).mem = s.mem := by
  simp [State.handOver]

@[simp] theorem State.againHandover_mem (s : State) (k : Nat) : (s.againHandover k).mem = s.mem := (rfl)

@[simp] theorem State.fetchRequests_mem (s : State) (q : Nat) : (s.fetchRequests q).mem = s.mem := by
  simp [State.fetchRequests]

@[simp] theorem State.replyLease_mem (s : State) (c h g : Nat) : (s.replyLease c h g).mem = s.mem := by
  unfold State.replyLease
  split <;> simp

@[simp] theorem State.mintReply_mem (s : State) (p : Place) (reg : Nat) (w : RouteWord) :
    (s.mintReply p reg w).mem = s.mem := by
  simp only [State.mintReply]
  split <;> simp

@[simp] theorem State.tell_mem (s : State) (m : MgmtMsg) : (s.tell m).mem = s.mem := (rfl)

@[simp] theorem State.setContext_mem (s : State) (c : Nat) (x : Context) : (s.setContext c x).mem = s.mem := (rfl)

@[simp] theorem State.claimCore_mem (s : State) (c ctx : Nat) (poison : Bool) :
    (s.claimCore c ctx poison).mem = s.mem := by
  simp [State.claimCore]

@[simp] theorem State.lockCore_mem (s : State) (c ctx : Nat) : (s.lockCore c ctx).mem = s.mem := by
  simp [State.lockCore]

@[simp] theorem State.claimCounters_mem (s : State) (ctx : Nat) (l : List (Nat × Nat)) :
    (s.claimCounters ctx l).mem = s.mem := by
  simp [State.claimCounters]

@[simp] theorem State.unpark_mem (s : State) (c : Nat) : (s.unpark c).mem = s.mem := by
  simp [State.unpark]

@[simp] theorem State.freeCore_mem (s : State) (c : Nat) : (s.freeCore c).mem = s.mem := by
  unfold State.freeCore
  rw [State.unpark_mem, State.modCore_mem, State.dropMints_mem, State.advancePorts_mem, State.skimCore_mem,
    State.emptyQueues_mem, State.releaseLeases_mem]

@[simp] theorem State.freeCounters_mem (s : State) (ctx : Nat) : (s.freeCounters ctx).mem = s.mem := (rfl)

@[simp] theorem State.forgetPages_mem (s : State) (ctx : Nat) : (s.forgetPages ctx).mem = s.mem := (rfl)

@[simp] theorem State.beginUnlock_mem (s : State) (ctx : Nat) (x : Context) : (s.beginUnlock ctx x).mem = s.mem := by
  simp [State.beginUnlock]

@[simp] theorem State.dropUnsent_mem (s : State) (c : Nat) : (s.dropUnsent c).mem = s.mem := by
  unfold State.dropUnsent
  split <;> rfl

@[simp] theorem State.endUnlock_mem (s : State) (ctx : Nat) (x : Context) : (s.endUnlock ctx x).mem = s.mem := by
  simp only [State.endUnlock]
  split
  · simp
  · simp

@[simp] theorem State.beginSuspend_mem (s : State) (ctx : Nat) : (s.beginSuspend ctx).mem = s.mem := by
  unfold State.beginSuspend
  refine State.foldl_mem (fun s a => ?_) _ _
  simp

@[simp] theorem State.saveCore_mem (s : State) (c : Nat) : (s.saveCore c).mem = s.mem := by
  simp [State.saveCore]

@[simp] theorem State.restoreCore_mem (s : State) (r : Removal) (f : Nat → Nat) (part : Option Nat) (old : Nat) (sv : Core) :
    (s.restoreCore r f part old sv).mem = s.mem := by
  simp [State.restoreCore]

@[simp] theorem State.remintGroups_mem (s : State) (ctx c : Nat) : (s.remintGroups ctx c).mem = s.mem := (rfl)

@[simp] theorem State.recheckQueue_mem (s : State) (c : Nat) : (s.recheckQueue c).mem = s.mem := (rfl)

@[simp] theorem State.resumeCore_mem (s : State) (c : Nat) : (s.resumeCore c).mem = s.mem := by
  simp only [State.resumeCore, State.stirCopies_mem, State.serveTakers_mem, State.recheckQueue_mem]
  rw [State.foldl_mem fun s e => by split <;> rfl, State.foldl_mem fun s e => by split <;> rfl,
    State.foldl_mem fun s e => by split <;> rfl, State.foldl_mem fun s e => by simp]

@[simp] theorem State.retag_mem (s : State) (k : Nat) (q : Kernel) : (s.retag k q).mem = s.mem := by
  unfold State.retag
  split <;> rfl

@[simp] theorem State.restoreContext_mem (s : State) (ctx : Nat) (x : Context) (f : Nat → Nat) (moves : List (Rect × Rect))
    (part : Option Nat) : (s.restoreContext ctx x f moves part).mem = s.mem := by
  have moved (s : State) (l : List (Nat × Kernel)) :
      (l.foldl (fun s e => { s with kernels := mset s.kernels e.1 (e.2.move f) }) s).mem = s.mem :=
    State.foldl_mem (fun _ _ => by rfl) _ _
  simp only [State.restoreContext]
  rw [State.foldl_mem State.unpark_mem, State.foldl_mem State.resumeCore_mem, State.syncKeys_mem, State.setContext_mem,
    State.foldl_mem fun _ _ => State.passMints_mem .., State.foldl_mem fun _ _ => by split <;> simp]
  simp [moved]

@[simp] theorem loopEnter_mem (s : State) (i : Instr) (p : Place) (t : Strand) (level : Nat) (len : BitVec 5) (n : Nat) :
    (loopEnter s i p t level len n).mem = s.mem := by
  simp [loopEnter]

@[simp] theorem State.finishLoad_mem (s : State) (p : Place) (t : Strand) (d : SReg) (signed : Bool) (n : Nat) (r : Fetched) :
    (s.finishLoad p t d signed n r).mem = s.mem := by
  unfold State.finishLoad
  split <;> simp

@[simp] theorem State.sendChunk_mem (s : State) (ctx no : Nat) (key : Key) (last : Bool) (plain : List Nat)
    (body : Option Parcel) : (s.sendChunk ctx no key last plain body).1.mem = s.mem := (rfl)

@[simp] theorem State.sendChunks_mem (s : State) (ctx : Nat) (key : Key) (b : Parcel) :
    (s.sendChunks ctx key b).mem = s.mem := by
  simp [State.sendChunks]

@[simp] theorem State.discardIncoming_mem (s : State) (ctx : Nat) : (s.discardIncoming ctx).mem = s.mem := (rfl)

@[simp] theorem State.takeChunk_mem (s : State) (ctx : Nat) (g : Migration) (no : Nat) (last : Bool)
    (tag plain : List Nat) (body : Option Parcel) :
    (s.takeChunk ctx g no last tag plain body).mem = s.mem := by
  simp [State.takeChunk]

@[simp] theorem State.freezeContext_mem (s : State) (ctx : Nat) : (s.freezeContext ctx).mem = s.mem := by
  unfold State.freezeContext
  (repeat' split) <;> simp

@[simp] theorem State.tellPeer_mem (s : State) (ctx : Nat) (g : Migration) : (s.tellPeer ctx g).mem = s.mem := by
  simp [State.tellPeer]

@[simp] theorem State.detourLinks_mem (s : State) : (s.detourLinks).mem = s.mem := by
  simp [State.detourLinks]

@[simp] theorem State.resumeRequests_mem (s : State) : (s.resumeRequests).mem = s.mem := by
  simp [State.resumeRequests]

@[simp] theorem State.suspendAll_mem (s : State) (l : List Nat) : (s.suspendAll l).mem = s.mem := by
  simp [State.suspendAll]

@[simp] theorem State.loseTransfer_mem (s : State) (m : Nat) : (s.loseTransfer m).mem = s.mem := (rfl)

@[simp] theorem State.vcache_mem (s : State) (p : Place) (good : List (Nat × VLoc)) :
    (s.vcache p good).mem = s.mem := by
  unfold State.vcache
  refine State.foldl_mem (fun s a => ?_) _ _
  (repeat' split) <;> simp

@[simp] theorem unsplitRun_mem (s : State) (p : Place) (t : Strand) (needs : List (Nat × Bool)) (f : Strand → Strand) :
    (unsplitRun s p t needs f).mem = s.mem := State.withResident_mem fun _ => rfl

@[simp] theorem State.cacheCode_mem (s : State) (p : Place) (t : Strand) (pc : Word) :
    (s.cacheCode p t pc).mem = s.mem := by
  unfold State.cacheCode
  (repeat' split) <;> simp

@[simp] theorem State.fetched_mem (s : State) (p : Place) (t : Strand) (pc : Word) (w : IWord) :
    (s.fetched p t pc w).mem = s.mem := by
  simp [State.fetched]

@[simp] theorem State.fetchStop_mem (s : State) (p : Place) (pc : Word) (f : Fetch) : (s.fetchStop p pc f).mem = s.mem := by
  unfold State.fetchStop
  split <;> simp

@[simp] theorem State.issueAs_mem (s : State) (p : Place) : (s.issueAs p).mem = s.mem := (rfl)

@[simp] theorem State.takeDue_mem (s : State) (n : Nat) (d : Due) : (s.takeDue n d).mem = s.mem := by
  unfold State.takeDue
  split <;> rfl

@[simp] theorem State.noted_mem (s : State) (p : Place) (i : Instr) : (s.noted p i).mem = s.mem := by
  unfold State.noted
  split <;> rfl

@[simp] theorem State.tick_mem (s : State) : (s.tick).mem = s.mem := (rfl)

end Sys2Proof.Machine
end

section
/-!
PROOFS. The operations that write memory, or release, walk, serve and scrub on the way to it, keep it canonical (O7): each is made of
the writes whose rules stand with the laws of memory.
-/
set_option Elab.async false

namespace Sys2Proof.Machine

/-! ### Home memory -/

@[simp] theorem Memory.wf_recallAll {s : State} (l : Nat) (h : Memory.wf s.mem = true) :
    Memory.wf (s.recallAll l).mem = true := Memory.wf_recall l h

@[simp] theorem Memory.wf_writeBackDie {s : State} (d : Nat) (h : Memory.wf s.mem = true) :
    Memory.wf (s.writeBackDie d).mem = true :=
  Memory.wf_foldl _ (fun _ _ h => Memory.wf_writeBack _ _ h) _ h

@[simp] theorem Memory.wf_releaseEffect {s : State} (p : Place) (scope : Nat) (h : Memory.wf s.mem = true) :
    Memory.wf (s.releaseEffect p scope).mem = true := by
  unfold State.releaseEffect
  split
  · exact Memory.wf_writeBackDie _ h
  · exact h

theorem Memory.wf_release {s : State} {p : Place} {scope : Nat} {f : State → State} (h : Memory.wf s.mem = true)
    (hf : ∀ s, Memory.wf s.mem = true → Memory.wf (f s).mem = true) : Memory.wf (s.release p scope f).mem = true := by
  unfold State.release
  split
  · exact h
  · exact hf _ (Memory.wf_releaseEffect p scope h)

theorem Memory.wf_localAccess {s : State} {p : Place} {off n : Nat} {f : State → State} (h : Memory.wf s.mem = true)
    (hf : ∀ s, Memory.wf s.mem = true → Memory.wf (f s).mem = true) : Memory.wf (s.localAccess p off n f).mem = true := by
  unfold State.localAccess
  split
  · exact h
  · exact hf s h

theorem Memory.wf_withResident {s : State} {p : Place} {t : Strand} {needs : List (Nat × Bool)} {f : Strand → State}
    (h : Memory.wf s.mem = true) (hf : ∀ u, Memory.wf (f u).mem = true) :
    Memory.wf (s.withResident p t needs f).mem = true := by
  obtain ⟨u, e⟩ | ⟨r, e⟩ := s.withResident_cases p t needs f
  · rw [e]; exact hf u
  · rw [e, State.makeMoves_mem]; exact h

theorem Memory.wf_scrubRange {s : State} (a n : Nat) (h : Memory.wf s.mem = true) :
    Memory.wf (s.scrubRange a n).mem = true := Memory.wf_mdelRange a n h

/-! ### Translation and the page service -/

@[simp] theorem Memory.wf_markLeaf {s : State} (d a : Nat) (store : Bool) (h : Memory.wf s.mem = true) :
    Memory.wf (s.markLeaf d a store).mem = true := by
  unfold State.markLeaf
  extract_lets e marked
  split
  · exact h
  · exact Memory.wf_rawWrite _ _ h

@[simp] theorem Memory.wf_translate {s : State} (c va kind : Nat) (h : Memory.wf s.mem = true) :
    Memory.wf (s.translate c va kind).1.mem = true := by
  simp only [State.translate]
  split
  · exact h
  · split
    · simpa using h
    · split
      · simp only [State.fillTlb_mem, State.keepLevels_mem]
        exact Memory.wf_markLeaf _ _ _ (Memory.wf_markLeaf _ _ _ h)
      · simpa using h

@[simp] theorem Memory.wf_markDirty {s : State} (c va : Nat) (h : Memory.wf s.mem = true) :
    Memory.wf (s.markDirty c va).mem = true := by
  simp only [State.markDirty]
  split
  · rw [State.fillTlb_mem]
    exact Memory.wf_markLeaf _ _ _ (Memory.wf_markLeaf _ _ _ h)
  · exact h

@[simp] theorem Memory.wf_setBusy {s : State} (d ctx va : Nat) (v : Bool) (h : Memory.wf s.mem = true) :
    Memory.wf (s.setBusy d ctx va v).mem = true := by
  unfold State.setBusy
  split
  · exact h
  · split
    · exact h
    · exact Memory.wf_rawWrite _ _ h

@[simp] theorem Memory.wf_openService {s : State} (d ctx : Nat) (x : Xlat) (va : Nat) (write : Bool) (who : Option Place)
    (h : Memory.wf s.mem = true) : Memory.wf (s.openService d ctx x va write who).mem = true := by
  simp only [State.openService]
  (repeat' split) <;> simp [h]

@[simp] theorem Memory.wf_ownLine {s : State} (c k l : Nat) (h : Memory.wf s.mem = true) :
    Memory.wf (s.ownLine c k l).mem = true := by
  simp only [State.ownLine]
  split
  · exact h
  · exact Memory.wf_recall l h

@[simp] theorem Memory.wf_takeLines {s : State} (c k dspace : Nat) (units : List Nat) (h : Memory.wf s.mem = true) :
    Memory.wf (s.takeLines c k dspace units).mem = true := by
  unfold State.takeLines
  split
  · exact Memory.wf_foldl _ (fun _ _ h => Memory.wf_ownLine _ _ _ h) _ h
  · split <;> exact h

@[simp] theorem Memory.wf_retakeLines {s : State} (ctx : Nat) (settled : Bool) (h : Memory.wf s.mem = true) :
    Memory.wf (s.retakeLines ctx settled).mem = true := by
  refine Memory.wf_foldl _ (fun s e h => ?_) _ h
  split
  · exact h
  · refine Memory.wf_foldl _ (fun s q h => ?_) _ h
    split
    · apply Memory.wf_takeLines
      split <;> simpa using h
    · exact h

@[simp] theorem Memory.wf_closeService {s : State} (d ctx va : Nat) (kind : ServiceKind) (ok : Bool)
    (h : Memory.wf s.mem = true) : Memory.wf (s.closeService d ctx va kind ok).mem = true := by
  simp only [State.closeService]
  split
  · exact h
  · apply Memory.wf_retakeLines
    rw [State.forgetUnit_mem, State.foldl_mem fun _ _ => State.freeWaiter_mem ..]
    split
    · exact h
    · exact Memory.wf_setBusy _ _ _ _ h

/-! ### Accesses of units -/

theorem Memory.wf_andThen {α β : Type} {r : State × Got α} {f : State → α → State × Got β}
    (h : Memory.wf r.1.mem = true) (hf : ∀ s a, Memory.wf s.mem = true → Memory.wf (f s a).1.mem = true) :
    Memory.wf (andThen r f).1.mem = true := by
  unfold andThen
  split
  · exact hf _ _ h
  · exact h
  · exact h

theorem Memory.wf_unitFault {α : Type} {s : State} (d ctx : Nat) (x : Xlat) (va : Nat) (write : Bool) (who : Place)
    (h : Memory.wf s.mem = true) : Memory.wf (s.unitFault (α := α) d ctx x va write who).1.mem = true := by
  unfold State.unitFault
  split
  · exact h
  · split
    · exact h
    · split
      · exact h
      · exact Memory.wf_openService _ _ _ _ _ _ h

theorem Memory.wf_unitXlat {s : State} (d ctx va kind : Nat) (who : Place) (h : Memory.wf s.mem = true) :
    Memory.wf (s.unitXlat d ctx va kind who).1.mem = true := by
  unfold State.unitXlat
  split
  · rw [State.keepLevels_mem]
    exact Memory.wf_markLeaf _ _ _ (Memory.wf_markLeaf _ _ _ h)
  · exact Memory.wf_unitFault _ _ _ _ _ _ (by simpa using h)

theorem Memory.wf_frameXlat {s : State} (d ctx ia kind : Nat) (who : Place) (h : Memory.wf s.mem = true) :
    Memory.wf (s.frameXlat d ctx ia kind who).1.mem = true := by
  unfold State.frameXlat
  split
  · exact h
  · split
    · exact Memory.wf_unitFault _ _ _ _ _ _ h
    · split
      · exact h
      · dsimp only
        exact Memory.wf_markLeaf _ _ _ h

theorem Memory.wf_poolFrame {s : State} (d ctx : Nat) (who : Place) (h : Memory.wf s.mem = true) :
    Memory.wf (s.poolFrame d ctx who).1.mem = true := by
  unfold State.poolFrame
  split
  · exact h
  · dsimp only
    split
    · exact h
    · split
      · exact h
      · exact Memory.wf_andThen (Memory.wf_unitXlat _ _ _ _ _ h) fun _ _ h => h

theorem Memory.wf_readPieces {s : State} (d ctx : Nat) (who : Place) (l : List (Nat × Nat)) (h : Memory.wf s.mem = true) :
    Memory.wf (s.readPieces d ctx who l).1.mem = true := by
  induction l generalizing s with
  | nil => exact h
  | cons e r ih =>
    refine Memory.wf_andThen (Memory.wf_unitXlat _ _ _ _ _ h) fun s e h => ?_
    split
    · exact h
    · exact Memory.wf_andThen (ih h) fun _ _ h => h

theorem Memory.wf_unitRead {s : State} (d ctx va n : Nat) (who : Place) (h : Memory.wf s.mem = true) :
    Memory.wf (s.unitRead d ctx va n who).1.mem = true := Memory.wf_readPieces _ _ _ _ h

theorem Memory.wf_unitReads {s : State} (d ctx : Nat) (who : Place) (l : List (Nat × Nat)) (h : Memory.wf s.mem = true) :
    Memory.wf (s.unitReads d ctx who l).1.mem = true := by
  induction l generalizing s with
  | nil => exact h
  | cons e r ih =>
    exact Memory.wf_andThen (Memory.wf_unitRead _ _ _ _ _ h) fun _ _ h => Memory.wf_andThen (ih h) fun _ _ h => h

theorem Memory.wf_writePieces {s : State} (d ctx : Nat) (who : Place) (l : List (Nat × Nat)) (b : List Byte)
    (h : Memory.wf s.mem = true) : Memory.wf (s.writePieces d ctx who l b).1.mem = true := by
  induction l generalizing s b with
  | nil => exact h
  | cons e r ih =>
    exact Memory.wf_andThen (Memory.wf_unitXlat _ _ _ _ _ h) fun _ _ h =>
      Memory.wf_andThen (ih _ h) fun _ _ h => Memory.wf_physWrite _ _ _ _ _ _ h

theorem Memory.wf_unitWrite {s : State} (d ctx va : Nat) (b : List Byte) (who : Place) (h : Memory.wf s.mem = true) :
    Memory.wf (s.unitWrite d ctx va b who).1.mem = true := Memory.wf_writePieces _ _ _ _ _ h

theorem Memory.wf_writeRecord {s : State} (d ctx cmpl : Nat) (b : List Byte) (who : Place) (h : Memory.wf s.mem = true) :
    Memory.wf (s.writeRecord d ctx cmpl b who).1.mem = true := by
  have written := Memory.wf_unitWrite d ctx cmpl b who h
  unfold State.writeRecord
  split
  · exact h
  · split <;> simpa [*] using written

theorem Memory.wf_readDesc {s : State} (d ctx a : Nat) (who : Place) (h : Memory.wf s.mem = true) :
    Memory.wf (s.readDesc d ctx a who).1.mem = true :=
  Memory.wf_andThen (Memory.wf_unitRead _ _ _ _ _ h) fun _ _ h => h

theorem Memory.wf_readTables {s : State} (d ctx : Nat) (x : Desc) (who : Place) (h : Memory.wf s.mem = true) :
    Memory.wf (s.readTables d ctx x who).1.mem = true :=
  Memory.wf_andThen (Memory.wf_unitReads _ _ _ _ h) fun _ _ h => Memory.wf_andThen (Memory.wf_unitReads _ _ _ _ h)
    fun _ _ h => Memory.wf_andThen (Memory.wf_unitReads _ _ _ _ h) fun _ _ h =>
      Memory.wf_andThen (Memory.wf_unitReads _ _ _ _ h) fun _ _ h => Memory.wf_andThen (Memory.wf_unitReads _ _ _ _ h)
        fun _ _ h => h

/-! ### Page services -/

theorem Memory.wf_advancePool {s : State} (ctx : Nat) (h : Memory.wf s.mem = true) :
    Memory.wf (s.advancePool ctx).mem = true := by
  unfold State.advancePool
  split
  · exact h
  · exact Memory.wf_rawWrite _ _ h

theorem Memory.wf_copyFrame {s : State} (d core : Nat) (key : Key) (gen src dst : Nat) (h : Memory.wf s.mem = true) :
    Memory.wf (s.copyFrame d core key gen src dst).mem = true :=
  Memory.wf_foldl _ (fun _ _ h => Memory.wf_physWrite _ _ _ _ _ _ h) _ h

theorem Memory.wf_swapLine {s : State} (key : Key) (gen record old pa i : Nat) (h : Memory.wf s.mem = true) :
    Memory.wf (s.swapLine key gen record old pa i).mem = true := by
  unfold State.swapLine
  extract_lets c b s1
  have written : Memory.wf s1.mem = true := Memory.wf_rawWrite _ b h
  clear_value s1
  split <;> exact written

/-- A page service's answer leaves memory canonical: where it waits or fails, and in the state that it serves. -/
def Serves (r : State × Got State) : Prop :=
  Memory.wf r.1.mem = true ∧ ∀ s, r.2 = .ok s → Memory.wf s.mem = true

theorem serves_wait {s : State} (h : Memory.wf s.mem = true) : Serves (s, .wait) := ⟨h, fun _ e => nomatch e⟩
theorem serves_fail {s : State} (h : Memory.wf s.mem = true) : Serves (s, .fail) := ⟨h, fun _ e => nomatch e⟩
theorem serves_ok {s t : State} (hs : Memory.wf s.mem = true) (ht : Memory.wf t.mem = true) : Serves (s, .ok t) :=
  ⟨hs, fun _ e => Got.ok.inj e ▸ ht⟩

theorem serves_andThen {α : Type} {r : State × Got α} {f : State → α → State × Got State} (h : Memory.wf r.1.mem = true)
    (hf : ∀ s a, Memory.wf s.mem = true → Serves (f s a)) : Serves (andThen r f) := by
  unfold andThen
  split
  · exact hf _ _ h
  · exact serves_wait h
  · exact serves_fail h

theorem Memory.wf_endService {r : State × Got State} (d ctx va : Nat) (kind : ServiceKind) (h : Serves r) :
    Memory.wf (State.endService r d ctx va kind).mem = true := by
  obtain ⟨waits, serves⟩ := h
  unfold State.endService
  split
  · exact Memory.wf_retakeLines _ _ (serves _ rfl)
  · exact waits
  · exact Memory.wf_closeService _ _ _ _ _ waits

theorem Memory.wf_serveCow {s : State} (d ctx va core : Nat) (h : Memory.wf s.mem = true) :
    Memory.wf (s.serveCow d ctx va core).mem = true := by
  simp only [State.serveCow]
  split
  · split
    · exact Memory.wf_closeService _ _ _ _ _ h
    · split
      · exact Memory.wf_closeService _ _ _ _ _ h
      · refine Memory.wf_endService _ _ _ _ <| serves_andThen (Memory.wf_poolFrame _ _ _ h) fun s ia h =>
          serves_andThen (Memory.wf_frameXlat _ _ _ _ _ h) fun s src h =>
          serves_andThen (Memory.wf_frameXlat _ _ _ _ _ h) fun s dst h => ?_
        split
        · exact serves_fail h
        · refine serves_ok h ?_
          rw [State.startShootdown_mem]
          exact Memory.wf_rawWrite _ _ (Memory.wf_copyFrame _ _ _ _ _ _ (Memory.wf_advancePool _ h))
  · exact Memory.wf_closeService _ _ _ _ _ h

theorem Memory.wf_serveFaultIn {s : State} (d ctx va : Nat) (h : Memory.wf s.mem = true) :
    Memory.wf (s.serveFaultIn d ctx va).mem = true := by
  simp only [State.serveFaultIn]
  split
  · split
    · exact Memory.wf_closeService _ _ _ _ _ h
    · split
      · exact Memory.wf_closeService _ _ _ _ _ h
      · split
        · exact Memory.wf_closeService _ _ _ _ _ h
        · refine Memory.wf_endService _ _ _ _ <| serves_andThen (Memory.wf_poolFrame _ _ _ h) fun s ia h =>
            serves_andThen (Memory.wf_frameXlat _ _ _ _ _ h) fun s pa h => serves_ok h ?_
          rw [State.startShootdown_mem]
          exact Memory.wf_rawWrite _ _
            (Memory.wf_foldl _ (fun _ _ h => Memory.wf_swapLine _ _ _ _ _ _ h) _ (Memory.wf_advancePool _ h))
  · exact Memory.wf_closeService _ _ _ _ _ h

theorem Memory.wf_fillSystem {s : State} (d ia frame l t : Nat) (h : Memory.wf s.mem = true) :
    Memory.wf (s.fillSystem d ia frame l t).mem = true := by
  induction l generalizing s t with
  | zero =>
    simp only [State.fillSystem]
    split
    · exact h
    · exact Memory.wf_rawWrite _ _ h
  | succ l ih =>
    simp only [State.fillSystem]
    split
    · split
      · exact h
      · exact ih _ h
    · exact ih _ (Memory.wf_rawWrite _ _ (Memory.wf_scrubRange _ _ h))

theorem Memory.wf_afterShootdown {s : State} (q : Shootdown) (h : Memory.wf s.mem = true) :
    Memory.wf (s.afterShootdown q).mem = true := by
  unfold State.afterShootdown
  extract_lets s1 s2 s3
  have reread : s1.mem = s.mem := by unfold s1; split <;> rfl
  have counted : s2.mem = s1.mem := by unfold s2; split <;> simp
  have answered : s3.mem = s2.mem := by
    unfold s3
    split
    · split <;> rfl
    · rfl
  have same : Memory.wf s3.mem = true := by rw [answered, counted, reread]; exact h
  split
  · exact Memory.wf_closeService _ _ _ _ _ same
  · exact same

theorem Memory.wf_evictPage {s : State} (f : Leaf) (slot : KeySlot) (key : Key) (pa host : Nat) (h : Memory.wf s.mem = true) :
    Memory.wf (s.evictPage f slot key pa host).mem = true :=
  Memory.wf_rawWrite _ _ (Memory.wf_rawWrite _ _ (Memory.wf_foldl _ (fun _ _ h => Memory.wf_recall _ h) _ h))

theorem Memory.wf_skimTo {s : State} (d ctx va gen : Nat) (c : Nat × Nat) (h : Memory.wf s.mem = true) :
    Memory.wf (s.skimTo d ctx va gen c).mem = true := by
  unfold State.skimTo
  split
  · exact h
  · exact Memory.wf_rawWrite _ _ h

theorem Memory.wf_scrubPage {s : State} (d ctx : Nat) (f : Leaf) (h : Memory.wf s.mem = true) :
    Memory.wf (s.scrubPage d ctx f).mem = true := by
  unfold State.scrubPage
  split
  · exact h
  · refine Memory.wf_foldl _ (fun s i h => ?_) _ h
    dsimp only
    split
    · split
      · exact h
      · exact Memory.wf_scrubRange _ _ h
    · exact h

/-! ### Copy commands -/

theorem Memory.wf_startCopy {s : State} (c k : Nat) (h : Memory.wf s.mem = true) :
    Memory.wf (s.startCopy c k).mem = true := by
  unfold State.startCopy
  split
  · exact h
  · simp only [State.stirCopies_mem, State.stirCore_mem, State.nextLine_mem]
    exact Memory.wf_takeLines _ _ _ _ (by simpa using h)

theorem Memory.wf_copyByte {s : State} (c space : Nat) (a : Int) (h : Memory.wf s.mem = true) :
    Memory.wf (s.copyByte c space a).1.mem = true := by
  have walked := Memory.wf_translate c a.toNat 0 h
  unfold State.copyByte
  split
  · dsimp only
    split
    · (repeat' split) <;> simpa using walked
    · exact walked
    · exact walked
  · dsimp only
    (repeat' split) <;> exact h

theorem Memory.wf_copyBytes {s : State} (c space : Nat) (l : List (Int × Int)) (h : Memory.wf s.mem = true) :
    Memory.wf (s.copyBytes c space l).1.mem = true := by
  induction l generalizing s with
  | nil => exact h
  | cons e r ih =>
    simp only [State.copyBytes]
    split
    · exact Memory.wf_copyByte _ _ _ h
    · split <;> exact ih (Memory.wf_copyByte _ _ _ h)

theorem Memory.wf_copyFault {s : State} (c k u : Nat) (x : Xlat) (va : Nat) (write : Bool) (h : Memory.wf s.mem = true) :
    Memory.wf (s.copyFault c k u x va write).mem = true := by
  simp only [State.copyFault]
  split
  · exact Memory.wf_openService _ _ _ _ _ _ h
  · rw [State.retryLine_mem]
    exact Memory.wf_openService _ _ _ _ _ _ h

theorem Memory.wf_writeDeviceUnit {s : State} (c k u : Nat) (l : List (Int × Byte)) (h : Memory.wf s.mem = true) :
    Memory.wf (s.writeDeviceUnit c k u l).mem = true := by
  have walked := Memory.wf_translate c (64 * u) 1 h
  simp only [State.writeDeviceUnit]
  split
  · simpa using walked
  · split
    · exact Memory.wf_copyFault _ _ _ _ _ _ walked
    · simpa using walked
  · split
    · simpa using walked
    · split
      · simpa using walked
      · rw [State.unitWritten_mem]
        exact Memory.wf_foldl _ (fun _ _ h => Memory.wf_physWrite _ _ _ _ _ _ h) _ walked

/-! ### Requests, launches and records -/

theorem Memory.wf_finishRequest {s : State} (q status result : Nat) (h : Memory.wf s.mem = true) :
    Memory.wf (s.finishRequest q status result).mem = true := by
  unfold State.finishRequest
  dsimp only
  split
  · exact h
  · rw [State.startRequest_mem]
    exact Memory.wf_rawWrite _ _ h

theorem Memory.wf_endLaunch {s : State} (d : Nat) (r : LaunchReq) (status result : Nat) (h : Memory.wf s.mem = true) :
    Memory.wf (s.endLaunch d r status result).mem = true := by
  unfold State.endLaunch
  extract_lets s1 s2 s3
  have finished : Memory.wf s2.mem = true := by
    unfold s2
    split
    · exact Memory.wf_finishRequest _ _ _ h
    · exact h
  have forgotten : Memory.wf s3.mem = true := by simpa [s3] using finished
  split <;> exact forgotten

theorem Memory.wf_recordLaunch {s : State} (d : Nat) (r : LaunchReq) (cmpl : Nat) (b : List Byte) (reason : Nat)
    (h : Memory.wf s.mem = true) : Memory.wf (s.recordLaunch d r cmpl b reason).mem = true := by
  have written := Memory.wf_writeRecord d r.ctx cmpl b (failUnit d) h
  unfold State.recordLaunch
  split <;> rename_i e <;> rw [e] at written
  · exact written
  · exact Memory.wf_endLaunch _ _ _ _ written

theorem Memory.wf_failLaunch {s : State} (d : Nat) (r : LaunchReq) (cmpl reason : Nat) (h : Memory.wf s.mem = true) :
    Memory.wf (s.failLaunch d r cmpl reason).mem = true := Memory.wf_recordLaunch _ _ _ _ _ h

theorem Memory.wf_faultLaunch {s : State} (d : Nat) (r : LaunchReq) (p : Place) (tval : Word) (h : Memory.wf s.mem = true) :
    Memory.wf (s.faultLaunch d r p tval).mem = true := by
  have read := Memory.wf_readDesc d r.ctx r.desc (launchUnit d) h
  unfold State.faultLaunch
  dsimp only
  split <;> rename_i e <;> rw [e] at read
  · exact read
  · exact Memory.wf_recordLaunch _ _ _ _ _ read
  · exact Memory.wf_recordLaunch _ _ _ _ _ read

theorem Memory.wf_serveLaunch {s : State} (d : Nat) (r : LaunchReq) (h : Memory.wf s.mem = true) :
    Memory.wf (s.serveLaunch d r).mem = true := by
  have read := Memory.wf_readDesc d r.ctx r.desc (launchUnit d) h
  unfold State.serveLaunch
  split <;> rename_i e <;> rw [e] at read
  · exact read
  · exact Memory.wf_failLaunch _ _ _ _ read
  · rename_i s1 x
    have tables := Memory.wf_readTables d r.ctx x (launchUnit d) read
    split <;> rename_i e <;> rw [e] at tables
    · exact tables
    · exact Memory.wf_failLaunch _ _ _ _ tables
    · split
      · exact Memory.wf_endLaunch _ _ _ _ (by simpa using tables)
      · exact Memory.wf_failLaunch _ _ _ _ tables
      · exact Memory.wf_failLaunch _ _ _ _ tables

theorem Memory.wf_retireKernel {s : State} (k : Nat) (q : Kernel) (cores : List Nat) (h : Memory.wf s.mem = true) :
    Memory.wf (s.retireKernel k q cores).mem = true := by
  have home : Memory.wf ((cores.map dieOf).eraseDups.foldl (fun s d => s.writeBackDie d) s).mem = true :=
    Memory.wf_foldl _ (fun _ _ h => Memory.wf_writeBackDie _ h) _ h
  unfold State.retireKernel
  dsimp only
  split
  · split
    · exact h
    · rw [State.freePlot_mem]
      exact h
  · have written := Memory.wf_writeRecord q.die q.ctx q.cmpl
      (recordBytes KernState.retired.code 0 q.copyFail { core := 0, strand := 0 } 0) (kernelUnit q.die k) home
    split <;> rename_i e <;> rw [e] at written
    · exact written
    · split <;> exact Memory.wf_writeBackDie _ written

theorem Memory.wf_buryKernel {s : State} (k : Nat) (q : Kernel) (cores : List Nat) (h : Memory.wf s.mem = true) :
    Memory.wf (s.buryKernel k q cores).mem = true := by
  have written := Memory.wf_writeRecord q.die q.ctx q.cmpl (recordBytes q.state.code q.cause q.copyFail q.faultAt q.tval)
    (kernelUnit q.die k) h
  unfold State.buryKernel
  split <;> rename_i e <;> rw [e] at written
  · exact written
  · rw [State.freePlot_mem]
    exact written

theorem Memory.wf_checkSuccessor {s : State} (k : Nat) (q : Kernel) (first : Place) (a : Nat) (h : Memory.wf s.mem = true) :
    Memory.wf (s.checkSuccessor k q first a).mem = true := by
  have read := Memory.wf_readDesc q.die q.ctx a (kernelUnit q.die k) h
  unfold State.checkSuccessor
  dsimp only
  split <;> rename_i e <;> rw [e] at read
  · simpa using read
  · simpa using read
  · rename_i s1 x
    have tables := Memory.wf_readTables q.die q.ctx x (kernelUnit q.die k) read
    split <;> rename_i e <;> rw [e] at tables
    · simpa using tables
    · simpa using tables
    · split
      · simpa using tables
      · exact tables

theorem Memory.wf_finishRecoat {s : State} (k : Nat) (q : Kernel) (p : Program) (want : Nat) (cores : List Nat)
    (h : Memory.wf s.mem = true) : Memory.wf (s.finishRecoat k q p want cores).mem = true := by
  have cancelled : Memory.wf (s.cancelForRecoat cores want p).mem = true := by simpa using h
  have written := Memory.wf_writeRecord q.die q.ctx q.cmpl
    (recordBytes KernState.retired.code 0 q.copyFail { core := 0, strand := 0 } 0) (kernelUnit q.die k) cancelled
  unfold State.finishRecoat
  dsimp only
  split
  · simpa using h
  · split <;> rename_i e <;> rw [e] at written <;> simpa using written

/-! ### Contexts, migrations and starts -/

theorem Memory.wf_hostWrite {s : State} (pasid a : Nat) (b : List Byte) (h : Memory.wf s.mem = true) :
    Memory.wf (s.hostWrite pasid a b).mem = true := by
  refine List.foldlRecOn (motive := fun r : State × List Byte => Memory.wf r.1.mem = true) _ _ h fun r hr e _ => ?_
  dsimp only
  split
  · exact Memory.wf_rawWrite _ _ hr
  · exact hr

theorem Memory.wf_writeSaveArea {s : State} (ctx : Nat) (x : Context) (cores : List Nat) (h : Memory.wf s.mem = true) :
    Memory.wf (s.writeSaveArea ctx x cores).mem = true := Memory.wf_writeUnder _ _ _ h

theorem Memory.wf_scrubFrames {s : State} (x : Context) (h : Memory.wf s.mem = true) :
    Memory.wf (s.scrubFrames x).mem = true :=
  Memory.wf_foldl _ (fun _ _ h => Memory.wf_scrubRange _ _ h) _ h

theorem Memory.wf_commitMigration {s : State} (ctx : Nat) (g : Migration) (h : Memory.wf s.mem = true) :
    Memory.wf (s.commitMigration ctx g).mem = true := by
  unfold State.commitMigration
  split
  · dsimp only
    rw [State.syncKeys_mem, State.foldl_mem fun _ _ => State.setCounter_mem ..]
    exact Memory.wf_rawWrite _ _ (Memory.wf_rawWrite _ _ (Memory.wf_writeUnder _ _ _ h))
  · exact h

theorem Memory.wf_bindLinane {s : State} (linane : Option (Nat × List Byte)) (h : Memory.wf s.mem = true) :
    Memory.wf (s.bindLinane linane).mem = true := by
  unfold State.bindLinane
  split
  · exact h
  · dsimp only
    rw [State.foldl_mem fun _ _ => State.modCore_mem ..]
    exact Memory.wf_writeUnder _ _ _ h

theorem Memory.wf_coldStarted {s : State} (repair untrained absent : NSet) (temps : SMap Int) (h : Memory.wf s.mem = true) :
    Memory.wf (s.coldStarted repair untrained absent temps).mem = true := by
  unfold State.coldStarted
  rw [State.detourLinks_mem]
  dsimp only
  exact Memory.wf_mfilter _ h

theorem Memory.wf_coldFailed {s : State} (h : Memory.wf s.mem = true) : Memory.wf s.coldFailed.mem = true :=
  Memory.wf_coldStarted _ _ _ _ h

theorem Memory.wf_coldStart {s : State} (ok : Bool) (repair untrained absent : NSet) (temps : SMap Int)
    (linane : Option (Nat × List Byte)) (h : Memory.wf s.mem = true) :
    Memory.wf (s.coldStart ok repair untrained absent temps linane).mem = true := by
  unfold State.coldStart
  split
  · exact Memory.wf_bindLinane _ (Memory.wf_coldStarted _ _ _ _ h)
  · split <;> exact Memory.wf_coldFailed h

theorem Memory.wf_advancePage {s : State} (ctx : Nat) (f : Leaf) (h : Memory.wf s.mem = true) :
    Memory.wf (s.advancePage ctx f).mem = true := by
  apply Memory.wf_rawWrite
  split
  · exact Memory.wf_scrubPage _ _ _ h
  · exact h

theorem Memory.wf_advancePages {s : State} (ctx : Nat) (x : Context) (h : Memory.wf s.mem = true) :
    Memory.wf (s.advancePages ctx x).mem = true :=
  Memory.wf_foldl _ (fun _ _ h => Memory.wf_advancePage _ _ h) _ h

theorem Memory.wf_warmStarted {s : State} (untrained absent : NSet) (temps : SMap Int) (h : Memory.wf s.mem = true) :
    Memory.wf (s.warmStarted untrained absent temps).mem = true := by
  unfold State.warmStarted
  dsimp only
  rw [State.detourLinks_mem]
  exact Memory.wf_foldl _ (fun _ _ h => Memory.wf_advancePages _ _ h) _
    (Memory.wf_foldl _ (fun _ _ h => Memory.wf_writeBackDie _ h) _ h)

theorem Memory.wf_warmStart {s : State} (g : Given) (h : Memory.wf s.mem = true) : Memory.wf (s.warmStart g).mem = true := by
  simp only [State.warmStart]
  split
  · split
    · exact h
    · split
      · simpa using h
      · split
        · exact h
        · split
          · rw [State.resumeRequests_mem]
            exact Memory.wf_bindLinane _ (Memory.wf_warmStarted _ _ _ h)
          · exact Memory.wf_coldStart _ _ _ _ _ _ h
  · exact h

end Sys2Proof.Machine
end

section
/-!
PROOFS. An answer keeps memory canonical where its next state does. The frames that give instructions and due steps their operands,
and the operations that instructions share, keep memory canonical (O7).
-/
set_option Elab.async false

namespace Sys2Proof.Machine

/-! ### Answers -/

/-- An answer leaves memory canonical: the next state does, where there is one. -/
def Canonical : Res → Prop
  | .next s => Memory.wf s.mem = true
  | _ => True

@[simp] theorem canonical_next (s : State) : Canonical (.next s) ↔ Memory.wf s.mem = true := Iff.rfl
@[simp] theorem canonical_fault (f : Fault) : Canonical (.fault f) := trivial

theorem Canonical.wf_of_eq {r : Res} {t : State} (h : Canonical r) (e : r = .next t) : Memory.wf t.mem = true :=
  (canonical_next t).mp (e ▸ h)

theorem canonical_onStrand {s : State} {f : Place → Strand → State} (hf : ∀ p t, Memory.wf (f p t).mem = true) :
    Canonical (onStrand s f) := by
  unfold onStrand
  split
  · exact canonical_fault _
  · exact (canonical_next _).mpr (hf _ _)

theorem canonical_onPlace {s : State} {f : Place → Strand → State} (hf : ∀ p t, Memory.wf (f p t).mem = true) :
    Canonical (onPlace s f) := by
  unfold onPlace
  split <;> simp [hf]

theorem canonical_onCore {s : State} {f : Nat → Core → State} (hf : ∀ c x, Memory.wf (f c x).mem = true) : Canonical (onCore s f) := by
  unfold onCore
  split <;> simp [hf]

theorem canonical_onItem {s : State} {f : Nat → Nat → State} (hf : ∀ c i, Memory.wf (f c i).mem = true) : Canonical (onItem s f) := by
  unfold onItem
  split <;> simp [hf]

theorem canonical_onMaint {s : State} {f : Nat → Nat → Nat → Nat → Nat × Nat → State}
    (hf : ∀ ctx d a b c, Memory.wf (f ctx d a b c).mem = true) : Canonical (onMaint s f) := by
  unfold onMaint
  split <;> simp [hf]

theorem canonical_onLease {s : State} {f : Nat → Nat → State} (hf : ∀ c i, Memory.wf (f c i).mem = true) : Canonical (onLease s f) := by
  unfold onLease
  split <;> simp [hf]

theorem canonical_onPeer {s : State} {f : Nat → Nat → State} (hf : ∀ c m, Memory.wf (f c m).mem = true) : Canonical (onPeer s f) := by
  unfold onPeer
  split <;> simp [hf]

theorem canonical_onContext {s : State} {f : Nat → Option Context → State} (hf : ∀ c x, Memory.wf (f c x).mem = true) :
    Canonical (onContext s f) := by
  unfold onContext
  split <;> simp [hf]

section Frames
variable {s : State} (h : Memory.wf s.mem = true)
include h

theorem canonical_needSup {i : Instr} {f : Place → Strand → State} (hf : ∀ p t, Memory.wf (f p t).mem = true) :
    Canonical (needSup s i f) := canonical_onStrand fun p t => by
  split
  · exact hf p t
  · rwa [State.raise_mem]

theorem canonical_needManager {i : Instr} {f : Place → Strand → State} (hf : ∀ p t, Memory.wf (f p t).mem = true) :
    Canonical (needManager s i f) := canonical_onStrand fun p t => by
  split
  · exact hf p t
  · rwa [State.raise_mem]

theorem canonical_needLanes {i : Instr} {f : Place → Strand → State} (hf : ∀ p t, Memory.wf (f p t).mem = true) :
    Canonical (needLanes s i f) := canonical_onStrand fun p t => by
  split
  · exact hf p t
  · rwa [State.raise_mem]

theorem canonical_vecGate {i : Instr} {f : Place → Strand → State} (hf : ∀ p t, Memory.wf (f p t).mem = true) :
    Canonical (vecGate s i f) := canonical_needLanes h fun p t => by
  split
  · rwa [State.raise_mem]
  · exact hf p t

theorem Memory.wf_outsideBody {i : Instr} {p : Place} {t : Strand} {f : State} (hf : Memory.wf f.mem = true) :
    Memory.wf (outsideBody s i p t f).mem = true := by
  unfold outsideBody
  split
  · rwa [State.raise_mem]
  · exact hf

theorem canonical_taskOp {i : Instr} {f : Place → Strand → State} (hf : ∀ p t, Memory.wf (f p t).mem = true) :
    Canonical (taskOp s i f) := canonical_onStrand fun p t => Memory.wf_outsideBody h (hf p t)

theorem Memory.wf_withPacket {p : Place} {g : Word} {f : WorkPacket → List Byte → State}
    (hf : ∀ w b, Memory.wf (f w b).mem = true) : Memory.wf (s.withPacket p g f).mem = true := by
  unfold State.withPacket
  split
  · rwa [State.stallFor_mem]
  · rwa [State.uncorrected_mem]
  · exact hf _ _

theorem canonical_groupOp {i : Instr} {a : SReg} {f : Place → Strand → Nat → Nat → State}
    (hf : ∀ p t g k, Memory.wf (f p t g k).mem = true) : Canonical (groupOp s i a f) := canonical_onStrand fun p t => by
  dsimp only
  split
  · rwa [State.illegal_mem]
  · exact hf _ _ _ _

theorem canonical_feOp {a : SReg} {scope : Nat} {f : State → Place → Strand → Nat → State}
    (hf : ∀ s p t g, Memory.wf s.mem = true → Memory.wf (f s p t g).mem = true) : Canonical (feOp s a scope f) :=
  canonical_onStrand fun p t => by
    dsimp only
    split
    · rwa [State.raise_mem]
    · exact Memory.wf_release h fun _ h => Memory.wf_localAccess h fun _ h => hf _ _ _ _ h

theorem canonical_onIncoming {f : Nat → Migration → State} (hf : ∀ c g, Memory.wf (f c g).mem = true) :
    Canonical (onIncoming s f) := by
  unfold onIncoming
  split
  · rw [canonical_next]
    split
    · split
      · exact h
      · exact hf _ _
    · exact h
  · simp

theorem canonical_onHostWrite {f : Nat → Nat → Nat → HostQueue → State} (hf : ∀ q o v x, Memory.wf (f q o v x).mem = true) :
    Canonical (onHostWrite s f) := by
  unfold onHostWrite
  split
  · rw [canonical_next]
    split
    · exact h
    · exact hf _ _ _ _
  · simp

theorem canonical_onRequest {named : Nat → List Byte → Bool} {f : Nat → List Byte → State}
    (hf : ∀ q b, Canonical (.next (f q b))) : Canonical (onRequest s named f) := by
  unfold onRequest
  split
  · rw [canonical_next]
    dsimp only
    split
    · exact Memory.wf_finishRequest _ _ _ h
    · split
      · exact Memory.wf_finishRequest _ _ _ h
      · split
        · exact Memory.wf_finishRequest _ _ _ h
        · exact hf _ _
  · simp

theorem canonical_onPacket {f : Nat → Packet → State} (hf : ∀ id k, Memory.wf (f id k).mem = true) :
    Canonical (onPacket s f) := by
  unfold onPacket
  split
  · rw [canonical_next]
    split
    · exact h
    · exact hf _ _
  · simp

theorem canonical_atReceiver {f : State → Nat → Packet → State}
    (hf : ∀ s id k, Memory.wf s.mem = true → Canonical (.next (f s id k))) : Canonical (atReceiver s f) :=
  canonical_onPacket h fun id k => by
    split
    · simpa using h
    · exact hf _ _ _ (by simpa using h)

theorem canonical_atTarget {i : Instr} {f : State → Nat → Packet → State}
    (hf : ∀ s id k, Memory.wf s.mem = true → Memory.wf (f s id k).mem = true) : Canonical (atTarget s i f) :=
  canonical_onPacket h fun id k => by
    split
    · exact hf _ _ _ (by simpa using h)
    all_goals simpa using h

theorem Memory.wf_viaStation {core d n : Nat} {i : Instr} {go : State} (hgo : Memory.wf go.mem = true) :
    Memory.wf (s.viaStation core d n i go).mem = true := by
  unfold State.viaStation
  split
  · exact hgo
  · exact h

theorem Memory.wf_orHeldOnly {i : Instr} {t : State} (ht : Memory.wf t.mem = true) :
    Memory.wf (s.orHeldOnly i t).mem = true := by
  unfold State.orHeldOnly
  split
  · exact h
  · exact ht

theorem Memory.wf_orHeld {i : Instr} {ctx : Nat} {t : State} (ht : Memory.wf t.mem = true) :
    Memory.wf (s.orHeld i ctx t).mem = true := by
  refine Memory.wf_orHeldOnly h ?_
  split
  · exact h
  · exact ht

end Frames

/-! ### Scalar, vector and mask arithmetic -/

section Arithmetic
variable {s : State} (h : Memory.wf s.mem = true)
include h

theorem canonical_aluOp (d : SReg) (f : Strand → Word) : Canonical (aluOp s d f) := canonical_onStrand fun _ _ => h

theorem canonical_divOp (d : SReg) (f : Strand → Division 64) (pick : Division 64 → Word) : Canonical (divOp s d f pick) :=
  canonical_onStrand fun _ _ => h

theorem canonical_csrOp (i : Instr) (d : SReg) (n : BitVec 11) (new : Strand → Word → Option Word) :
    Canonical (csrOp s i d n new) := canonical_onStrand fun p t => by
  dsimp only
  (repeat' split) <;> simpa using h

theorem canonical_branchOp (i : Instr) (imm : BitVec 13) (c : Strand → Bool) : Canonical (branchOp s i imm c) :=
  canonical_onStrand fun _ _ => Memory.wf_outsideBody h h

theorem canonical_loadOp (d a : SReg) (imm : BitVec 13) (n : Nat) (signed : Bool) : Canonical (loadOp s d a imm n signed) :=
  canonical_onStrand fun p t => by
    dsimp only
    split <;> simpa using h

theorem canonical_storeOp (b a : SReg) (imm : BitVec 13) (n : Nat) : Canonical (storeOp s b a imm n) :=
  canonical_onStrand fun p t => by
    dsimp only
    split
    · simpa using h
    · simpa using h
    · exact Memory.wf_localAccess h fun _ h => h
    · split <;> exact h

theorem canonical_ringWait (d a b : SReg) (filled : Bool) : Canonical (ringWait s d a b filled) :=
  canonical_onStrand fun p t => by
    dsimp only
    (repeat' split) <;> simpa using h

theorem canonical_vecOp (i : Instr) (needs : List (Nat × Bool)) (d : VReg) (f : Strand → Nat → ElemRes) :
    Canonical (vecOp s i needs d f) := canonical_vecGate h fun p t => by rwa [vecRun_mem]

theorem canonical_vcmpOp (i : Instr) (d : MReg) (a : VReg) (b : VSrc) (f : Strand → Nat → Nat → Bool × BitVec 8) :
    Canonical (vcmpOp s i d a b f) := canonical_vecGate h fun _ _ => Memory.wf_withResident h fun _ => h

theorem canonical_vicmpOp (i : Instr) (d : MReg) (a : VReg) (b : VSrc) (f : Nat → Nat → Nat → Bool) :
    Canonical (vicmpOp s i d a b f) := canonical_vcmpOp h ..

theorem canonical_maskOp (d : MReg) (f : Strand → Nat → Bool) : Canonical (maskOp s d f) := canonical_onStrand fun _ _ => h

theorem canonical_maskUnsplit (keep f : Strand → Strand) : Canonical (maskUnsplit s keep f) := canonical_onStrand fun _ _ => h

theorem canonical_permOp (i : Instr) (needs : List (Nat × Bool)) (d : VReg) (f : Strand → Nat → Option Nat) :
    Canonical (permOp s i needs d f) :=
  canonical_vecGate h fun p t => by rwa [unsplitRun_mem]

theorem canonical_redOp (i : Instr) (d a : VReg) (b : VSrc) (f : Nat → Nat → Nat → Nat) : Canonical (redOp s i d a b f) :=
  canonical_vecGate h fun p t => by rwa [unsplitRun_mem]

theorem canonical_amoOp (op : AmoOp) (d a b : SReg) (wide : Bool) : Canonical (amoOp s op d a b wide) :=
  canonical_onStrand fun p t => by
    extract_lets n x kind
    split
    · rwa [State.raise_mem]
    · rwa [State.askWalk_mem]
    · refine Memory.wf_release h fun s h => Memory.wf_localAccess h fun s h => ?_
      dsimp only
      split
      · rwa [State.uncorrected_mem]
      · exact h
    · refine Memory.wf_release h fun s h => ?_
      split
      · exact h
      · split
        · rwa [State.uncorrected_mem]
        · have recalled (l a : Nat) : Memory.wf ((s.recallAll l).cacheHostLine (dieOf p.core) a).mem = true := by
            rw [State.cacheHostLine_mem]
            exact Memory.wf_recallAll l h
          dsimp only
          rw [State.complete_mem]
          split
          · exact recalled ..
          · apply Memory.wf_physWrite
            split
            · exact recalled ..
            · exact Memory.wf_markDirty _ _ (recalled ..)

theorem canonical_feLoad (d a : SReg) (keep : Bool) : Canonical (feLoad s d a keep) := canonical_feOp h fun s p t g h => by
  dsimp only
  split
  · exact h
  · split
    · rwa [State.uncorrected_mem]
    · rw [State.feEvent_mem]
      split <;> simpa using h

end Arithmetic

/-! ### Vector memory -/

section VectorMemory
variable {s : State} (h : Memory.wf s.mem = true)
include h

omit h in
/-- Finding an element walks for its page, or changes nothing. -/
theorem State.vlocate_cases (p : Place) (t : Strand) (a : VAccess) (x : Int) :
    (s.vlocate p t a x).1 = s ∨ (s.vlocate p t a x).1 = (s.translate p.core (tvalOf x).toNat a.kind).1 := by
  simp only [State.vlocate]
  (repeat' split) <;> simp

theorem Memory.wf_vlocate (p : Place) (t : Strand) (a : VAccess) (x : Int) : Memory.wf (s.vlocate p t a x).1.mem = true := by
  obtain e | e := s.vlocate_cases p t a x
  · rwa [e]
  · rw [e]
    exact Memory.wf_translate _ _ _ h

theorem Memory.wf_vscan (p : Place) (t : Strand) (a : VAccess) (addr : Nat → Int) (is : List Nat) :
    Memory.wf (s.vscan p t a addr is).st.mem = true := by
  induction is generalizing s with
  | nil => exact h
  | cons i r ih =>
    have located := Memory.wf_vlocate h p t a (addr i)
    simp only [State.vscan]
    split
    · exact located
    · split
      · exact located
      · exact ih located

theorem Memory.wf_vwrite (p : Place) (a : VAccess) (v : Nat) (l : VLoc) : Memory.wf (s.vwrite p a v l).mem = true := by
  cases l with
  | buffer off => exact h
  | phys pa e => exact Memory.wf_physWrite _ _ _ _ _ _ h

theorem Memory.wf_parkOn (p : Place) (x : Word) (kind : Nat) (why : Xlat) : Memory.wf (s.parkOn p x kind why).mem = true :=
  Memory.wf_openService _ _ _ _ _ _ h

theorem Memory.wf_vfail (p : Place) (f : VFail) : Memory.wf (s.vfail p f).mem = true := by
  cases f with
  | trap c x => simpa [State.vfail] using h
  | page x kind why => exact Memory.wf_parkOn h ..
  | spoilt pa => simpa [State.vfail] using h

theorem Memory.wf_vstop (p : Place) (t : Strand) (began : Bool) (m : MImage) (e : Nat) (why : VStop) :
    Memory.wf (s.vstop p t began m e why).mem = true := by
  cases why with
  | fail f =>
    have recorded : Memory.wf (s.setStrand p (t.progress (s.member p) e)).mem = true := h
    exact Memory.wf_vfail recorded ..
  | wait l =>
    unfold State.vstop
    dsimp only
    split <;> exact h

theorem Memory.wf_vloadRun (p : Place) (u : Strand) (d : VReg) (f : VForm) (ff bcast : Bool) :
    Memory.wf (vloadRun s p u d f ff bcast).mem = true := by
  unfold vloadRun
  extract_lets mask is c s1 w put img t1 s2
  have scanned : Memory.wf c.st.mem = true := Memory.wf_vscan h ..
  have cached : Memory.wf s1.mem = true := by rwa [State.vcache_mem]
  have acquired : Memory.wf s2.mem = true := by rwa [State.acquireEffect_mem]
  clear_value s2 t1 img put w s1 c is mask
  split
  · rwa [State.uncorrected_mem]
  · split
    · exact acquired
    · extract_lets isFail
      split
      · exact acquired
      · split
        · exact Memory.wf_vstop cached ..
        · exact Memory.wf_vstop (by rwa [State.acquireEffect_mem]) ..

theorem Memory.wf_vstoreRun (p : Place) (u : Strand) (d : VReg) (f : VForm) : Memory.wf (vstoreRun s p u d f).mem = true := by
  refine Memory.wf_release h fun s h => ?_
  have written := Memory.wf_foldl (fun s e => s.vwrite p f.acc (elem (u.v d) u.sewW e.1) e.2)
    (fun _ _ h => Memory.wf_vwrite h ..) (s.vscan p u f.acc f.addr (s.actives p u (s.maskOf p u))).good
    (Memory.wf_vscan h p u f.acc f.addr (s.actives p u (s.maskOf p u)))
  dsimp only
  split
  · exact written
  · exact Memory.wf_vstop written ..

theorem canonical_vldOp (i : Instr) (d : VReg) (a : SReg) (idx : Option VReg) (ff bcast : Bool) :
    Canonical (vldOp s i d a idx ff bcast) :=
  canonical_vecGate h fun _ _ => Memory.wf_withResident h fun _ => Memory.wf_vloadRun h ..

theorem canonical_vstOp (i : Instr) (d : VReg) (a : SReg) (idx : Option VReg) : Canonical (vstOp s i d a idx) :=
  canonical_vecGate h fun _ _ => Memory.wf_withResident h fun _ => Memory.wf_vstoreRun h ..

end VectorMemory

/-! ### Barriers and messages -/

theorem Memory.wf_arriveAt {s : State} (p : Place) (t : Strand) (i : Instr) (g k : Nat) (v : Option RedVal)
    (f : Strand → Strand) (h : Memory.wf s.mem = true) : Memory.wf (s.arriveAt p t i g k v f).mem = true := by
  unfold State.arriveAt
  split
  · rwa [State.illegal_mem]
  · exact Memory.wf_release h fun _ h => by simpa using h

/-- A message traps on its window, or goes out when its release lets it. The definition is unfolded as a whole: the kernel
would evaluate the window check if it had to compare an applied call with its body. -/
theorem State.sendMessage_induction {P : State → Prop} (s : State) (p : Place) (t : Strand) (a : RReg) (head : Word)
    (data : List Byte) (trapped : ∀ cause x, P (s.raise p cause x))
    (sent : ∀ q, P (s.release p (pathScope (t.w a)) fun s =>
      if data.isEmpty then s.complete p t else (s.complete p t).sendAll p q)) :
    P (s.sendMessage p t a head data) := by
  generalize unfolded : @State.sendMessage = f
  delta State.sendMessage at unfolded
  subst unfolded
  beta_reduce
  extract_lets w
  generalize checkWindow w (unitOff w (msgStrand head)) 1 1 = r
  cases r with
  | none => exact sent _
  | some c => exact trapped ..

theorem Memory.wf_sendMessage {s : State} (p : Place) (t : Strand) (a : RReg) (head : Word) (data : List Byte)
    (h : Memory.wf s.mem = true) : Memory.wf (s.sendMessage p t a head data).mem = true := by
  refine State.sendMessage_induction (P := fun s => Memory.wf s.mem = true) s p t a head data (fun _ _ => ?_) (fun q => ?_)
  · rwa [State.raise_mem]
  · refine Memory.wf_release h fun s h => ?_
    have completed : Memory.wf (s.complete p t).mem = true := h
    split
    · exact completed
    · rwa [State.sendAll_mem]

end Sys2Proof.Machine
end

section
/-!
PROOFS. Every instruction and every due step keeps memory canonical (O7): one rule for each that is no single shared operation, then
the rule for exec.
-/
set_option Elab.async false

namespace Sys2Proof.Machine

/-! ### Each instruction and due step -/

section Instructions
variable {s : State} (h : Memory.wf s.mem = true)
include h

theorem canonical_withPacket {p : Place} {g : Word} {f : WorkPacket → List Byte → State}
    (hf : ∀ w b, Canonical (.next (f w b))) : Canonical (.next (s.withPacket p g f)) :=
  (canonical_next _).mpr (Memory.wf_withPacket h fun w b => (canonical_next _).mp (hf w b))

theorem canonical_withResident {p : Place} {t : Strand} {needs : List (Nat × Bool)} {f : Strand → State}
    (hf : ∀ u, Canonical (.next (f u))) : Canonical (.next (s.withResident p t needs f)) :=
  (canonical_next _).mpr (Memory.wf_withResident h fun u => (canonical_next _).mp (hf u))

theorem canonical_execStfull (d a : SReg) : Canonical (execStfull d a s) :=
  canonical_feOp h fun _ _ _ _ h => by simpa using h

theorem canonical_execStfill (d a : SReg) : Canonical (execStfill d a s) :=
  canonical_feOp h fun _ _ _ _ h => by simpa using h

theorem canonical_execFeclr (a : SReg) : Canonical (execFeclr a s) :=
  canonical_feOp h fun _ _ _ _ h => by simpa using h

theorem canonical_execWld (d : RReg) (a : SReg) : Canonical (execWld d a s) :=
  canonical_onStrand fun _ _ => by
    dsimp only
    (repeat' split) <;> simpa using h

theorem canonical_execWst (d : RReg) (a : SReg) : Canonical (execWst d a s) :=
  canonical_onStrand fun p t => by
    dsimp only
    split
    · rwa [State.raise_mem]
    · exact Memory.wf_localAccess h fun _ h => h

theorem canonical_execWnarrow (d a : RReg) (b : SReg) : Canonical (execWnarrow d a b s) :=
  canonical_onStrand fun _ _ => by
    dsimp only
    split <;> simpa using h

theorem canonical_execWdlg (d a : RReg) (b : SReg) : Canonical (execWdlg d a b s) :=
  canonical_onStrand fun _ _ => by
    dsimp only
    split <;> simpa using h

theorem canonical_execWstripe (d : RReg) (a : SReg) : Canonical (execWstripe d a s) :=
  canonical_onStrand fun _ _ => by
    split <;> simpa using h

theorem canonical_execWclr (d : RReg) : Canonical (execWclr d s) :=
  canonical_onStrand fun _ _ => h

theorem canonical_execWinfo (d : SReg) (a : RReg) (b : SReg) : Canonical (execWinfo d a b s) :=
  canonical_onStrand fun _ _ => h

theorem canonical_execWmint (d : RReg) (a : SReg) : Canonical (execWmint d a s) :=
  canonical_needManager h fun _ _ => by
    dsimp only
    (repeat' split) <;> simpa using h

theorem canonical_execWgen (d a : SReg) : Canonical (execWgen d a s) :=
  canonical_needManager h fun _ _ => by simpa using h

theorem canonical_execWlease (d : SReg) (a : RReg) (b : SReg) : Canonical (execWlease d a b s) :=
  canonical_onStrand fun _ _ => by
    dsimp only
    (repeat' split) <;> simpa using h

theorem canonical_execWrelease (d a : SReg) : Canonical (execWrelease d a s) :=
  canonical_onStrand fun _ _ => by
    dsimp only
    split <;> simpa using h

theorem canonical_execWlstat (d a : SReg) : Canonical (execWlstat d a s) :=
  canonical_onStrand fun _ _ => h

theorem canonical_execCpy (d a : SReg) : Canonical (execCpy d a s) :=
  canonical_onStrand fun p t => by
    simp only []
    split
    · rwa [State.raise_mem]
    · split
      · rwa [State.raise_mem]
      · split
        · rwa [State.stallFor_mem]
        · rwa [State.uncorrected_mem]
        · split
          · rwa [State.illegal_mem]
          · split
            · rwa [State.raise_mem]
            · split
              · exact h
              · split
                · rwa [State.copyChanged_mem]
                · exact Memory.wf_startCopy _ _ h

theorem canonical_execCpywait (d a : SReg) : Canonical (execCpywait d a s) :=
  canonical_onStrand fun _ _ => by simpa using h

theorem canonical_execCpystat (d a : SReg) : Canonical (execCpystat d a s) :=
  canonical_onStrand fun _ _ => by
    dsimp only
    split <;> simpa using h

theorem canonical_execCpycan (d a : SReg) : Canonical (execCpycan d a s) :=
  canonical_onStrand fun _ _ => by simpa using h

theorem canonical_execMma (d : SReg) (a b : VReg) (rep : BitVec 4) : Canonical (execMma d a b rep s) :=
  canonical_needLanes h fun _ _ => by simpa using h

theorem canonical_execMopa (d : SReg) (a b : VReg) (rep : BitVec 4) : Canonical (execMopa d a b rep s) :=
  canonical_needLanes h fun _ _ => by simpa using h

theorem canonical_execMslide (d : SReg) (a b : VReg) (rep : BitVec 4) : Canonical (execMslide d a b rep s) :=
  canonical_needLanes h fun _ _ => by simpa using h

theorem canonical_execMrdc (d : SReg) (a : VReg) (rep : BitVec 4) : Canonical (execMrdc d a rep s) :=
  canonical_needLanes h fun _ _ => by simpa using h

theorem canonical_execMzero (d : SReg) (rep : BitVec 4) : Canonical (execMzero d rep s) :=
  canonical_onStrand fun _ _ => by simpa using h

theorem canonical_execMdrain (d : SReg) (rep : BitVec 4) : Canonical (execMdrain d rep s) :=
  canonical_onStrand fun _ _ => by simpa using h

theorem canonical_execMlds (a : SReg) : Canonical (execMlds a s) :=
  canonical_onStrand fun _ _ => by simpa using h

theorem canonical_execMldss (a : SReg) : Canonical (execMldss a s) :=
  canonical_onStrand fun _ _ => by simpa using h

theorem canonical_execMswap : Canonical (execMswap s) :=
  canonical_onStrand fun _ _ => by simpa using h

theorem canonical_execGbar (d a : SReg) : Canonical (execGbar d a s) :=
  canonical_groupOp h fun _ _ _ _ => Memory.wf_arriveAt _ _ _ _ _ _ _ h

theorem canonical_execGarrive (d a : SReg) : Canonical (execGarrive d a s) :=
  canonical_groupOp h fun _ _ _ _ => Memory.wf_arriveAt _ _ _ _ _ _ _ h

theorem canonical_execGwait (d a b : SReg) : Canonical (execGwait d a b s) :=
  canonical_groupOp h fun _ _ _ _ => by simpa using h

theorem canonical_execGred (d a b : SReg) : Canonical (execGred d a b s) :=
  canonical_groupOp h fun _ _ _ _ => by
    dsimp only
    split
    · rwa [State.illegal_mem]
    · exact Memory.wf_arriveAt _ _ _ _ _ _ _ h

theorem canonical_execGinfo (d a b : SReg) : Canonical (execGinfo d a b s) :=
  canonical_groupOp h fun _ _ _ _ => h

theorem canonical_execTake (d : SReg) : Canonical (execTake d s) :=
  canonical_taskOp h fun _ _ => by
    (repeat' split) <;> simpa using h

theorem canonical_execPost (d a : SReg) : Canonical (execPost d a s) :=
  canonical_taskOp h fun p t => by
    dsimp only
    split
    · rwa [State.raise_mem]
    · refine Memory.wf_withPacket h fun w _ => ?_
      split
      · exact h
      · split
        · exact h
        · exact Memory.wf_release h fun _ h => by simpa using h

theorem canonical_execPostw (a : RReg) (b : SReg) : Canonical (execPostw a b s) :=
  canonical_taskOp h fun p t => by
    dsimp only
    split
    · rwa [State.raise_mem]
    · refine (canonical_next _).mp (canonical_withPacket h fun w _ => ?_)
      split
      · simpa using h
      · exact (canonical_next _).mpr (Memory.wf_release h fun _ h => by simpa using h)

theorem canonical_execRetire (a : SReg) : Canonical (execRetire a s) :=
  canonical_taskOp h fun p t => by
    split
    · rwa [State.illegal_mem]
    · exact Memory.wf_release h fun _ h => by
        dsimp only
        split <;> exact h

theorem canonical_execYield : Canonical (execYield s) :=
  canonical_taskOp h fun _ _ => h

theorem canonical_execSleep : Canonical (execSleep s) :=
  canonical_taskOp h fun _ _ => by simpa using h

theorem canonical_execWake (a : SReg) : Canonical (execWake a s) :=
  canonical_taskOp h fun _ _ => by simpa using h

theorem canonical_execSignal (d a : SReg) : Canonical (execSignal d a s) :=
  canonical_taskOp h fun p t => by
    dsimp only
    split
    · rwa [State.illegal_mem]
    · exact Memory.wf_release h fun _ h => h

theorem canonical_execRecoat (a b : SReg) : Canonical (execRecoat a b s) :=
  canonical_taskOp h fun _ _ => by
    (repeat' split) <;> simpa using h

theorem canonical_execEcall : Canonical (execEcall s) :=
  canonical_onStrand fun _ _ => Memory.wf_outsideBody h (by rwa [State.raise_mem])

theorem canonical_execBrk : Canonical (execBrk s) :=
  canonical_onStrand fun _ _ => Memory.wf_outsideBody h (by rwa [State.raise_mem])

theorem canonical_execTrap (a : SReg) : Canonical (execTrap a s) :=
  canonical_onStrand fun _ _ => Memory.wf_outsideBody h (by rwa [State.raise_mem])

theorem canonical_execEret : Canonical (execEret s) :=
  canonical_needSup h fun _ _ => Memory.wf_outsideBody h h

theorem canonical_execUiret : Canonical (execUiret s) :=
  canonical_onStrand fun _ _ => Memory.wf_outsideBody h (by split <;> simpa using h)

theorem canonical_execWfi : Canonical (execWfi s) :=
  canonical_needSup h fun _ _ => Memory.wf_outsideBody h (by
    dsimp only
    (repeat' split) <;> exact h)

theorem canonical_execSlotw (a b : SReg) : Canonical (execSlotw a b s) :=
  canonical_needSup h fun _ _ => Memory.wf_outsideBody h (by
    dsimp only
    split <;> simpa using h)

theorem canonical_execHalt : Canonical (execHalt s) :=
  canonical_onStrand fun _ _ => Memory.wf_outsideBody h (by split <;> simpa using h)

theorem canonical_execLoftMovesComplete : Canonical (execLoftMovesComplete s) :=
  canonical_onPlace fun _ _ => by simpa using h

theorem canonical_execResourceAvailable : Canonical (execResourceAvailable s) :=
  canonical_onPlace fun _ _ => by
    split <;> simpa using h

theorem canonical_execLoadMissFill : Canonical (execLoadMissFill s) := by
  simp only [execLoadMissFill]
  (repeat' split) <;> simp [h]

theorem canonical_execStoreBufferDrain : Canonical (execStoreBufferDrain s) :=
  canonical_onCore fun _ _ => by
    split
    · exact h
    · split
      · exact h
      · exact Memory.wf_drainOne _ h

theorem canonical_execGranaryWriteback : Canonical (execGranaryWriteback s) :=
  canonical_onItem fun _ _ => Memory.wf_writeBack _ _ h

theorem canonical_execCoreBarrierQuiescent : Canonical (execCoreBarrierQuiescent s) :=
  canonical_onCore fun _ _ => by
    (repeat' split) <;> simpa using h

theorem canonical_execMatrixOpComplete : Canonical (execMatrixOpComplete s) :=
  canonical_onCore fun _ _ => by
    dsimp only
    (repeat' split) <;> simpa using h

theorem canonical_execTimecmpMatch : Canonical (execTimecmpMatch s) :=
  canonical_onPlace fun _ _ => by simpa using h

theorem canonical_execYieldExpiry : Canonical (execYieldExpiry s) :=
  canonical_onPlace fun _ _ => by simpa using h

theorem canonical_execUserInterruptEntry : Canonical (execUserInterruptEntry s) :=
  canonical_onPlace fun _ _ => by simpa using h

theorem canonical_execEngineTrap : Canonical (execEngineTrap s) :=
  canonical_onPlace fun _ _ => by
    split <;> simpa using h

theorem canonical_execUncorrectedTrap : Canonical (execUncorrectedTrap s) := by
  simp only [execUncorrectedTrap]
  (repeat' split) <;> simp [h]

theorem canonical_execLockWatchdog : Canonical (execLockWatchdog s) :=
  canonical_onPlace fun _ _ => by
    dsimp only
    (repeat' split) <;> simpa using h

theorem canonical_execFewaitLimit : Canonical (execFewaitLimit s) :=
  canonical_onPlace fun _ _ => by
    (repeat' split) <;> simpa using h

theorem canonical_execBarwaitLimit : Canonical (execBarwaitLimit s) :=
  canonical_onPlace fun _ _ => by
    (repeat' split) <;> simpa using h

theorem canonical_execCopyStart : Canonical (execCopyStart s) :=
  canonical_onItem fun _ _ => by
    split
    · exact h
    · split
      · exact Memory.wf_startCopy _ _ h
      · exact h

theorem canonical_execCopyLineWrite : Canonical (execCopyLineWrite s) := by
  unfold execCopyLineWrite
  split
  · next c k u _ =>
    rw [canonical_next]
    split
    · exact h
    · next q _ =>
      split
      · exact h
      · have copied := Memory.wf_copyBytes c ((s.core c).copySpaces q.desc).1 (q.unitBytes u) h
        dsimp only
        split
        · rwa [State.failCopy_mem]
        · split
          · simpa using copied
          · exact Memory.wf_copyFault _ _ _ _ _ _ copied
          · rwa [State.failCopy_mem]
          · split
            · simpa using copied
            · split
              · exact Memory.wf_writeDeviceUnit _ _ _ _ copied
              · simpa using copied
  · exact canonical_fault _

theorem canonical_execCopyDone : Canonical (execCopyDone s) :=
  canonical_onItem fun c k => by
    split
    · exact h
    · next q _ =>
      split
      · exact h
      · have released := Memory.wf_releaseEffect { core := c, strand := q.strand } q.desc.scope h
        simpa using released

theorem canonical_execCopyFail : Canonical (execCopyFail s) :=
  canonical_onItem fun _ _ => by
    split <;> simpa using h

theorem canonical_execCpycanComplete : Canonical (execCpycanComplete s) :=
  canonical_onPlace fun _ _ => by
    split <;> simpa using h

theorem canonical_execTranslationWalk : Canonical (execTranslationWalk s) := by
  unfold execTranslationWalk
  split
  · next p va kind _ =>
    have walked := Memory.wf_translate p.core va kind h
    rw [canonical_next]
    dsimp only
    split
    · exact h
    · split
      · exact h
      · split
        · exact walked
        · split
          · rwa [State.uncorrected_mem]
          · split
            · exact Memory.wf_openService _ _ _ _ _ _ walked
            · exact walked
  · exact canonical_fault _

theorem canonical_execPageServiceComplete : Canonical (execPageServiceComplete s) := by
  unfold execPageServiceComplete
  split
  · rw [canonical_next]
    split
    · exact h
    · split
      · exact h
      · split
        · exact Memory.wf_closeService _ _ _ _ _ h
        · split
          · exact Memory.wf_serveCow _ _ _ _ h
          · exact Memory.wf_serveFaultIn _ _ _ h
          · split
            · exact Memory.wf_closeService _ _ _ _ _ h
            · exact Memory.wf_closeService _ _ _ _ _ (Memory.wf_fillSystem _ _ _ _ _ h)
          · exact h
  · exact canonical_fault _

theorem canonical_execShootdown : Canonical (execShootdown s) :=
  canonical_onMaint fun _ _ _ _ _ => h

theorem canonical_execAtsInvalidation : Canonical (execAtsInvalidation s) :=
  canonical_onMaint fun _ _ _ _ _ => by simpa using h

theorem canonical_execShootdownComplete : Canonical (execShootdownComplete s) :=
  canonical_onItem fun _ _ => by
    split
    · exact h
    · split
      · exact h
      · exact Memory.wf_afterShootdown _ (by simpa using h)

theorem canonical_execEvict : Canonical (execEvict s) :=
  canonical_onMaint fun ctx d a0 a1 c => by
    dsimp only
    split
    · next f slot _ _ =>
      split
      · exact h
      · have framed := Memory.wf_frameXlat d ctx (pteFrame f.pte) 0 (serviceUnit d ctx (a0 * 32768) 2) h
        split
        · exact h
        · split <;> rename_i e <;> rw [e] at framed
          · exact framed
          · simpa using framed
          · split
            · exact framed
            · simpa using Memory.wf_evictPage _ _ _ _ _ framed
    · exact h

theorem canonical_execDestroyKeySlot : Canonical (execDestroyKeySlot s) :=
  canonical_onMaint fun _ _ _ _ _ => by
    split <;> simpa using h

theorem canonical_execGenerateKeySlot : Canonical (execGenerateKeySlot s) :=
  canonical_onMaint fun _ _ _ _ _ => by
    split <;> simpa using h

theorem canonical_execSkimPage : Canonical (execSkimPage s) :=
  canonical_onMaint fun _ _ _ _ _ => by
    dsimp only
    split
    · exact h
    · split
      · exact Memory.wf_skimTo _ _ _ _ _ h
      · split
        · exact Memory.wf_skimTo _ _ _ _ _ h
        · split
          · exact h
          · exact Memory.wf_skimTo _ _ _ _ _ (Memory.wf_scrubPage _ _ _ h)

theorem canonical_execPriResponse : Canonical (execPriResponse s) := by
  unfold execPriResponse
  split
  · rw [canonical_next]
    split
    · exact h
    · dsimp only
      split
      · exact Memory.wf_closeService _ _ _ _ _ h
      · split
        · split
          · exact Memory.wf_skimTo _ _ _ _ _ (Memory.wf_scrubPage _ _ _ h)
          · exact h
        · exact h
  · exact canonical_fault _

theorem canonical_execMaintRequestDiscard : Canonical (execMaintRequestDiscard s) := by
  unfold execMaintRequestDiscard
  split
  · simpa using h
  · simp

theorem canonical_execSwitchHeader : Canonical (execSwitchHeader s) :=
  canonical_onPacket h fun id k => by
    split
    · split
      · rwa [State.dropPacket_mem]
      · split
        · rwa [State.holdPacket_mem]
        · split
          · rwa [State.retrace_mem]
          · split
            · rwa [State.fixedHop_mem]
            · split
              · simpa using h
              · split
                · next merged => rwa [State.mem_of_mergeArrival merged]
                · split
                  · rwa [State.move_mem]
                  · rwa [State.move_mem]
                  · rwa [State.deliver_mem]
                  · rwa [State.dropLogged_mem]
    · exact h

theorem canonical_execGatewayHeader : Canonical (execGatewayHeader s) :=
  canonical_onPacket h fun _ _ => by
    (repeat' split) <;> simpa using h

theorem canonical_execRld (d : SReg) (a : RReg) (b : SReg) : Canonical (execRld d a b s) :=
  canonical_onStrand fun _ _ => by
    dsimp only
    split <;> simpa using h

theorem canonical_execRst (d : SReg) (a : RReg) (b : SReg) : Canonical (execRst d a b s) :=
  canonical_onStrand fun _ _ => by
    dsimp only
    split <;> simpa using h

theorem canonical_execRstf (d : SReg) (a : RReg) (b : SReg) : Canonical (execRstf d a b s) :=
  canonical_onStrand fun _ _ => by
    dsimp only
    split
    · rwa [State.raise_mem]
    · exact Memory.wf_release h fun _ h => by simpa using h

theorem canonical_execRamo (d : SReg) (a : RReg) (b : SReg) (op : BitVec 3) : Canonical (execRamo d a b op s) :=
  canonical_onStrand fun _ _ => by
    dsimp only
    split
    · rwa [State.illegal_mem]
    · split
      · rwa [State.raise_mem]
      · exact Memory.wf_release h fun _ h => by simpa using h

theorem canonical_execRldv (d : VReg) (a : RReg) (b : SReg) : Canonical (execRldv d a b s) :=
  canonical_needLanes h fun _ _ => by
    dsimp only
    split
    · rwa [State.raise_mem]
    · refine Memory.wf_withResident h fun _ => ?_
      split
      · exact h
      · simpa using h

theorem canonical_execRstv (d : VReg) (a : RReg) (b : SReg) : Canonical (execRstv d a b s) :=
  canonical_needLanes h fun _ _ => by
    dsimp only
    split
    · rwa [State.raise_mem]
    · exact Memory.wf_withResident h fun _ => by simpa using h

theorem canonical_execSend (d : SReg) (a : RReg) (b : SReg) : Canonical (execSend d a b s) :=
  canonical_onStrand fun _ _ => by
    dsimp only
    split
    · rwa [State.illegal_mem]
    · split
      · rwa [State.raise_mem]
      · split
        · rwa [State.stallFor_mem]
        · rwa [State.uncorrected_mem]
        · exact Memory.wf_sendMessage _ _ _ _ _ h

theorem canonical_execSendv (d : VReg) (a : RReg) (b : SReg) : Canonical (execSendv d a b s) :=
  canonical_needLanes h fun _ _ => by
    dsimp only
    split
    · rwa [State.illegal_mem]
    · split
      · rwa [State.raise_mem]
      · exact (canonical_next _).mp (canonical_withResident h fun _ =>
          (canonical_next _).mpr (Memory.wf_sendMessage _ _ _ _ _ h))

theorem canonical_execRecv (d a : SReg) : Canonical (execRecv d a s) :=
  canonical_onStrand fun _ _ => by
    dsimp only
    split
    · rwa [State.raise_mem]
    · split
      · exact h
      · exact Memory.wf_localAccess h fun _ h => by simpa using h

theorem canonical_execRemoteAccessArrival : Canonical (execRemoteAccessArrival s) :=
  canonical_atTarget h fun _ _ _ h => by
    dsimp only
    (repeat' split) <;> simpa using h

theorem canonical_execMessageArrival : Canonical (execMessageArrival s) :=
  canonical_atTarget h fun _ _ _ h => by
    dsimp only
    (repeat' split) <;> simpa using h

theorem canonical_execTaskPacketArrival : Canonical (execTaskPacketArrival s) :=
  canonical_atTarget h fun _ _ _ h => by
    (repeat' split) <;> simpa using h

theorem canonical_execPortGenAdvance : Canonical (execPortGenAdvance s) :=
  canonical_atReceiver h fun _ _ _ h => by
    split <;> simpa using h

theorem canonical_execResponseArrival : Canonical (execResponseArrival s) :=
  canonical_atReceiver h fun _ _ _ h => by
    (repeat' split) <;> simpa using h

theorem canonical_execAcknowledgementArrival : Canonical (execAcknowledgementArrival s) :=
  canonical_atReceiver h fun _ _ _ h => by
    (repeat' split) <;> simpa using h

theorem canonical_execRefusalArrival : Canonical (execRefusalArrival s) :=
  canonical_atReceiver h fun _ _ _ h => by
    (repeat' split) <;> simpa using h

theorem canonical_execNackArrival : Canonical (execNackArrival s) :=
  canonical_atReceiver h fun _ _ _ h => by
    (repeat' split) <;> simpa using h

theorem canonical_execNackResend : Canonical (execNackResend s) :=
  canonical_onItem fun _ _ => by
    (repeat' split) <;> simpa using h

theorem canonical_execKeepWaitingTimer : Canonical (execKeepWaitingTimer s) := by
  unfold execKeepWaitingTimer
  split
  · simpa using h
  · simp

theorem canonical_execKeepWaitingNotice : Canonical (execKeepWaitingNotice s) :=
  canonical_atReceiver h fun _ _ _ h => by
    split <;> simpa using h

theorem canonical_execResponseTimerExpiry : Canonical (execResponseTimerExpiry s) :=
  canonical_onItem fun _ _ => by
    split <;> simpa using h

theorem canonical_execRecoverySinkApply : Canonical (execRecoverySinkApply s) :=
  canonical_onCore fun _ _ => by
    split <;> simpa using h

theorem canonical_execLinkRetry : Canonical (execLinkRetry s) := by
  simp only [execLinkRetry]
  (repeat' split) <;> simp [h]

theorem canonical_execRouteRemint : Canonical (execRouteRemint s) := by
  simp only [execRouteRemint]
  (repeat' split) <;> simp [h]

theorem canonical_execLaneLoss : Canonical (execLaneLoss s) := by
  unfold execLaneLoss
  split
  · simpa using h
  · simp

theorem canonical_execChannelLockLoss : Canonical (execChannelLockLoss s) := by
  unfold execChannelLockLoss
  split
  · simpa using h
  · simp

theorem canonical_execBlockedHeadTimeout : Canonical (execBlockedHeadTimeout s) :=
  canonical_onPacket h fun _ _ => by simpa using h

theorem canonical_execTokenVisit : Canonical (execTokenVisit s) := by
  unfold execTokenVisit
  split
  · rw [canonical_next]
    dsimp only
    (repeat' split) <;> simpa using h
  · simp

theorem canonical_execLeaseRequestArrival : Canonical (execLeaseRequestArrival s) :=
  canonical_onPacket h fun _ _ => by
    (repeat' split) <;> simpa using h

theorem canonical_execLeaseGrant : Canonical (execLeaseGrant s) :=
  canonical_onLease fun _ _ => by
    split <;> simpa using h

theorem canonical_execRetuneComplete : Canonical (execRetuneComplete s) :=
  canonical_onLease fun _ _ => by
    dsimp only
    (repeat' split) <;> simpa using h

theorem canonical_execLeaseTermExpiry : Canonical (execLeaseTermExpiry s) :=
  canonical_onLease fun _ _ => by
    split <;> simpa using h

theorem canonical_execLeaseRequestTimeout : Canonical (execLeaseRequestTimeout s) :=
  canonical_onLease fun _ _ => by
    split <;> simpa using h

theorem canonical_execStarvationTimeout : Canonical (execStarvationTimeout s) := by
  unfold execStarvationTimeout
  split
  · rw [canonical_next]
    (repeat' split) <;> simpa using h
  · simp

theorem canonical_execReclaimExpiry : Canonical (execReclaimExpiry s) :=
  canonical_onLease fun _ _ => by
    split <;> simpa using h

theorem canonical_execCounterArm : Canonical (execCounterArm s) := by
  unfold execCounterArm
  split
  · exact (canonical_next _).mpr (Memory.wf_viaStation h h)
  · exact canonical_fault _

theorem canonical_execCounterSignal : Canonical (execCounterSignal s) := by
  unfold execCounterSignal
  split
  · refine (canonical_next _).mpr (Memory.wf_viaStation h ?_)
    dsimp only
    (repeat' split) <;> simpa using h
  · exact canonical_fault _

theorem canonical_execArmAnswer : Canonical (execArmAnswer s) := by
  unfold execArmAnswer
  split
  · refine (canonical_next _).mpr (Memory.wf_viaStation h ?_)
    split <;> simpa using h
  · exact canonical_fault _

theorem canonical_execZeroNotice : Canonical (execZeroNotice s) := by
  unfold execZeroNotice
  split
  · exact (canonical_next _).mpr (Memory.wf_viaStation h (by simpa using h))
  · exact canonical_fault _

theorem canonical_execTaskAging : Canonical (execTaskAging s) :=
  canonical_onItem fun _ _ => by
    split <;> simpa using h

theorem canonical_execBalancerRound : Canonical (execBalancerRound s) := by
  unfold execBalancerRound
  split
  · rw [canonical_next]
    split
    · exact h
    · exact Memory.wf_foldl _ (fun _ _ h => by rwa [State.later_mem]) _ h
  · exact canonical_fault _

theorem canonical_execBalanceCommand : Canonical (execBalanceCommand s) := by
  unfold execBalanceCommand
  split
  · simpa using h
  · simp

theorem canonical_execMigrationSend : Canonical (execMigrationSend s) :=
  canonical_onCore fun _ _ => by simpa using h

theorem canonical_execMigrationArrival : Canonical (execMigrationArrival s) :=
  canonical_atReceiver h fun _ _ _ h => by
    (repeat' split) <;> simpa using h

theorem canonical_execMigrationRefused : Canonical (execMigrationRefused s) :=
  canonical_atReceiver h fun _ _ _ h => by
    split <;> simpa using h

theorem canonical_execBarrierArrival : Canonical (execBarrierArrival s) :=
  canonical_atTarget h fun _ _ _ h => by
    (repeat' split) <;> simpa using h

theorem canonical_execBarrierReleaseSent : Canonical (execBarrierReleaseSent s) :=
  canonical_onItem fun c g => by
    split
    · exact h
    · split
      · exact h
      · refine Memory.wf_foldl _ (fun s a h => ?_) _ (by simpa using h)
        split <;> simpa using h

theorem canonical_execBarrierRelease : Canonical (execBarrierRelease s) :=
  canonical_atReceiver h fun _ _ _ h => by
    split <;> simpa using h

theorem canonical_execWatchArrival : Canonical (execWatchArrival s) :=
  canonical_atTarget h fun _ _ _ h => by
    (repeat' split) <;> simpa using h

theorem canonical_execWatchAnswer : Canonical (execWatchAnswer s) :=
  canonical_atReceiver h fun _ _ _ h => by
    dsimp only
    (repeat' split) <;> simpa using h

theorem canonical_execLeaveNotice : Canonical (execLeaveNotice s) :=
  canonical_atReceiver h fun _ _ _ h => by
    dsimp only
    (repeat' split) <;> simpa using h

theorem canonical_execWithdrawalArrival : Canonical (execWithdrawalArrival s) :=
  canonical_atTarget h fun _ _ _ h => by
    (repeat' split) <;> simpa using h

theorem canonical_execWithdrawalAnswer : Canonical (execWithdrawalAnswer s) :=
  canonical_atReceiver h fun _ _ _ h => by
    dsimp only
    (repeat' split) <;> simpa using h

theorem canonical_execJal (d : SReg) (imm : BitVec 19) : Canonical (execJal d imm s) :=
  canonical_onStrand fun _ _ => Memory.wf_outsideBody h h

theorem canonical_execJalr (d a : SReg) (imm : BitVec 13) : Canonical (execJalr d a imm s) :=
  canonical_onStrand fun _ _ => Memory.wf_outsideBody h (by
    dsimp only
    split <;> simpa using h)

theorem canonical_execBayScrubComplete : Canonical (execBayScrubComplete s) :=
  canonical_onItem fun _ _ => h

theorem canonical_execKernelLaunch : Canonical (execKernelLaunch s) := by
  unfold execKernelLaunch
  split
  · rw [canonical_next]
    split
    · exact h
    · split
      · exact Memory.wf_recordLaunch _ _ _ _ _ h
      · exact Memory.wf_faultLaunch _ _ _ _ h
      · exact Memory.wf_serveLaunch _ _ h
  · exact canonical_fault _

theorem canonical_execKernelRetire : Canonical (execKernelRetire s) := by
  unfold execKernelRetire
  split
  · rw [canonical_next]
    split
    · exact h
    · dsimp only
      split
      · exact h
      · split
        · exact h
        · have released : ∀ cores : List Nat, Memory.wf (cores.foldl (fun s c => s.releaseLeases c) s).mem = true :=
            fun cores => Memory.wf_foldl _ (fun s c h => by rwa [State.releaseLeases_mem]) cores h
          split
          · exact Memory.wf_buryKernel _ _ _ (released _)
          · exact Memory.wf_retireKernel _ _ _ (released _)
  · exact canonical_fault _

theorem canonical_execRecoatHandover : Canonical (execRecoatHandover s) := by
  unfold execRecoatHandover
  split
  · rw [canonical_next]
    split
    · exact h
    · dsimp only
      split
      · split
        · rwa [State.againHandover_mem]
        · split
          · exact Memory.wf_finishRecoat _ _ _ _ _ h
          · refine Memory.wf_checkSuccessor _ _ _ _ ?_
            split
            · exact Memory.wf_foldl _ (fun _ _ h => Memory.wf_writeBackDie _ h) _ h
            · exact h
      · exact h
  · exact canonical_fault _

theorem canonical_execHqTailWrite : Canonical (execHqTailWrite s) :=
  canonical_onHostWrite h fun _ _ _ _ => by simpa using h

theorem canonical_execHqEnableWrite : Canonical (execHqEnableWrite s) :=
  canonical_onHostWrite h fun _ _ _ _ => by simpa using h

theorem canonical_execHqRegWrite : Canonical (execHqRegWrite s) :=
  canonical_onHostWrite h fun _ _ _ _ => h

theorem canonical_execHostLaunch : Canonical (execHostLaunch s) :=
  canonical_onRequest h fun _ _ => h

theorem canonical_execHostPost : Canonical (execHostPost s) :=
  canonical_onRequest h fun q b => by
    split
    · exact Memory.wf_finishRequest _ _ _ h
    · next c _ =>
      have read := Memory.wf_unitRead (dieOf c) (s.core c).owner.id (reqBits b 0x10 0 64) 64 (queueUnit (dieOf c) q) h
      dsimp only
      split
      · exact Memory.wf_finishRequest _ _ _ h
      · split
        · exact Memory.wf_finishRequest _ _ _ h
        · split
          · exact h
          · split
            · exact Memory.wf_finishRequest _ _ _ h
            · split <;> rename_i e <;> rw [e] at read
              · exact read
              · exact Memory.wf_finishRequest _ _ _ read
              · split
                · exact Memory.wf_finishRequest _ _ _ read
                · exact Memory.wf_finishRequest _ _ _ (by simpa using read)

theorem canonical_execCounterSet : Canonical (execCounterSet s) :=
  canonical_onRequest h fun _ _ => Memory.wf_finishRequest _ _ _ (by simpa using h)

theorem canonical_execBalance : Canonical (execBalance s) :=
  canonical_onRequest h fun _ _ =>
    Memory.wf_finishRequest _ _ _ (Memory.wf_foldl _ (fun _ _ h => by rwa [State.later_mem]) _ h)

theorem canonical_execDutyReply : Canonical (execDutyReply s) :=
  canonical_onRequest h fun _ _ => by
    dsimp only
    split
    · exact Memory.wf_finishRequest _ _ _ h
    · split
      · exact Memory.wf_finishRequest _ _ _ h
      · exact Memory.wf_finishRequest _ _ _ (by simpa using h)
    · split
      · exact Memory.wf_finishRequest _ _ _ h
      · exact Memory.wf_finishRequest _ _ _ (by simpa using h)

theorem canonical_execToken : Canonical (execToken s) :=
  canonical_onRequest h fun _ _ => by
    dsimp only
    split <;> exact Memory.wf_finishRequest _ _ _ h

theorem canonical_execOccupancy : Canonical (execOccupancy s) :=
  canonical_onRequest h fun _ _ => by
    extract_lets d words
    exact (canonical_next _).mpr (Memory.wf_finishRequest _ _ _ (Memory.wf_hostWrite _ _ _ h))

theorem canonical_execLock : Canonical (execLock s) := by
  unfold execLock
  split
  · next id rects _ _ _ counters _ =>
    refine (canonical_next _).mpr (Memory.wf_orHeld h ?_)
    split
    · exact h
    · have locked : Memory.wf (((sortBy pkgKey ((rects.map Rect.cores).flatten.eraseDups)).foldl
          (fun s c => s.lockCore c id) s).claimCounters id counters).mem = true := by
        rw [State.claimCounters_mem]
        exact Memory.wf_foldl _ (fun _ _ h => by rwa [State.lockCore_mem]) _ h
      rw [State.tell_mem, State.syncKeys_mem]
      exact locked
  · exact canonical_fault _

theorem canonical_execUnlock : Canonical (execUnlock s) :=
  canonical_onContext fun ctx x? => by
    split
    · exact Memory.wf_orHeld h (by simpa using h)
    · split
      · exact Memory.wf_orHeld h (by simpa using h)
      · exact Memory.wf_orHeld h (by simpa using h)
      · exact Memory.wf_orHeld h (by simpa using h)
      · have dropped : Memory.wf ((s.coresOf ctx).foldl State.dropUnsent s).mem = true :=
          Memory.wf_foldl _ (fun s c h => by rwa [State.dropUnsent_mem]) _ h
        dsimp only
        split
        · simpa using dropped
        · exact dropped
      · exact Memory.wf_orHeld h (by simpa using h)

theorem canonical_execScrubComplete : Canonical (execScrubComplete s) := by
  unfold execScrubComplete
  split
  · rw [canonical_next]
    split
    · exact h
    · split
      · exact h
      · exact Memory.wf_scrubFrames _ h
  · exact canonical_fault _

theorem canonical_execSuspend : Canonical (execSuspend s) :=
  canonical_onContext fun ctx x? => Memory.wf_orHeld h (by split <;> simpa using h)

theorem canonical_execSuspendComplete : Canonical (execSuspendComplete s) := by
  unfold execSuspendComplete
  split
  · rw [canonical_next]
    split
    · exact h
    · dsimp only
      split
      · exact h
      · split
        · exact h
        · exact Memory.wf_foldl _ (fun _ _ h => by rwa [State.saveCore_mem]) _ (Memory.wf_writeSaveArea _ _ _ h)
  · exact canonical_fault _

theorem canonical_execRestore : Canonical (execRestore s) := by
  unfold execRestore
  split
  · refine (canonical_next _).mpr (Memory.wf_orHeld h ?_)
    split
    · exact h
    · dsimp only
      split <;> simpa using h
  · exact canonical_fault _

theorem canonical_execLoopi (level : Fin 6) (len : BitVec 5) (count : BitVec 16) : Canonical (execLoopi level len count s) :=
  canonical_onStrand fun _ _ => by simpa using h

theorem canonical_execLoop (level : Fin 6) (len : BitVec 5) (a : SReg) : Canonical (execLoop level len a s) :=
  canonical_onStrand fun _ _ => by simpa using h

theorem canonical_execMigrate : Canonical (execMigrate s) :=
  canonical_onPeer fun ctx m => Memory.wf_orHeld h (by
    split
    · split
      · simpa using h
      · simpa using h
    · simpa using h)

theorem canonical_execConfirm : Canonical (execConfirm s) :=
  canonical_onContext fun _ _ => by
    split <;> simpa using h

theorem canonical_execMigrationAbort : Canonical (execMigrationAbort s) :=
  canonical_onContext fun _ _ => by
    split <;> simpa using h

theorem canonical_execMigrationOffer : Canonical (execMigrationOffer s) := by
  unfold execMigrationOffer
  split
  · simpa using h
  · simp

theorem canonical_execMigrationChunk : Canonical (execMigrationChunk s) := by
  unfold execMigrationChunk
  split
  · rw [canonical_next]
    (repeat' split) <;> simpa using h
  · simp

theorem canonical_execMigrationAck : Canonical (execMigrationAck s) :=
  canonical_onIncoming h fun ctx g => by
    split
    · exact Memory.wf_commitMigration _ _ h
    · exact h

theorem canonical_execMigrationCommitTimeout : Canonical (execMigrationCommitTimeout s) :=
  canonical_onIncoming h fun ctx g => by
    split
    · split
      · exact Memory.wf_commitMigration _ _ h
      · exact h
    · exact h

theorem canonical_execAlarmNotice : Canonical (execAlarmNotice s) :=
  canonical_onIncoming h fun ctx g => by
    split
    · exact Memory.wf_commitMigration _ _ h
    · simpa using h

theorem canonical_execAlarmLevel2 : Canonical (execAlarmLevel2 s) := by
  unfold execAlarmLevel2
  split
  · simpa using h
  · simp

theorem canonical_execAlarmLevel3 : Canonical (execAlarmLevel3 s) := by
  unfold execAlarmLevel3
  split
  · simpa using h
  · simp

theorem canonical_execSensorLimit : Canonical (execSensorLimit s) := by
  unfold execSensorLimit
  split
  · simpa using h
  · simp

theorem canonical_execTamperMesh : Canonical (execTamperMesh s) := by
  simpa [execTamperMesh] using h

theorem canonical_execRingcfg (a b : SReg) : Canonical (execRingcfg a b s) :=
  canonical_onStrand fun _ _ => by simpa using h

theorem canonical_execRadvh (d a b : SReg) : Canonical (execRadvh d a b s) :=
  canonical_onStrand fun _ _ => by simpa using h

theorem canonical_execRadvt (d a b : SReg) : Canonical (execRadvt d a b s) :=
  canonical_onStrand fun _ _ => by
    dsimp only
    split
    · rwa [State.raise_mem]
    · exact Memory.wf_release h fun _ h => by simpa using h

theorem canonical_execRstat (d a : SReg) : Canonical (execRstat d a s) :=
  canonical_onStrand fun _ _ => h

theorem canonical_execColdStart : Canonical (execColdStart s) := by
  unfold execColdStart
  split
  · exact (canonical_next _).mpr (Memory.wf_coldStart _ _ _ _ _ _ h)
  · exact canonical_fault _

theorem canonical_execWarmStart : Canonical (execWarmStart s) := by
  unfold execWarmStart
  split
  · rw [canonical_next]
    refine Memory.wf_orHeldOnly h ?_
    split
    · exact Memory.wf_coldStart _ _ _ _ _ _ h
    · exact Memory.wf_warmStart _ h
  · rw [canonical_next]
    split
    · exact Memory.wf_warmStart _ h
    · exact h
  · exact canonical_fault _

theorem canonical_execSetDuty : Canonical (execSetDuty s) := by
  unfold execSetDuty
  split
  · exact (canonical_next _).mpr (Memory.wf_orHeldOnly h h)
  · exact canonical_fault _

theorem canonical_execFwStage : Canonical (execFwStage s) := by
  unfold execFwStage
  split
  · exact (canonical_next _).mpr (Memory.wf_orHeldOnly h h)
  · exact canonical_fault _

theorem canonical_execFwActivate : Canonical (execFwActivate s) := by
  unfold execFwActivate
  rw [canonical_next]
  refine Memory.wf_orHeldOnly h ?_
  split <;> exact h

theorem canonical_execReadLog : Canonical (execReadLog s) :=
  (canonical_next _).mpr (Memory.wf_orHeldOnly h h)

theorem canonical_execGetMeasurements : Canonical (execGetMeasurements s) := by
  simpa [execGetMeasurements] using h

theorem canonical_execKeyExchange : Canonical (execKeyExchange s) := by
  unfold execKeyExchange
  split
  · simpa using h
  · simp

theorem canonical_execFence (scope : Fin 7) : Canonical (execFence scope s) :=
  canonical_onStrand fun _ _ => Memory.wf_release h fun _ h => by simpa using h

theorem canonical_execFenceacq (scope : Fin 7) : Canonical (execFenceacq scope s) :=
  canonical_onStrand fun _ _ => by simpa using h

theorem canonical_execFencerel (scope : Fin 7) : Canonical (execFencerel scope s) :=
  canonical_onStrand fun _ _ => Memory.wf_release h fun _ h => h

theorem canonical_execFenceeng (scope : Fin 7) : Canonical (execFenceeng scope s) :=
  canonical_onStrand fun _ _ => by
    split
    · exact h
    · split
      · exact h
      · exact Memory.wf_release h fun _ h => by simpa using h

theorem canonical_execWfev (scope : Fin 7) : Canonical (execWfev scope s) :=
  canonical_onStrand fun _ _ => by simpa using h

theorem canonical_execVfcvt (c : Bool) (d a : VReg) (f : Fin 32) : Canonical (execVfcvt c d a f s) :=
  canonical_vecGate h fun _ _ => Memory.wf_withResident h fun _ => h

theorem canonical_execVmerge (c : Bool) (d a : VReg) (b : VSrc) : Canonical (execVmerge c d a b s) :=
  canonical_needLanes h fun _ _ => by simpa using h

theorem canonical_execMfromv (c : Bool) (d : MReg) (a : VReg) : Canonical (execMfromv c d a s) :=
  canonical_vecGate h fun _ _ => Memory.wf_withResident h fun _ => h

theorem canonical_execMtov (c : Bool) (d : VReg) (a : MReg) : Canonical (execMtov c d a s) :=
  canonical_vecGate h fun _ _ => by simpa using h

theorem canonical_execVldq (c : Bool) (d : VReg) (a : SReg) : Canonical (execVldq c d a s) :=
  canonical_vecGate h fun _ _ => Memory.wf_withResident h fun _ => Memory.wf_vloadRun h _ _ _ _ _ _

theorem canonical_execVstq (c : Bool) (d : VReg) (a : SReg) : Canonical (execVstq c d a s) :=
  canonical_vecGate h fun _ _ => Memory.wf_withResident h fun _ => Memory.wf_vstoreRun h _ _ _ _

theorem canonical_execVcompress (c : Bool) (d a : VReg) : Canonical (execVcompress c d a s) :=
  canonical_vecGate h fun _ _ => by simpa using h

theorem canonical_execVextr (c : Bool) (d : SReg) (a : VReg) (b : SReg) : Canonical (execVextr c d a b s) :=
  canonical_vecGate h fun _ _ => by simpa using h

theorem canonical_execVinsr (c : Bool) (d : VReg) (a b : SReg) : Canonical (execVinsr c d a b s) :=
  canonical_vecGate h fun _ _ => by simpa using h

theorem canonical_execViota (c : Bool) (d : VReg) : Canonical (execViota c d s) :=
  canonical_vecGate h fun _ _ => by simpa using h

theorem canonical_execVfredsum (c : Bool) (d a : VReg) (b : VSrc) : Canonical (execVfredsum c d a b s) :=
  canonical_vecGate h fun _ _ => by simpa using h

theorem canonical_execVscan (c : Bool) (d a : VReg) : Canonical (execVscan c d a s) :=
  canonical_vecGate h fun _ _ => Memory.wf_withResident h fun _ => h

theorem canonical_execSetvl (d a : SReg) (rnd : Fin 5) (vfmt : Fin 3) (space : Fin 5)
    (scope : Fin 7) (sew : Fin 3) : Canonical (execSetvl d a rnd vfmt space scope sew s) :=
  canonical_onStrand fun _ _ => by simpa using h

end Instructions

theorem exec_canonical (i : Instr) {s : State} (h : Memory.wf s.mem = true) : Canonical (exec i s) := by
  cases i with
  | trap => exact canonical_execTrap h ..
  | slotw => exact canonical_execSlotw h ..
  | add | sub | and | or | xor | sll | srl | sra | slt | sltu | mul | mulh | mulhu | min | max | minu | maxu | clz |
    ctz | popc | addi | andi | ori | xori | slti | sltiu | slli | srli | srai | lui | addpc =>
    dsimp only [exec]
    exact canonical_aluOp h ..
  | div | divu | rem | remu =>
    dsimp only [exec]
    exact canonical_divOp h ..
  | ldb | ldbu | ldh | ldhu | ldw | ldwu | ldd =>
    dsimp only [exec]
    exact canonical_loadOp h ..
  | stb | sth | stw | std =>
    dsimp only [exec]
    exact canonical_storeOp h ..
  | beq | bne | blt | bge | bltu | bgeu =>
    dsimp only [exec]
    exact canonical_branchOp h ..
  | jal => exact canonical_execJal h ..
  | jalr => exact canonical_execJalr h ..
  | loopi => exact canonical_execLoopi h ..
  | loop => exact canonical_execLoop h ..
  | amoadd | amoswap | amocas | amomin | amomax | amominu | amomaxu | amoand | amoor | amoxor =>
    dsimp only [exec]
    exact canonical_amoOp h ..
  | fence => exact canonical_execFence h ..
  | fenceacq => exact canonical_execFenceacq h ..
  | fencerel => exact canonical_execFencerel h ..
  | fenceeng => exact canonical_execFenceeng h ..
  | wfev => exact canonical_execWfev h ..
  | take => exact canonical_execTake h ..
  | post => exact canonical_execPost h ..
  | postw => exact canonical_execPostw h ..
  | retire => exact canonical_execRetire h ..
  | wake => exact canonical_execWake h ..
  | signal => exact canonical_execSignal h ..
  | recoat => exact canonical_execRecoat h ..
  | ldfull | ldfullk =>
    dsimp only [exec]
    exact canonical_feLoad h ..
  | stfull => exact canonical_execStfull h ..
  | stfill => exact canonical_execStfill h ..
  | feclr => exact canonical_execFeclr h ..
  | setvl => exact canonical_execSetvl h ..
  | vadd | vsub | vrsub | vmul | vmulh | vmulhu | vmadd | vmsub | vdiv | vdivu | vrem | vremu | vmin | vmax | vminu |
    vmaxu | vand | vor | vxor | vsll | vsrl | vsra | vsadd | vsaddu | vssub | vssubu | vmv | vabs | vclz | vpopc |
    vfadd | vfsub | vfmul | vfma | vfms | vfnma | vfdiv | vfsqrt | vfmin | vfmax | vfabs | vfneg | vfcvti | vicvtf |
    vfclass | vexp2 | vlog2 | vrcp | vrsqrt | vsin | vcos | vtanh | vsigm =>
    dsimp only [exec]
    exact canonical_vecOp h ..
  | vmerge => exact canonical_execVmerge h ..
  | vfcvt => exact canonical_execVfcvt h ..
  | vxchg | vslideup | vslidedn | vslide1up | vslide1dn | vgather =>
    dsimp only [exec]
    exact canonical_permOp h ..
  | vcompress => exact canonical_execVcompress h ..
  | vextr => exact canonical_execVextr h ..
  | vinsr => exact canonical_execVinsr h ..
  | viota => exact canonical_execViota h ..
  | vredsum | vredmin | vredmax | vredminu | vredmaxu | vredand | vredor | vredxor =>
    dsimp only [exec]
    exact canonical_redOp h ..
  | vfredsum => exact canonical_execVfredsum h ..
  | vscan => exact canonical_execVscan h ..
  | vceq | vcne | vclt | vcltu | vcle | vcleu | vcgt | vcgtu =>
    dsimp only [exec]
    exact canonical_vicmpOp h ..
  | vfceq | vfclt | vfcle | vfcun =>
    dsimp only [exec]
    exact canonical_vcmpOp h ..
  | mand | mor | mxor | mandn | mnot =>
    dsimp only [exec]
    exact canonical_maskOp h ..
  | mpopc | mfirst | mskft | mskbf =>
    dsimp only [exec]
    exact canonical_maskUnsplit h ..
  | mfromv => exact canonical_execMfromv h ..
  | mtov => exact canonical_execMtov h ..
  | vld | vldff | vldx | vldbc =>
    dsimp only [exec]
    exact canonical_vldOp h ..
  | vst | vstx =>
    dsimp only [exec]
    exact canonical_vstOp h ..
  | vldq => exact canonical_execVldq h ..
  | vstq => exact canonical_execVstq h ..
  | mma => exact canonical_execMma h ..
  | mopa => exact canonical_execMopa h ..
  | mslide => exact canonical_execMslide h ..
  | mrdc => exact canonical_execMrdc h ..
  | mzero => exact canonical_execMzero h ..
  | mdrain => exact canonical_execMdrain h ..
  | ringcfg => exact canonical_execRingcfg h ..
  | rwaitf | rwaite =>
    dsimp only [exec]
    exact canonical_ringWait h ..
  | radvh => exact canonical_execRadvh h ..
  | radvt => exact canonical_execRadvt h ..
  | rstat => exact canonical_execRstat h ..
  | cpy => exact canonical_execCpy h ..
  | cpywait => exact canonical_execCpywait h ..
  | cpystat => exact canonical_execCpystat h ..
  | cpycan => exact canonical_execCpycan h ..
  | wld => exact canonical_execWld h ..
  | wst => exact canonical_execWst h ..
  | wnarrow => exact canonical_execWnarrow h ..
  | wdlg => exact canonical_execWdlg h ..
  | wstripe => exact canonical_execWstripe h ..
  | wclr => exact canonical_execWclr h ..
  | winfo => exact canonical_execWinfo h ..
  | wmint => exact canonical_execWmint h ..
  | wgen => exact canonical_execWgen h ..
  | send => exact canonical_execSend h ..
  | sendv => exact canonical_execSendv h ..
  | recv => exact canonical_execRecv h ..
  | rld => exact canonical_execRld h ..
  | rst => exact canonical_execRst h ..
  | rstf => exact canonical_execRstf h ..
  | rldv => exact canonical_execRldv h ..
  | rstv => exact canonical_execRstv h ..
  | ramo => exact canonical_execRamo h ..
  | wlease => exact canonical_execWlease h ..
  | wrelease => exact canonical_execWrelease h ..
  | wlstat => exact canonical_execWlstat h ..
  | gbar => exact canonical_execGbar h ..
  | garrive => exact canonical_execGarrive h ..
  | gwait => exact canonical_execGwait h ..
  | gred => exact canonical_execGred h ..
  | ginfo => exact canonical_execGinfo h ..
  | mlds => exact canonical_execMlds h ..
  | mldss => exact canonical_execMldss h ..
  | csrr | csrw | csrs | csrc =>
    dsimp only [exec]
    exact canonical_csrOp h ..
  | ecall => exact canonical_execEcall h ..
  | brk => exact canonical_execBrk h ..
  | eret => exact canonical_execEret h ..
  | uiret => exact canonical_execUiret h ..
  | wfi => exact canonical_execWfi h ..
  | halt => exact canonical_execHalt h ..
  | yield => exact canonical_execYield h ..
  | sleep => exact canonical_execSleep h ..
  | mswap => exact canonical_execMswap h ..
  | loftMovesComplete => exact canonical_execLoftMovesComplete h ..
  | resourceAvailable => exact canonical_execResourceAvailable h ..
  | loadMissFill => exact canonical_execLoadMissFill h ..
  | storeBufferDrain => exact canonical_execStoreBufferDrain h ..
  | granaryWriteback => exact canonical_execGranaryWriteback h ..
  | coreBarrierQuiescent => exact canonical_execCoreBarrierQuiescent h ..
  | matrixOpComplete => exact canonical_execMatrixOpComplete h ..
  | timecmpMatch => exact canonical_execTimecmpMatch h ..
  | yieldExpiry => exact canonical_execYieldExpiry h ..
  | userInterruptEntry => exact canonical_execUserInterruptEntry h ..
  | engineTrap => exact canonical_execEngineTrap h ..
  | uncorrectedTrap => exact canonical_execUncorrectedTrap h ..
  | lockWatchdog => exact canonical_execLockWatchdog h ..
  | fewaitLimit => exact canonical_execFewaitLimit h ..
  | barwaitLimit => exact canonical_execBarwaitLimit h ..
  | withdrawalAnswer => exact canonical_execWithdrawalAnswer h ..
  | copyStart => exact canonical_execCopyStart h ..
  | copyLineWrite => exact canonical_execCopyLineWrite h ..
  | copyDone => exact canonical_execCopyDone h ..
  | copyFail => exact canonical_execCopyFail h ..
  | cpycanComplete => exact canonical_execCpycanComplete h ..
  | translationWalk => exact canonical_execTranslationWalk h ..
  | pageServiceComplete => exact canonical_execPageServiceComplete h ..
  | priResponse => exact canonical_execPriResponse h ..
  | atsInvalidation => exact canonical_execAtsInvalidation h ..
  | shootdownComplete => exact canonical_execShootdownComplete h ..
  | shootdown => exact canonical_execShootdown h ..
  | evict => exact canonical_execEvict h ..
  | destroyKeySlot => exact canonical_execDestroyKeySlot h ..
  | generateKeySlot => exact canonical_execGenerateKeySlot h ..
  | skimPage => exact canonical_execSkimPage h ..
  | maintRequestDiscard => exact canonical_execMaintRequestDiscard h ..
  | switchHeader => exact canonical_execSwitchHeader h ..
  | gatewayHeader => exact canonical_execGatewayHeader h ..
  | remoteAccessArrival => exact canonical_execRemoteAccessArrival h ..
  | messageArrival => exact canonical_execMessageArrival h ..
  | taskPacketArrival => exact canonical_execTaskPacketArrival h ..
  | responseArrival => exact canonical_execResponseArrival h ..
  | acknowledgementArrival => exact canonical_execAcknowledgementArrival h ..
  | refusalArrival => exact canonical_execRefusalArrival h ..
  | nackArrival => exact canonical_execNackArrival h ..
  | nackResend => exact canonical_execNackResend h ..
  | keepWaitingTimer => exact canonical_execKeepWaitingTimer h ..
  | keepWaitingNotice => exact canonical_execKeepWaitingNotice h ..
  | responseTimerExpiry => exact canonical_execResponseTimerExpiry h ..
  | portGenAdvance => exact canonical_execPortGenAdvance h ..
  | linkRetry => exact canonical_execLinkRetry h ..
  | routeRemint => exact canonical_execRouteRemint h ..
  | laneLoss => exact canonical_execLaneLoss h ..
  | channelLockLoss => exact canonical_execChannelLockLoss h ..
  | blockedHeadTimeout => exact canonical_execBlockedHeadTimeout h ..
  | tokenVisit => exact canonical_execTokenVisit h ..
  | recoverySinkApply => exact canonical_execRecoverySinkApply h ..
  | leaseRequestArrival => exact canonical_execLeaseRequestArrival h ..
  | leaseGrant => exact canonical_execLeaseGrant h ..
  | retuneComplete => exact canonical_execRetuneComplete h ..
  | leaseTermExpiry => exact canonical_execLeaseTermExpiry h ..
  | leaseRequestTimeout => exact canonical_execLeaseRequestTimeout h ..
  | starvationTimeout => exact canonical_execStarvationTimeout h ..
  | reclaimExpiry => exact canonical_execReclaimExpiry h ..
  | counterArm => exact canonical_execCounterArm h ..
  | counterSignal => exact canonical_execCounterSignal h ..
  | armAnswer => exact canonical_execArmAnswer h ..
  | zeroNotice => exact canonical_execZeroNotice h ..
  | taskAging => exact canonical_execTaskAging h ..
  | balancerRound => exact canonical_execBalancerRound h ..
  | balanceCommand => exact canonical_execBalanceCommand h ..
  | migrationSend => exact canonical_execMigrationSend h ..
  | migrationArrival => exact canonical_execMigrationArrival h ..
  | migrationRefused => exact canonical_execMigrationRefused h ..
  | hqTailWrite => exact canonical_execHqTailWrite h ..
  | hqEnableWrite => exact canonical_execHqEnableWrite h ..
  | hqRegWrite => exact canonical_execHqRegWrite h ..
  | hostLaunch => exact canonical_execHostLaunch h ..
  | hostPost => exact canonical_execHostPost h ..
  | counterSet => exact canonical_execCounterSet h ..
  | balance => exact canonical_execBalance h ..
  | dutyReply => exact canonical_execDutyReply h ..
  | token => exact canonical_execToken h ..
  | occupancy => exact canonical_execOccupancy h ..
  | kernelLaunch => exact canonical_execKernelLaunch h ..
  | bayScrubComplete => exact canonical_execBayScrubComplete h ..
  | kernelRetire => exact canonical_execKernelRetire h ..
  | recoatHandover => exact canonical_execRecoatHandover h ..
  | barrierArrival => exact canonical_execBarrierArrival h ..
  | barrierReleaseSent => exact canonical_execBarrierReleaseSent h ..
  | barrierRelease => exact canonical_execBarrierRelease h ..
  | watchArrival => exact canonical_execWatchArrival h ..
  | watchAnswer => exact canonical_execWatchAnswer h ..
  | leaveNotice => exact canonical_execLeaveNotice h ..
  | withdrawalArrival => exact canonical_execWithdrawalArrival h ..
  | lock => exact canonical_execLock h ..
  | unlock => exact canonical_execUnlock h ..
  | scrubComplete => exact canonical_execScrubComplete h ..
  | suspend => exact canonical_execSuspend h ..
  | suspendComplete => exact canonical_execSuspendComplete h ..
  | restore => exact canonical_execRestore h ..
  | migrate => exact canonical_execMigrate h ..
  | migrationChunk => exact canonical_execMigrationChunk h ..
  | confirm => exact canonical_execConfirm h ..
  | migrationAck => exact canonical_execMigrationAck h ..
  | migrationCommitTimeout => exact canonical_execMigrationCommitTimeout h ..
  | alarmNotice => exact canonical_execAlarmNotice h ..
  | alarmLevel2 => exact canonical_execAlarmLevel2 h ..
  | alarmLevel3 => exact canonical_execAlarmLevel3 h ..
  | sensorLimit => exact canonical_execSensorLimit h ..
  | tamperMesh => exact canonical_execTamperMesh h ..
  | coldStart => exact canonical_execColdStart h ..
  | warmStart => exact canonical_execWarmStart h ..
  | setDuty => exact canonical_execSetDuty h ..
  | fwStage => exact canonical_execFwStage h ..
  | fwActivate => exact canonical_execFwActivate h ..
  | readLog => exact canonical_execReadLog h ..
  | getMeasurements => exact canonical_execGetMeasurements h ..
  | keyExchange => exact canonical_execKeyExchange h ..
  | migrationOffer => exact canonical_execMigrationOffer h ..
  | migrationAbort => exact canonical_execMigrationAbort h ..

end Sys2Proof.Machine
end

section
/-!
PROOFS. Convoys, the order of one clk and one step keep memory canonical (O7, R15, R52, R248, R362).
-/
set_option Elab.async false

namespace Sys2Proof.Machine

/-! ### Convoys -/

theorem Memory.wf_runMember {s : State} (k : Nat) (m : Member) (stop : Option Nat) (h : Memory.wf s.mem = true) :
    Memory.wf (runMember s k m stop).mem = true := by
  unfold runMember
  split
  · next ran => exact (exec_canonical m.instr (s := { s with cur := { s.cur with member := k, stop := stop } }) h).wf_of_eq ran
  · exact h

/-- The state with which a run of a convoy's members ends, where it has one, has canonical memory. -/
def ConvoyEnd.Canonical : ConvoyEnd → Prop
  | .done s | .trapped s => Memory.wf s.mem = true
  | _ => True

theorem ConvoyEnd.canonical_runMembers {s : State} (p : Place) (k : Nat) (ms : List Member) (h : Memory.wf s.mem = true) :
    ConvoyEnd.Canonical (runMembers s p k ms) := by
  induction ms generalizing s k with
  | nil => exact h
  | cons m r ih =>
    have ran := Memory.wf_runMember k m none h
    unfold runMembers
    split
    · split <;> trivial
    · dsimp only
      split
      · trivial
      · split
        · exact ran
        · exact ih _ ran

/-- Both states of the run that settles a stopped convoy have canonical memory. -/
structure StopRun.Canonical (r : StopRun) : Prop where
  full : Memory.wf r.full.mem = true
  kept : Memory.wf r.kept.mem = true

theorem StopRun.canonical_stopMember (p : Place) (ms : List Member) (c : StopAt) {r : StopRun} (j : Nat)
    (h : StopRun.Canonical r) : StopRun.Canonical (stopMember p ms c r j) := by
  unfold stopMember
  split
  · next m _ _ =>
    have full : Memory.wf (if j < c.k then runMember r.full j m none else r.full).mem = true := by
      split
      · exact Memory.wf_runMember _ _ _ h.full
      · exact h.full
    extract_lets f
    split
    · exact ⟨full, Memory.wf_runMember _ _ _ h.kept⟩
    · split
      · refine ⟨full, ?_⟩
        dsimp only
        split <;> exact h.kept
      · split
        · exact ⟨full, h.kept⟩
        · exact ⟨full, Memory.wf_runMember _ _ _ h.kept⟩
  · exact h

theorem Memory.wf_stopConvoy {s : State} (p : Place) (ms : List Member) (k e : Nat) (why : ConvoyStop)
    (h : Memory.wf s.mem = true) : Memory.wf (stopConvoy s p ms k e why).mem = true := by
  unfold stopConvoy
  extract_lets t perBeat beatEnd c run kept cur s1
  have settled : StopRun.Canonical run :=
    List.foldlRecOn (motive := StopRun.Canonical) _ _ ⟨h, h⟩ fun _ h j _ => StopRun.canonical_stopMember p ms c j h
  have recorded : Memory.wf s1.mem = true := settled.kept
  clear_value s1
  split
  · exact settled.kept
  · split
    · exact Memory.wf_vfail recorded ..
    · exact recorded
    · exact recorded

theorem Memory.wf_issueConvoy {s : State} (p : Place) (t : Strand) (h : Memory.wf s.mem = true) :
    Memory.wf (s.issueConvoy p t).mem = true := by
  unfold State.issueConvoy
  extract_lets atMember cur done
  split
  · rw [State.raise_mem]
    exact h
  · rw [State.fetchStop_mem]
    exact h
  · next ms _ =>
    extract_lets checks t1
    clear_value checks t1
    cases checks with
    | some c =>
      dsimp only
      rw [State.raise_mem]
      exact h
    | none =>
      refine Memory.wf_withResident h fun r => ?_
      extract_lets filled s0 s1 restamp pause
      have cached : Memory.wf filled.mem = true := Memory.wf_foldl _ (fun _ _ h => by rwa [State.cacheCode_mem]) _ h
      have drawn : Memory.wf s1.mem = true := by
        unfold s1
        split <;> exact cached
      have restamped : ∀ s2 : State, Memory.wf s2.mem = true → Memory.wf (done (restamp s2)).mem = true := fun s2 h => by
        unfold done restamp
        dsimp only
        split <;> exact h
      have ended := ConvoyEnd.canonical_runMembers p 0 ms drawn
      split <;> rename_i e <;> rw [e] at ended
      · split
        · exact Memory.wf_stopConvoy _ _ _ _ _ drawn
        · exact restamped _ ended
      · exact restamped _ ended
      · exact drawn
      · split <;> exact Memory.wf_stopConvoy _ _ _ _ _ drawn

/-! ### One step -/

section Step
variable {s : State} (h : Memory.wf s.mem = true)
include h

theorem canonical_runFor (i : Instr) (p : Place) : Canonical (s.runFor i p) := exec_canonical i h

theorem canonical_issueWord (p : Place) : Canonical (s.issueWord p) := by
  unfold State.issueWord
  dsimp only
  split
  · split
    · exact Memory.wf_issueConvoy _ _ h
    · split
      · simpa using h
      · exact exec_canonical _ (by simpa using h)
  · simpa using h

theorem canonical_issue (p : Place) : Canonical (s.issue p) := by
  unfold State.issue
  dsimp only
  split
  · exact h
  · split
    · split
      · exact canonical_issueWord h _
      · exact canonical_runFor h _ _
    · split
      · exact canonical_runFor h _ _
      · exact canonical_issueWord h _

theorem canonical_endClk : Canonical s.endClk := by
  unfold State.endClk
  split
  · exact canonical_runFor (s := { s with turn := closedTurn }) h _ _
  · simpa using h

theorem canonical_takeDue (n : Nat) (d : Due) : Canonical (exec d.step (s.takeDue n d)) :=
  exec_canonical _ (by rwa [State.takeDue_mem])

theorem canonical_closeClk : Canonical s.closeClk := by
  unfold State.closeClk
  split
  · exact canonical_takeDue (s := { s with turn := endTurn }) h _ _
  · exact canonical_endClk h

theorem canonical_advance : Canonical s.advance := by
  unfold State.advance
  split
  · exact canonical_takeDue h _ _
  · split
    · exact canonical_issue (by rwa [State.issueAs_mem]) _
    · exact canonical_closeClk h

theorem canonical_step : Canonical (step s) := by
  have drawn : Canonical ({ s with draws := s.draws + 1 } : State).advance := canonical_advance h
  unfold step
  split
  · exact canonical_endClk h
  · split
    · exact canonical_advance h
    · dsimp only
      split
      · split
        · exact canonical_takeDue h _ _
        · exact drawn
      · exact drawn

end Step

/-- Settles O7: memory is written only through operations that keep it canonical, whichever instruction or due step runs. -/
theorem memoryStaysCanonical : Obligations.MemoryStaysCanonical := fun _ _ h e => (canonical_step h).wf_of_eq e

end Sys2Proof.Machine
end

section
/-!
PROOFS. Decoding (O3): what a table of the decoder answers for a word is well formed, and its encoding is that word. Each test of R106
says something of the word's fields (one rule each), and a word is the packing of its fields in each format (R103).
-/
set_option Elab.async false

namespace Sys2Proof.Laws

/-- An answer of the decoder for a word is sound: the instruction, if there is one, is well formed and has that word. -/
def Sound (w : IWord) (x : Decoded) : Prop := ∀ i, x = .ok i → i.wf = true ∧ encode i = some w

@[simp] theorem sound_ok {w : IWord} {i : Instr} : Sound w (.ok i) ↔ i.wf = true ∧ encode i = some w :=
  ⟨fun h => h i rfl, fun h _ e => by cases e; exact h⟩

@[simp] theorem sound_error {w : IWord} {e : DecodeError} : Sound w (.error e) := fun _ h => nomatch h

/-! ### What a passed test says of the word -/

theorem encReg_eq_of_val {n : Nat} {x : BitVec 6} {r : Fin n} (h : r.val = x.toNat) : encReg r = x := by
  apply BitVec.eq_of_toNat_eq
  rw [encReg, h, BitVec.ofNat_toNat, BitVec.setWidth_eq]

@[simp] theorem encReg_fieldV (x : BitVec 6) : encReg (fieldV x) = x := encReg_eq_of_val rfl

@[simp] theorem sound_fieldS {w : IWord} {x : BitVec 6} {f : SReg → Decoded} :
    Sound w ((fieldS x).bind f) ↔ ∀ r, x = encReg r → Sound w (f r) := by
  refine ⟨fun h r e => by simpa [e] using h, fun h => ?_⟩
  unfold fieldS
  split
  · exact h _ (encReg_eq_of_val rfl).symm
  · exact sound_error

@[simp] theorem sound_fieldM {w : IWord} {x : BitVec 6} {f : MReg → Decoded} :
    Sound w ((fieldM x).bind f) ↔ ∀ r, x = encReg r → Sound w (f r) := by
  refine ⟨fun h r e => by simpa [e] using h, fun h => ?_⟩
  unfold fieldM
  split
  · exact h _ (encReg_eq_of_val rfl).symm
  · exact sound_error

@[simp] theorem sound_fieldW {w : IWord} {x : BitVec 6} {f : RReg → Decoded} :
    Sound w ((fieldW x).bind f) ↔ ∀ r, x = encReg r → Sound w (f r) := by
  refine ⟨fun h r e => by simpa [e] using h, fun h => ?_⟩
  unfold fieldW
  split
  · exact h _ (encReg_eq_of_val rfl).symm
  · exact sound_error

theorem sound_fieldBelow_bits {w : IWord} {n k : Nat} {e : DecodeError} {x : BitVec k} {f : Fin n → Decoded}
    (h : ∀ r : Fin n, r.val = x.toNat → Sound w (f r)) : Sound w ((fieldBelow n e x).bind f) := by
  unfold fieldBelow
  split
  · exact h _ rfl
  · exact sound_error

@[simp] theorem sound_fieldVS {w : IWord} {k : Bool} {x : BitVec 6} {f : VSrc → Decoded} :
    Sound w ((fieldVS k x).bind f) ↔ ∀ b, k = encK b → x = encB b → Sound w (f b) := by
  refine ⟨fun h b e e' => by simpa [e, e'] using h, fun h => ?_⟩
  cases k with
  | false => exact h (.v (fieldV x)) rfl (encReg_fieldV x).symm
  | true =>
    have hs : (fieldVS true x).bind f = (fieldS x).bind fun r => f (.s r) := by
      unfold fieldVS; cases fieldS x <;> rfl
    rw [hs, sound_fieldS]
    exact fun r e => h (.s r) rfl e

@[simp] theorem sound_unusedZero {w : IWord} {k : Nat} {x : BitVec k} {i : Instr} :
    Sound w (unusedZero x i) ↔ (x = 0#k → i.wf = true ∧ encode i = some w) := by
  unfold unusedZero
  split <;> simp_all

@[simp] theorem sound_noK {w : IWord} {x : Decoded} : Sound w (noK w x) ↔ (wordK w = false → Sound w x) := by
  unfold noK
  split <;> simp [*]

@[simp] theorem sound_onlyK {w : IWord} {x : Decoded} : Sound w (onlyK w x) ↔ (wordK w = true → Sound w x) := by
  unfold onlyK
  split <;> simp [*]

@[simp] theorem sound_maskDest {w : IWord} {d : MReg} {x : Decoded} :
    Sound w (maskDest d x) ↔ (d ≠ 0 → Sound w x) := by
  unfold maskDest
  by_cases h : d = 0 <;> cases x <;> simp [h, Except.bind]

/-! ### A word is the packing of its fields -/

theorem wordC_toNat (w : IWord) : (wordC w).toNat = w.toNat / 2 ^ 31 % 2 := by
  rw [wordC, ← BitVec.testBit_toNat, Nat.toNat_testBit]

theorem wordK_toNat (w : IWord) : (wordK w).toNat = w.toNat / 2 ^ 6 % 2 := by
  rw [wordK, ← BitVec.testBit_toNat, Nat.toNat_testBit]

theorem toNat_lt_of_wordC {w : IWord} (hC : wordC w = false) : w.toNat < 2 ^ 31 := by
  have h := wordC_toNat w
  rw [hC, Bool.toNat_false] at h
  have := w.isLt
  omega

@[simp] theorem packR_eq_iff {w : IWord} {m d a b : BitVec 6} {f : BitVec 7} :
    packR m d a b f = w ↔ wordC w = false ∧ wordMajor w = m ∧ wordD w = d ∧ wordA w = a ∧ wordB w = b ∧ wordF w = f := by
  constructor
  · rintro rfl; simp
  · rintro ⟨hC, rfl, rfl, rfl, rfl, rfl⟩
    have := toNat_lt_of_wordC hC
    apply BitVec.eq_of_toNat_eq
    simp only [packR_toNat, wordMajor, wordD, wordA, wordB, wordF, extract_toNat]
    omega

@[simp] theorem packI_eq_iff {w : IWord} {m d a : BitVec 6} {i : BitVec 13} :
    packI m d a i = w ↔ wordC w = false ∧ wordMajor w = m ∧ wordD w = d ∧ wordA w = a ∧ wordI13 w = i := by
  constructor
  · rintro rfl; simp
  · rintro ⟨hC, rfl, rfl, rfl, rfl⟩
    have := toNat_lt_of_wordC hC
    apply BitVec.eq_of_toNat_eq
    simp only [packI_toNat, wordMajor, wordD, wordA, wordI13, extract_toNat]
    omega

@[simp] theorem packU_eq_iff {w : IWord} {m d : BitVec 6} {i : BitVec 19} :
    packU m d i = w ↔ wordC w = false ∧ wordMajor w = m ∧ wordD w = d ∧ wordI19 w = i := by
  constructor
  · rintro rfl; simp
  · rintro ⟨hC, rfl, rfl, rfl⟩
    have := toNat_lt_of_wordC hC
    apply BitVec.eq_of_toNat_eq
    simp only [packU_toNat, wordMajor, wordD, wordI19, extract_toNat]
    omega

@[simp] theorem packV_eq_iff {w : IWord} {c k : Bool} {m d a b f : BitVec 6} :
    packV c m d a b k f = w ↔
      wordC w = c ∧ wordMajor w = m ∧ wordD w = d ∧ wordA w = a ∧ wordB w = b ∧ wordK w = k ∧ wordF6 w = f := by
  constructor
  · rintro rfl; simp
  · rintro ⟨rfl, rfl, rfl, rfl, rfl, rfl, rfl⟩
    have := w.isLt
    apply BitVec.eq_of_toNat_eq
    simp only [packV_toNat, wordC_toNat, wordK_toNat, wordMajor, wordD, wordA, wordB, wordF6, extract_toNat]
    omega

/-- The CSR and SHI forms of format I: the two bits above the immediate select the function. -/
@[simp] theorem packCsr_eq_iff {w : IWord} {d a : BitVec 6} {k : BitVec 2} {n : BitVec 11} :
    packCsr d a k n = w ↔ wordC w = false ∧ wordMajor w = 51#6 ∧ wordD w = d ∧ wordA w = a ∧
      w.extractLsb' 11 2 = k ∧ w.extractLsb' 0 11 = n := by
  constructor
  · rintro rfl; simp
  · rintro ⟨hC, hM, rfl, rfl, rfl, rfl⟩
    have := toNat_lt_of_wordC hC
    replace hM := congrArg BitVec.toNat hM
    apply BitVec.eq_of_toNat_eq
    simp only [packCsr_toNat, wordMajor, wordD, wordA, extract_toNat, BitVec.toNat_ofNat] at *
    omega

@[simp] theorem packShi_eq_iff {w : IWord} {d a : BitVec 6} {k : BitVec 2} {n : BitVec 6} :
    packShi d a k n = w ↔ wordC w = false ∧ wordMajor w = 8#6 ∧ wordD w = d ∧ wordA w = a ∧
      w.extractLsb' 11 2 = k ∧ w.extractLsb' 6 5 = 0#5 ∧ w.extractLsb' 0 6 = n := by
  constructor
  · rintro rfl; simp
  · rintro ⟨hC, hM, rfl, rfl, rfl, hz, rfl⟩
    have := toNat_lt_of_wordC hC
    replace hM := congrArg BitVec.toNat hM
    replace hz := congrArg BitVec.toNat hz
    apply BitVec.eq_of_toNat_eq
    simp only [packShi_toNat, wordMajor, wordD, wordA, extract_toNat, BitVec.toNat_ofNat] at *
    omega

@[simp] theorem packM_eq_iff {w : IWord} {d a b : BitVec 6} {r : BitVec 4} {f : BitVec 3} :
    packM d a b r f = w ↔ wordC w = false ∧ wordMajor w = 42#6 ∧ wordD w = d ∧ wordA w = a ∧ wordB w = b ∧
      w.extractLsb' 3 4 = r ∧ w.extractLsb' 0 3 = f := by
  constructor
  · rintro rfl; simp
  · rintro ⟨hC, hM, rfl, rfl, rfl, rfl, rfl⟩
    have := toNat_lt_of_wordC hC
    replace hM := congrArg BitVec.toNat hM
    apply BitVec.eq_of_toNat_eq
    simp only [packM_toNat, wordMajor, wordD, wordA, wordB, extract_toNat, BitVec.toNat_ofNat] at *
    omega

theorem packL_eq {w : IWord} {level : Fin 6} {len : BitVec 5} {immc : Bool} {rest : BitVec 16} (hC : wordC w = false)
    (hM : wordMajor w = 30#6) (hlevel : level.val = (w.extractLsb' 22 3).toNat) (hlen : w.extractLsb' 17 5 = len)
    (hc : w.getLsbD 16 = immc) (hr : w.extractLsb' 0 16 = rest) : packL level len immc rest = w := by
  subst hlen hc hr
  have := toNat_lt_of_wordC hC
  replace hM := congrArg BitVec.toNat hM
  have hbit : (w.getLsbD 16).toNat = w.toNat / 2 ^ 16 % 2 := by rw [← BitVec.testBit_toNat, Nat.toNat_testBit]
  apply BitVec.eq_of_toNat_eq
  simp only [packL_toNat, hbit, wordMajor, extract_toNat, BitVec.toNat_ofNat] at *
  omega

theorem packVset_eq {w : IWord} {d a : BitVec 6} {rnd : Fin 5} {vfmt : Fin 3} {sp : Fin 5} {sc : Fin 7} {sew : Fin 3}
    (hC : wordC w = false) (hM : wordMajor w = 35#6) (hd : wordD w = d) (ha : wordA w = a)
    (hrnd : rnd.val = (w.extractLsb' 10 3).toNat) (hvfmt : vfmt.val = (w.extractLsb' 8 2).toNat)
    (hsp : sp.val = (w.extractLsb' 5 3).toNat) (hsc : sc.val = (w.extractLsb' 2 3).toNat)
    (hsew : sew.val = (w.extractLsb' 0 2).toNat) : packVset d a rnd vfmt sp sc sew = w := by
  subst hd ha
  have := toNat_lt_of_wordC hC
  replace hM := congrArg BitVec.toNat hM
  apply BitVec.eq_of_toNat_eq
  simp only [packVset_toNat, wordMajor, wordD, wordA, extract_toNat, BitVec.toNat_ofNat] at *
  omega

/-! ### The unused fields of a word -/

theorem append_eq_zero {m n : Nat} {x : BitVec m} {y : BitVec n} : x ++ y = 0#(m + n) ↔ x = 0#m ∧ y = 0#n := by
  rw [← BitVec.toNat_inj, ← BitVec.toNat_inj, ← BitVec.toNat_inj, BitVec.toNat_append]
  simp

@[simp] theorem two_fields_eq_zero {x y : BitVec 6} : x ++ y = 0#12 ↔ x = 0#6 ∧ y = 0#6 := append_eq_zero

@[simp] theorem three_fields_eq_zero {x y z : BitVec 6} : x ++ y ++ z = 0#18 ↔ x = 0#6 ∧ y = 0#6 ∧ z = 0#6 := by
  rw [append_eq_zero (m := 12) (n := 6), two_fields_eq_zero, and_assoc]

@[simp] theorem sound_fieldBelow {w : IWord} {n : Nat} {e : DecodeError} {x : BitVec 6} {f : Fin n → Decoded} (h : n ≤ 64) :
    Sound w ((fieldBelow n e x).bind f) ↔ ∀ r, x = encReg r → Sound w (f r) := by
  refine ⟨fun h r e => by simpa [e, fieldBelow_encReg, *] using h, fun h => ?_⟩
  unfold fieldBelow
  split
  · exact h _ (encReg_eq_of_val rfl).symm
  · exact sound_error

@[simp] theorem sound_ite {w : IWord} {c : Prop} [Decidable c] {x y : Decoded} :
    Sound w (if c then x else y) ↔ (c → Sound w x) ∧ (¬c → Sound w y) := by
  split <;> simp [*]

/-! ### The function tables of the majors -/

theorem sound_decodeAlu {w : IWord} (hC : wordC w = false) (hM : wordMajor w = 1#6) : Sound w (decodeAlu w) := by
  unfold decodeAlu
  split <;> simp_all +contextual [BitVec.toNat_eq_nat, encode, Instr.wf]

theorem sound_decodeSys {w : IWord} (hC : wordC w = false) (hM : wordMajor w = 0#6) : Sound w (decodeSys w) := by
  unfold decodeSys
  split <;> simp_all +contextual [BitVec.toNat_eq_nat, encode, Instr.wf]

theorem sound_decodeSync {w : IWord} (hC : wordC w = false) (hM : wordMajor w = 32#6) : Sound w (decodeSync w) := by
  unfold decodeSync
  split <;> simp_all +contextual [BitVec.toNat_eq_nat, encode, Instr.wf]

theorem sound_decodeTask {w : IWord} (hC : wordC w = false) (hM : wordMajor w = 33#6) : Sound w (decodeTask w) := by
  unfold decodeTask
  split <;> simp_all +contextual [BitVec.toNat_eq_nat, encode, Instr.wf]

theorem sound_decodeFe {w : IWord} (hC : wordC w = false) (hM : wordMajor w = 34#6) : Sound w (decodeFe w) := by
  unfold decodeFe
  split <;> simp_all +contextual [BitVec.toNat_eq_nat, encode, Instr.wf]

theorem sound_decodeRing {w : IWord} (hC : wordC w = false) (hM : wordMajor w = 43#6) : Sound w (decodeRing w) := by
  unfold decodeRing
  split <;> simp_all +contextual [BitVec.toNat_eq_nat, encode, Instr.wf]

theorem sound_decodeCpy {w : IWord} (hC : wordC w = false) (hM : wordMajor w = 44#6) : Sound w (decodeCpy w) := by
  unfold decodeCpy
  split <;> simp_all +contextual [BitVec.toNat_eq_nat, encode, Instr.wf]

theorem sound_decodeRoute {w : IWord} (hC : wordC w = false) (hM : wordMajor w = 45#6) : Sound w (decodeRoute w) := by
  unfold decodeRoute
  split <;> simp_all +contextual [BitVec.toNat_eq_nat, encode, Instr.wf]

theorem sound_decodeLease {w : IWord} (hC : wordC w = false) (hM : wordMajor w = 47#6) : Sound w (decodeLease w) := by
  unfold decodeLease
  split <;> simp_all +contextual [BitVec.toNat_eq_nat, encode, Instr.wf]

theorem sound_decodeGroup {w : IWord} (hC : wordC w = false) (hM : wordMajor w = 48#6) : Sound w (decodeGroup w) := by
  unfold decodeGroup
  split <;> simp_all +contextual [BitVec.toNat_eq_nat, encode, Instr.wf]

theorem sound_decodeMplane {w : IWord} (hC : wordC w = false) (hM : wordMajor w = 50#6) : Sound w (decodeMplane w) := by
  unfold decodeMplane
  split <;> simp_all +contextual [BitVec.toNat_eq_nat, encode, Instr.wf]

theorem sound_decodeVint {w : IWord} (hM : wordMajor w = 36#6) : Sound w (decodeVint w) := by
  unfold decodeVint
  split <;> simp_all +contextual [BitVec.toNat_eq_nat, encode, Instr.wf]

theorem sound_decodeVflt {w : IWord} (hM : wordMajor w = 37#6) : Sound w (decodeVflt w) := by
  unfold decodeVflt
  split <;> simp_all +contextual [BitVec.toNat_eq_nat, encode, Instr.wf]

theorem sound_decodeVperm {w : IWord} (hM : wordMajor w = 38#6) : Sound w (decodeVperm w) := by
  unfold decodeVperm
  split <;> simp_all +contextual [BitVec.toNat_eq_nat, encode, Instr.wf]

theorem sound_decodeVcmp {w : IWord} (hM : wordMajor w = 39#6) : Sound w (decodeVcmp w) := by
  unfold decodeVcmp
  split <;> simp_all +contextual [BitVec.toNat_eq_nat, encode, Instr.wf]

theorem sound_decodeMask {w : IWord} (hM : wordMajor w = 40#6) : Sound w (decodeMask w) := by
  unfold decodeMask
  split <;> simp_all +contextual [BitVec.toNat_eq_nat, encode, Instr.wf]

theorem sound_decodeVmem {w : IWord} (hM : wordMajor w = 41#6) : Sound w (decodeVmem w) := by
  unfold decodeVmem
  split <;> simp_all +contextual [BitVec.toNat_eq_nat, encode, Instr.wf]

theorem sound_decodeSf {w : IWord} (hM : wordMajor w = 49#6) : Sound w (decodeSf w) := by
  unfold decodeSf
  split <;> simp_all +contextual [BitVec.toNat_eq_nat, encode, Instr.wf]

theorem sound_decodeShi {w : IWord} (hC : wordC w = false) (hM : wordMajor w = 8#6) : Sound w (decodeShi w) := by
  unfold decodeShi
  split <;> simp_all +contextual [-BitVec.extractLsb'_toNat, BitVec.toNat_eq_nat, encode, Instr.wf]

theorem sound_decodeMtx {w : IWord} (hC : wordC w = false) (hM : wordMajor w = 42#6) : Sound w (decodeMtx w) := by
  unfold decodeMtx
  split <;> simp_all +contextual [-BitVec.extractLsb'_toNat, BitVec.toNat_eq_nat, encode, Instr.wf]

theorem sound_decodeCsr {w : IWord} (hC : wordC w = false) (hM : wordMajor w = 51#6) : Sound w (decodeCsr w) := by
  unfold decodeCsr
  split <;> simp_all +contextual [-BitVec.extractLsb'_toNat, BitVec.toNat_eq_nat, encode, Instr.wf]


theorem sound_decodeVset {w : IWord} (hC : wordC w = false) (hM : wordMajor w = 35#6) : Sound w (decodeVset w) := by
  unfold decodeVset
  refine sound_fieldBelow_bits fun rnd hrnd => sound_fieldBelow_bits fun vfmt hvfmt => sound_fieldBelow_bits fun sp hsp =>
    sound_fieldBelow_bits fun sc hsc => sound_fieldBelow_bits fun sew hsew => sound_fieldS.mpr fun d hd =>
    sound_fieldS.mpr fun a ha => sound_ok.mpr ⟨rfl, congrArg some ?_⟩
  exact packVset_eq hC hM hd ha hrnd hvfmt hsp hsc hsew

/-- The register form of a loop word: the register stands above ten unused bits. -/
theorem loop_count_register {w : IWord} {a : SReg} (ha : w.extractLsb' 10 6 = encReg a) (hz : w.extractLsb' 0 10 = 0#10) :
    w.extractLsb' 0 16 = BitVec.ofNat 16 (a.val * 2 ^ 10) := by
  have := a.isLt
  replace ha := congrArg BitVec.toNat ha
  replace hz := congrArg BitVec.toNat hz
  apply BitVec.eq_of_toNat_eq
  simp only [encReg, extract_toNat, BitVec.toNat_ofNat] at *
  omega

theorem sound_decodeLoop {w : IWord} (hC : wordC w = false) (hM : wordMajor w = 30#6) : Sound w (decodeLoop w) := by
  unfold decodeLoop
  split
  case h_1 hc =>
    refine sound_fieldBelow_bits fun level hlevel => sound_ok.mpr ⟨rfl, congrArg some ?_⟩
    exact packL_eq hC hM hlevel rfl (by simpa using hc) rfl
  case h_2 hc =>
    refine sound_fieldBelow_bits fun level hlevel => sound_fieldS.mpr fun a ha => sound_unusedZero.mpr fun hz =>
      ⟨rfl, congrArg some ?_⟩
    exact packL_eq hC hM hlevel rfl (by simpa using hc) (loop_count_register ha hz)
  case h_3 => exact sound_error

/-- Bit 5 of an atomic's word is its width, and the others of F its function. -/
theorem atomic_function {w : IWord} {n : Nat} (h : (w.extractLsb' 0 5).toNat + 32 * (w.extractLsb' 6 1).toNat = n) (hn : n < 32) :
    wordF w = BitVec.ofNat 7 ((w.getLsbD 5).toNat * 2 ^ 5 + n) := by
  have hbit : (w.getLsbD 5).toNat = w.toNat / 2 ^ 5 % 2 := by rw [← BitVec.testBit_toNat, Nat.toNat_testBit]
  apply BitVec.eq_of_toNat_eq
  simp only [wordF, hbit, extract_toNat, BitVec.toNat_ofNat] at *
  omega

theorem sound_decodeAtom {w : IWord} (hC : wordC w = false) (hM : wordMajor w = 31#6) : Sound w (decodeAtom w) := by
  unfold decodeAtom
  split
  case h_11 => exact sound_error
  all_goals
    rename_i h
    have := atomic_function h (by decide)
    simp_all +contextual [encode, Instr.wf]

/-- RAMO's operation stands in the low three bits of F, below the code 2. -/
theorem ramo_function {w : IWord} (h : w.extractLsb' 3 4 = 2) :
    wordF w = BitVec.ofNat 7 (16 + (w.extractLsb' 0 3).toNat) := by
  have h : (w.extractLsb' 3 4).toNat = 2 := by rw [h]; rfl
  apply BitVec.eq_of_toNat_eq
  simp only [wordF, extract_toNat, BitVec.toNat_ofNat] at *
  omega

theorem sound_decodeRemote {w : IWord} (hC : wordC w = false) (hM : wordMajor w = 46#6) : Sound w (decodeRemote w) := by
  unfold decodeRemote
  split
  case isTrue h =>
    have := ramo_function h
    simp_all +contextual [encode, Instr.wf]
  case isFalse =>
    split <;> simp_all +contextual [BitVec.toNat_eq_nat, encode, Instr.wf]

/-- Formats I and S: the major alone selects the instruction. -/
theorem sound_formatI {w : IWord} {m : BitVec 6} {f : SReg → SReg → BitVec 13 → Instr} (hC : wordC w = false)
    (hM : wordMajor w = m) (hf : ∀ d a i, (f d a i).wf = true ∧ encode (f d a i) = some (packI m (encReg d) (encReg a) i)) :
    Sound w ((fieldS (wordD w)).bind fun d => (fieldS (wordA w)).bind fun a => .ok (f d a (wordI13 w))) := by
  simp +contextual [hf, hC, hM]

/-- Formats U and J. -/
theorem sound_formatU {w : IWord} {m : BitVec 6} {f : SReg → BitVec 19 → Instr} (hC : wordC w = false)
    (hM : wordMajor w = m) (hf : ∀ d i, (f d i).wf = true ∧ encode (f d i) = some (packU m (encReg d) i)) :
    Sound w ((fieldS (wordD w)).bind fun d => .ok (f d (wordI19 w))) := by
  simp +contextual [hf, hC, hM]

/-- A major that permits no convoy is decoded with C clear (test 2). -/
theorem wordC_of_major {w : IWord} (hc : ¬(wordC w && !convoyMajor (wordMajor w)) = true) {m : BitVec 6} (hM : wordMajor w = m)
    (hm : convoyMajor m = false) : wordC w = false := by
  simpa [hM, hm] using hc

theorem wordMajor_of_toNat {w : IWord} {n : Nat} (h : (wordMajor w).toNat = n) : wordMajor w = BitVec.ofNat 6 n :=
  (BitVec.toNat_eq_nat.mp h).2

theorem sound_decode (w : IWord) : Sound w (decode w) := by
  unfold decode
  split
  case isTrue => exact sound_error
  case isFalse hc =>
    have plain : ∀ {n}, (wordMajor w).toNat = n → convoyMajor (BitVec.ofNat 6 n) = false → wordC w = false :=
      fun h hm => wordC_of_major hc (wordMajor_of_toNat h) hm
    split
    case h_1 h => exact sound_decodeSys (plain h rfl) (wordMajor_of_toNat h)
    case h_2 h => exact sound_decodeAlu (plain h rfl) (wordMajor_of_toNat h)
    case h_3 h => exact sound_formatI (plain h rfl) (wordMajor_of_toNat h) fun _ _ _ => ⟨rfl, rfl⟩
    case h_4 h => exact sound_formatI (plain h rfl) (wordMajor_of_toNat h) fun _ _ _ => ⟨rfl, rfl⟩
    case h_5 h => exact sound_formatI (plain h rfl) (wordMajor_of_toNat h) fun _ _ _ => ⟨rfl, rfl⟩
    case h_6 h => exact sound_formatI (plain h rfl) (wordMajor_of_toNat h) fun _ _ _ => ⟨rfl, rfl⟩
    case h_7 h => exact sound_formatI (plain h rfl) (wordMajor_of_toNat h) fun _ _ _ => ⟨rfl, rfl⟩
    case h_8 h => exact sound_formatI (plain h rfl) (wordMajor_of_toNat h) fun _ _ _ => ⟨rfl, rfl⟩
    case h_9 h => exact sound_decodeShi (plain h rfl) (wordMajor_of_toNat h)
    case h_10 h => exact sound_formatU (plain h rfl) (wordMajor_of_toNat h) fun _ _ => ⟨rfl, rfl⟩
    case h_11 h => exact sound_formatU (plain h rfl) (wordMajor_of_toNat h) fun _ _ => ⟨rfl, rfl⟩
    case h_12 h => exact sound_formatI (plain h rfl) (wordMajor_of_toNat h) fun _ _ _ => ⟨rfl, rfl⟩
    case h_13 h => exact sound_formatI (plain h rfl) (wordMajor_of_toNat h) fun _ _ _ => ⟨rfl, rfl⟩
    case h_14 h => exact sound_formatI (plain h rfl) (wordMajor_of_toNat h) fun _ _ _ => ⟨rfl, rfl⟩
    case h_15 h => exact sound_formatI (plain h rfl) (wordMajor_of_toNat h) fun _ _ _ => ⟨rfl, rfl⟩
    case h_16 h => exact sound_formatI (plain h rfl) (wordMajor_of_toNat h) fun _ _ _ => ⟨rfl, rfl⟩
    case h_17 h => exact sound_formatI (plain h rfl) (wordMajor_of_toNat h) fun _ _ _ => ⟨rfl, rfl⟩
    case h_18 h => exact sound_formatI (plain h rfl) (wordMajor_of_toNat h) fun _ _ _ => ⟨rfl, rfl⟩
    case h_19 h => exact sound_formatI (plain h rfl) (wordMajor_of_toNat h) fun _ _ _ => ⟨rfl, rfl⟩
    case h_20 h => exact sound_formatI (plain h rfl) (wordMajor_of_toNat h) fun _ _ _ => ⟨rfl, rfl⟩
    case h_21 h => exact sound_formatI (plain h rfl) (wordMajor_of_toNat h) fun _ _ _ => ⟨rfl, rfl⟩
    case h_22 h => exact sound_formatI (plain h rfl) (wordMajor_of_toNat h) fun _ _ _ => ⟨rfl, rfl⟩
    case h_23 h => exact sound_formatI (plain h rfl) (wordMajor_of_toNat h) fun _ _ _ => ⟨rfl, rfl⟩
    case h_24 h => exact sound_formatI (plain h rfl) (wordMajor_of_toNat h) fun _ _ _ => ⟨rfl, rfl⟩
    case h_25 h => exact sound_formatI (plain h rfl) (wordMajor_of_toNat h) fun _ _ _ => ⟨rfl, rfl⟩
    case h_26 h => exact sound_formatI (plain h rfl) (wordMajor_of_toNat h) fun _ _ _ => ⟨rfl, rfl⟩
    case h_27 h => exact sound_formatI (plain h rfl) (wordMajor_of_toNat h) fun _ _ _ => ⟨rfl, rfl⟩
    case h_28 h => exact sound_formatI (plain h rfl) (wordMajor_of_toNat h) fun _ _ _ => ⟨rfl, rfl⟩
    case h_29 h => exact sound_formatU (plain h rfl) (wordMajor_of_toNat h) fun _ _ => ⟨rfl, rfl⟩
    case h_30 h => exact sound_formatI (plain h rfl) (wordMajor_of_toNat h) fun _ _ _ => ⟨rfl, rfl⟩
    case h_31 h => exact sound_decodeLoop (plain h rfl) (wordMajor_of_toNat h)
    case h_32 h => exact sound_decodeAtom (plain h rfl) (wordMajor_of_toNat h)
    case h_33 h => exact sound_decodeSync (plain h rfl) (wordMajor_of_toNat h)
    case h_34 h => exact sound_decodeTask (plain h rfl) (wordMajor_of_toNat h)
    case h_35 h => exact sound_decodeFe (plain h rfl) (wordMajor_of_toNat h)
    case h_36 h => exact sound_decodeVset (plain h rfl) (wordMajor_of_toNat h)
    case h_37 h => exact sound_decodeVint (wordMajor_of_toNat h)
    case h_38 h => exact sound_decodeVflt (wordMajor_of_toNat h)
    case h_39 h => exact sound_decodeVperm (wordMajor_of_toNat h)
    case h_40 h => exact sound_decodeVcmp (wordMajor_of_toNat h)
    case h_41 h => exact sound_decodeMask (wordMajor_of_toNat h)
    case h_42 h => exact sound_decodeVmem (wordMajor_of_toNat h)
    case h_43 h => exact sound_decodeMtx (plain h rfl) (wordMajor_of_toNat h)
    case h_44 h => exact sound_decodeRing (plain h rfl) (wordMajor_of_toNat h)
    case h_45 h => exact sound_decodeCpy (plain h rfl) (wordMajor_of_toNat h)
    case h_46 h => exact sound_decodeRoute (plain h rfl) (wordMajor_of_toNat h)
    case h_47 h => exact sound_decodeRemote (plain h rfl) (wordMajor_of_toNat h)
    case h_48 h => exact sound_decodeLease (plain h rfl) (wordMajor_of_toNat h)
    case h_49 h => exact sound_decodeGroup (plain h rfl) (wordMajor_of_toNat h)
    case h_50 h => exact sound_decodeSf (wordMajor_of_toNat h)
    case h_51 h => exact sound_decodeMplane (plain h rfl) (wordMajor_of_toNat h)
    case h_52 h => exact sound_decodeCsr (plain h rfl) (wordMajor_of_toNat h)
    case h_53 => exact sound_error

/-- Settles O3: each table of the decoder answers soundly, for the tests of R106 fix every field of the word. -/
theorem decodedIsWellFormed : Obligations.DecodedIsWellFormed := fun w _ h => sound_decode w _ h

end Sys2Proof.Laws
end

section
/-!
PROOFS. The layer that the proofs about one strand's instructions stand on: what a meaning of a bound strand answers, and what an update
of that strand, or of its core, leaves of the other strands and of memory.
-/
set_option Elab.async false

namespace Sys2Proof.Machine

/-! ### The strand that acts -/

theorem State.run_of_bound {s : State} (h : s.bound = true) : (s.strand s.cur.place).run ≠ .unbound := bne_iff_ne.mp h

theorem onStrand_of_bound {s : State} (h : s.bound = true) (f : Place → Strand → State) :
    onStrand s f = .next (f s.cur.place s.me) := onStrand_bound f (State.run_of_bound h)

theorem needLanes_of_vector {s : State} (h : s.bound = true) (hv : s.isVector s.cur.place = true) (i : Instr)
    (f : Place → Strand → State) : needLanes s i f = .next (f s.cur.place s.me) :=
  needLanes_vector i f (State.run_of_bound h) hv

theorem needLanes_of_scalar {s : State} (h : s.bound = true) (hv : s.isVector s.cur.place = false) (i : Instr)
    (f : Place → Strand → State) : needLanes s i f = .next (s.raise s.cur.place causeNoLanes (wordOf i)) :=
  needLanes_scalar i f (State.run_of_bound h) hv

@[simp] theorem State.me_setStrand (s : State) (t : Strand) : (s.setStrand s.cur.place t).me = t :=
  State.strand_setStrand_same s s.cur.place t

@[simp] theorem State.me_complete (s : State) (t : Strand) : (s.complete s.cur.place t).me = t.complete :=
  State.complete_strand s s.cur.place t

/-! ### What an update leaves -/

theorem State.othersAs_setStrand (s : State) (p : Place) (t : Strand) : s.othersAs (s.setStrand p t) p :=
  fun _ h => State.strand_setStrand_other s t h

theorem State.othersAs_complete (s : State) (p : Place) (t : Strand) : s.othersAs (s.complete p t) p :=
  s.othersAs_setStrand p t.complete

theorem State.othersAs.trans {s t u : State} {p : Place} (h : s.othersAs t p) (h' : t.othersAs u p) : s.othersAs u p :=
  fun q hq => (h' q hq).trans (h q hq)

/-- Memory reads as before where a core's local bytes do, and no other part of the state has changed. -/
theorem State.memoryAs_setCore {s : State} {c : Nat} {x : Core}
    (hx : ∀ off, x.readLocalByte off = (s.core c).readLocalByte off) : s.memoryAs (s.setCore c x) := by
  refine ⟨fun _ _ _ _ => rfl, fun e off => ?_⟩
  by_cases he : e = c
  · rw [he, State.core_setCore_same, hx]
  · rw [State.core_setCore_other s x he]

theorem State.memoryAs_setStrand (s : State) (p : Place) (t : Strand) : s.memoryAs (s.setStrand p t) :=
  State.memoryAs_setCore fun _ => rfl

theorem State.memoryAs_complete (s : State) (p : Place) (t : Strand) : s.memoryAs (s.complete p t) :=
  s.memoryAs_setStrand p t.complete

/-! ### Traps of the strand that acts -/

/-- A trap of a strand that stands alone, whose handler it is delivered to (R74). -/
theorem State.trapTaken_raise {s : State} (ha : s.alone = true) (hd : s.delivers = true) (cause : Nat) (tval : Word) :
    Claims.trapTaken s (s.raise s.cur.place cause tval) cause tval := by
  simp only [State.alone, State.delivers, Bool.and_eq_true, Bool.not_eq_true', beq_iff_eq, bne_iff_ne, ne_eq] at ha hd
  obtain ⟨⟨⟨hmember, -⟩, -⟩, -⟩ := ha
  obtain ⟨⟨hpriv, htvec⟩, hending⟩ := hd
  have hpc : s.trapPc s.cur.place s.me = s.me.pc := by simp [State.trapPc, hmember]
  have hno : s.trapMember s.cur.place = 0 := by simp [State.trapMember, hmember]
  have hr : s.raise s.cur.place cause tval = s.setStrand s.cur.place (s.me.enterTrap cause tval s.me.pc 0) := by
    rw [State.raise_delivered _ _ _ hending hpriv htvec]
    exact congrArg₂ (fun a b => s.setStrand s.cur.place (s.me.enterTrap cause tval a b)) hpc hno
  have hme : (s.raise s.cur.place cause tval).me = s.me.enterTrap cause tval s.me.pc 0 := by
    rw [hr]; exact s.me_setStrand _
  obtain ⟨hs, hm, hv, hw, hvec, htask, hpc', hrun⟩ := s.me.enterTrap_registers cause tval s.me.pc 0
  unfold Claims.trapTaken
  rw [hme]
  exact ⟨rfl, rfl, rfl, rfl, rfl, rfl, rfl, rfl, rfl, hpc', rfl, hrun,
    ⟨fun r _ => hs r, hm, hv, hw, hvec, htask, rfl, rfl, rfl, rfl⟩,
    hr ▸ s.othersAs_setStrand _ _, hr ▸ s.memoryAs_setStrand _ _, State.raise_mem ..⟩

end Sys2Proof.Machine
end

section
/-!
PROOFS. The checks of a scalar access (O15): what each operand form of R124 and R136 does where its target is a trap, and when it is.
-/
set_option Elab.async false

namespace Sys2Proof.Machine

/-! ### The forms of a scalar access -/

theorem exec_loadForm {i : Instr} {s : State} {d a : SReg} {imm : BitVec 13} {n : Nat} {sg : Bool}
    (h : Claims.loadForm i = some (d, a, imm, n, sg)) : exec i s = loadOp s d a imm n sg := by
  unfold Claims.loadForm at h
  split at h <;> cases h <;> rfl

theorem exec_storeForm {i : Instr} {s : State} {b a : SReg} {imm : BitVec 13} {n : Nat}
    (h : Claims.storeForm i = some (b, a, imm, n)) : exec i s = storeOp s b a imm n := by
  unfold Claims.storeForm at h
  split at h <;> cases h <;> rfl

theorem exec_atomicForm {i : Instr} {s : State} {op : AmoOp} {d a b : SReg} {w : Bool}
    (h : Claims.atomicForm i = some (op, d, a, b, w)) : exec i s = amoOp s op d a b w := by
  unfold Claims.atomicForm at h
  split at h <;> cases h <;> rfl

/-! ### An access whose target is a trap -/

section
variable {s : State} (hb : s.bound = true) {c : Nat}
include hb

theorem loadOp_trap (d a : SReg) (imm : BitVec 13) (n : Nat) (sg : Bool)
    (ht : s.target s.cur.place s.me (effAddr s.me a imm) n 0 = .trap c) :
    loadOp s d a imm n sg = .next (s.raise s.cur.place c (effAddr s.me a imm)) := by
  simp [loadOp, onStrand_of_bound hb, ht]

theorem storeOp_trap (b a : SReg) (imm : BitVec 13) (n : Nat)
    (ht : s.target s.cur.place s.me (effAddr s.me a imm) n 1 = .trap c) :
    storeOp s b a imm n = .next (s.raise s.cur.place c (effAddr s.me a imm)) := by
  simp [storeOp, onStrand_of_bound hb, ht]

theorem amoOp_trap (op : AmoOp) (d a b : SReg) (w : Bool)
    (ht : s.target s.cur.place s.me (s.me.s a) (if w then 8 else 4) (if op = .cas then 4 else 3) = .trap c) :
    amoOp s op d a b w = .next (s.raise s.cur.place c (s.me.s a)) := by
  simp [amoOp, onStrand_of_bound hb, ht]

theorem exec_access_trap {i : Instr} {x : Word} {n kind : Nat} (ha : Claims.access s.me i = some (x, n, kind))
    (ht : s.target s.cur.place s.me x n kind = .trap c) : exec i s = .next (s.raise s.cur.place c x) := by
  unfold Claims.access at ha
  split at ha
  next hl => cases ha; rw [exec_loadForm hl]; exact loadOp_trap hb _ _ _ _ _ ht
  next hs _ => cases ha; rw [exec_storeForm hs]; exact storeOp_trap hb _ _ _ _ ht
  next hm _ _ => cases ha; rw [exec_atomicForm hm]; exact amoOp_trap hb _ _ _ _ _ ht
  next => cases ha

end

/-! ### When the target is a trap -/

section
variable {s : State} {p : Place} {t : Strand} {x : Word} {n kind : Nat}

theorem State.target_misaligned (h : x.toNat % n ≠ 0) : s.target p t x n kind = .trap causeMisalign := if_pos h

theorem inWindow_iff : inWindow x = true ↔ x.toNat / 2 ^ 32 = 0xFF000000 := beq_iff_eq

/-- The unit table of R48 and the bounds of the buffers, as one condition (R32, R46). -/
theorem reach_iff (space off : Nat) :
    (inBuffer space off n && scalarReaches kind space) = true ↔
      (space = 4 ∨ kind = 0 ∧ space = 1) ∧ off + n ≤ if space = 4 then 0x6000 else 98304 := by
  have hr : scalarReaches kind space = true ↔ space = 4 ∨ kind = 0 ∧ space = 1 := by
    unfold scalarReaches
    split <;> simp_all [or_comm]
  rw [Bool.and_eq_true, hr, and_comm]
  refine and_congr_right fun h => ?_
  rcases h with rfl | ⟨-, rfl⟩ <;> simp [inBuffer, loftBase, bufSize]

theorem State.target_outOfReach (hn : x.toNat % n = 0) (hw : x.toNat / 2 ^ 32 = 0xFF000000)
    (h : ¬((x.toNat / 2 ^ 24 % 256 = 4 ∨ kind = 0 ∧ x.toNat / 2 ^ 24 % 256 = 1) ∧
      x.toNat % 2 ^ 24 + n ≤ if x.toNat / 2 ^ 24 % 256 = 4 then 0x6000 else 98304)) :
    s.target p t x n kind = .trap causeSpace := by
  have hspace : bits x.toNat 24 8 = x.toNat / 2 ^ 24 % 256 := rfl
  have hoff : bits x.toNat 0 24 = x.toNat % 2 ^ 24 := by simp [bits]
  rw [← reach_iff, ← hspace, ← hoff] at h
  unfold State.target
  rw [if_neg (not_not.mpr hn), if_pos (inWindow_iff.mpr hw)]
  exact if_neg h

theorem State.target_tooHigh (hn : x.toNat % n = 0) (hw : ¬x.toNat / 2 ^ 32 = 0xFF000000) (h : 2 ^ 57 ≤ x.toNat) :
    s.target p t x n kind = .trap (pageCause kind) := by
  unfold State.target
  rw [if_neg (not_not.mpr hn), if_neg (mt inWindow_iff.mp hw)]
  exact if_pos h

end

/-- An access is no fetch, so its page fault is of a load or of a store. -/
theorem pageCause_of_access {t : Strand} {i : Instr} {x : Word} {n kind : Nat} (h : Claims.access t i = some (x, n, kind)) :
    pageCause kind = if kind = 0 then causeLoadPage else causeStorePage := by
  have hk : kind ≠ 2 := by
    unfold Claims.access at h
    split at h <;> cases h
    · decide
    · decide
    · split <;> decide
  simp [pageCause, hk]

/-- Settles O15: the checks of R124 in their order, each of which makes the access's target a trap. -/
theorem accessChecks : Obligations.AccessChecks := by
  intro i s x n kind hb ha
  refine ⟨fun h => ?_, fun hn hw h => ?_, fun hn hw h => ?_⟩
  · exact exec_access_trap hb ha (State.target_misaligned h)
  · exact exec_access_trap hb ha (State.target_outOfReach hn hw h)
  · rw [← pageCause_of_access ha]
    exact exec_access_trap hb ha (State.target_tooHigh hn hw h)

end Sys2Proof.Machine
end

section
/-!
PROOFS. The CSR instructions (O21, O22): the three things that R138 lets one do, and what a write of VCFG does to the strand (R38).
-/
set_option Elab.async false

namespace Sys2Proof.Machine

/-! ### CSR instructions -/

section
variable (s : State) (d a : SReg) (n : BitVec 11)

theorem exec_csrr : exec (.csrr d n) s = csrOp s (.csrr d n) d n fun _ _ => none := rfl

theorem exec_csrw : exec (.csrw d a n) s = csrOp s (.csrw d a n) d n fun t _ => some (t.s a) := rfl

theorem exec_csrs :
    exec (.csrs d a n) s = csrOp s (.csrs d a n) d n fun t old => if a = 0 then none else some (old ||| t.s a) := rfl

theorem exec_csrc :
    exec (.csrc d a n) s = csrOp s (.csrc d a n) d n fun t old => if a = 0 then none else some (old &&& ~~~t.s a) := rfl

end

section
variable {s : State} (hb : s.bound = true) {i : Instr} {d : SReg} {n : BitVec 11} {new : Strand → Word → Option Word}
include hb

theorem csrOp_user (hsup : csrSup n.toNat = true) (hp : s.me.trap.priv = false) :
    csrOp s i d n new = .next (s.raise s.cur.place causePriv (wordOf i)) := by
  simp [csrOp, onStrand_of_bound hb, hsup, hp]

variable (hp : csrSup n.toNat = false ∨ s.me.trap.priv = true)
include hp

theorem csrOp_read (hnew : new s.me (s.csrRead s.cur.place s.me n.toNat) = none) :
    csrOp s i d n new = s.done fun t => t.setS d (s.csrRead s.cur.place s.me n.toNat) := by
  have hsup : ¬(csrSup n.toNat && !s.me.trap.priv) = true := by rcases hp with h | h <;> simp [h]
  rw [csrOp, onStrand_of_bound hb, if_neg hsup]
  simp only [hnew]
  rfl

/-- A write whose result has no illegal VCFG field. -/
theorem csrOp_write {w : Word} (hnew : new s.me (s.csrRead s.cur.place s.me n.toNat) = some w)
    (hl : n.toNat ≠ 1 ∨ s.isVector s.cur.place = false ∨ vcfgLegal w.toNat = true) :
    csrOp s i d n new = .next ((s.csrWrite s.cur.place s.me n.toNat w).1.setStrand s.cur.place
      ((s.csrWrite s.cur.place s.me n.toNat w).2.setS d (s.csrRead s.cur.place s.me n.toNat)).complete) := by
  have hsup : ¬(csrSup n.toNat && !s.me.trap.priv) = true := by rcases hp with h | h <;> simp [h]
  have hlegal : ¬(n.toNat = 1 && s.isVector s.cur.place && !vcfgLegal w.toNat) = true := by
    rcases hl with h | h | h <;> simp [h]
  rw [csrOp, onStrand_of_bound hb, if_neg hsup]
  simp only [hnew]
  rw [if_neg hlegal]

theorem csrOp_illegal {w : Word} (hnew : new s.me (s.csrRead s.cur.place s.me n.toNat) = some w) (hn : n.toNat = 1)
    (hv : s.isVector s.cur.place = true) (hl : vcfgLegal w.toNat = false) :
    csrOp s i d n new = .next (s.raise s.cur.place causeIllegal (wordOf i)) := by
  have hsup : ¬(csrSup n.toNat && !s.me.trap.priv) = true := by rcases hp with h | h <;> simp [h]
  rw [csrOp, onStrand_of_bound hb, if_neg hsup]
  simp only [hnew]
  rw [if_pos (by simp [hn, hv, hl])]
  rfl

end

/-- Settles O21: at a privilege that may use the register a CSR instruction only reads where it has no new value, and otherwise writes. -/
theorem csrResults : Obligations.CsrResults := by
  intro s d a n hb
  dsimp only
  refine ⟨fun hsup hp => ?_, fun hp => ?_⟩
  · simp only [exec_csrr, exec_csrw, exec_csrs, exec_csrc]
    exact ⟨csrOp_user hb hsup hp, csrOp_user hb hsup hp, csrOp_user hb hsup hp, csrOp_user hb hsup hp⟩
  · simp only [exec_csrr, exec_csrw, exec_csrs, exec_csrc]
    exact ⟨csrOp_read hb hp rfl, csrOp_read hb hp rfl, csrOp_read hb hp rfl, fun hl => csrOp_write hb hp rfl hl,
      fun ha hl => csrOp_write hb hp (if_neg ha) hl, fun ha hl => csrOp_write hb hp (if_neg ha) hl⟩

/-! ### VCFG -/

/-- A field of a value, as bits of its number. -/
theorem extract_toNat_bits {n : Nat} (w : BitVec n) (lo k : Nat) : (w.extractLsb' lo k).toNat = bits w.toNat lo k :=
  Laws.extract_toNat w lo k

theorem vcfgLegal_iff (w : Word) :
    vcfgLegal w.toNat = true ↔ (w.extractLsb' 0 2).toNat ≠ 3 ∧ (w.extractLsb' 2 3).toNat ≠ 7 ∧ (w.extractLsb' 5 3).toNat ≤ 4 ∧
      (w.extractLsb' 8 2).toNat ≠ 3 ∧ (w.extractLsb' 10 3).toNat ≤ 4 := by
  simp only [vcfgLegal, extract_toNat_bits, Bool.and_eq_true, bne_iff_ne, decide_eq_true_eq, and_assoc]

theorem State.csrWrite_vcfg {s : State} {p : Place} (t : Strand) (hv : s.isVector p = true) (w : Word) :
    s.csrWrite p t 1 w = (s, { t with vec := t.vec.writeVcfg (s.laneCount p) w.toNat }) := by
  simp [State.csrWrite, hv, VecCsr.write]

theorem State.laneCount_me (s : State) : s.laneCount s.cur.place =
    match s.me.pass with
    | some l => l
    | none => (s.core s.cur.place.core).lanes s.cur.place.strand := rfl

/-- CSRW, CSRS and CSRC of VCFG with a value to write are one operation with that value. -/
theorem exec_writesVcfg {i : Instr} {s : State} {d a : SReg} {w : Word}
    (h : (i = .csrw d a 0x001 ∧ w = s.me.s a) ∨
      (i = .csrs d a 0x001 ∧ a ≠ 0 ∧ w = s.csrRead s.cur.place s.me 0x001 ||| s.me.s a) ∨
      (i = .csrc d a 0x001 ∧ a ≠ 0 ∧ w = s.csrRead s.cur.place s.me 0x001 &&& ~~~s.me.s a)) :
    ∃ new, exec i s = csrOp s i d 0x001 new ∧ new s.me (s.csrRead s.cur.place s.me 0x001) = some w := by
  rcases h with ⟨rfl, rfl⟩ | ⟨rfl, ha, rfl⟩ | ⟨rfl, ha, rfl⟩
  · exact ⟨_, exec_csrw s d a _, rfl⟩
  · exact ⟨_, exec_csrs s d a _, if_neg ha⟩
  · exact ⟨_, exec_csrc s d a _, if_neg ha⟩

/-- Settles O22: an illegal result is refused by the check of R38, a legal one is written; a change of SEW sets VLMAXS and clamps VL. -/
theorem vcfgWrites : Obligations.VcfgWrites := by
  refine ⟨fun i s d a w hb hv => ?_, fun s ctx q gs p => ⟨rfl, rfl⟩⟩
  dsimp only
  intro h
  obtain ⟨new, hexec, hnew⟩ := exec_writesVcfg h
  rw [← vcfgLegal_iff, Bool.not_eq_true]
  refine ⟨fun hl => ?_, fun hl => ?_⟩
  · have hill : exec i s = .next (s.raise s.cur.place causeIllegal (wordOf i)) :=
      hexec.trans (csrOp_illegal hb (.inl rfl) hnew rfl hv hl)
    exact ⟨hill, fun ha hd => ⟨_, hill, State.trapTaken_raise ha hd _ _⟩⟩
  · rw [hexec, csrOp_write hb (.inl rfl) hnew (.inr (.inr hl))]
    simp only [show (0x001 : BitVec 11).toNat = 1 from rfl, State.csrWrite_vcfg s.me hv w, s.laneCount_me, VecCsr.writeVcfg,
      extract_toNat_bits]
    rfl

end Sys2Proof.Machine
end

section
/-!
PROOFS. SETVL (O33): what leaving pass mode keeps (R70), and what SETVL sets on a vector strand (R152).
-/
set_option Elab.async false

namespace Sys2Proof.Machine

/-! ### Leaving pass mode -/

section
variable (t : Strand) (lanes top : Nat)

theorem Strand.leavePass_outside (h : t.pass = none) : t.leavePass lanes top = t := by
  unfold Strand.leavePass
  simp only [h]

/-- Leaving pass mode changes the vector and mask registers, and where they lie, but no scalar register and no control register. -/
theorem Strand.leavePass_registers :
    (t.leavePass lanes top).pass = none ∧ (t.leavePass lanes top).vec = t.vec ∧
    ∀ r, (t.leavePass lanes top).s r = t.s r := by
  unfold Strand.leavePass
  split
  case h_1 h => exact ⟨h, rfl, fun _ => rfl⟩
  case h_2 =>
    by_cases hr : t.inRecord.isEmpty = true
    · rw [if_pos hr]; exact ⟨rfl, rfl, fun _ => rfl⟩
    · rw [if_neg hr]; exact ⟨rfl, rfl, fun _ => rfl⟩

end

/-! ### SETVL -/

/-- VLMAX as R31 gives it. -/
theorem vlmaxOf_eq (lanes sew : Nat) : vlmaxOf lanes sew = lanes * 256 / (8 * 2 ^ sew) := by
  rw [vlmaxOf, sewBits, Nat.mul_assoc]

/-- The control registers of a strand after SETVL, with its request clamped (R152). -/
def VecCsr.configured (v : VecCsr) (rnd : Fin 5) (vfmt : Fin 3) (space : Fin 5) (scope : Fin 7) (sew : Fin 3) (top vl : Nat) :
    VecCsr :=
  { v with
    rnd := rnd.val, vfmt := vfmt.val, space := space.val, scope := scope.val, sew := sew.val, vlmaxs := top, vl := vl,
    vstart0 := 0, vstart1 := 0, vstart2 := 0, vstart3 := 0 }

section
variable {s : State} (hb : s.bound = true) (d a : SReg) (rnd : Fin 5) (vfmt : Fin 3) (sp : Fin 5) (sc : Fin 7) (sew : Fin 3)
include hb

theorem exec_setvl_scalar (hv : s.isVector s.cur.place = false) :
    exec (.setvl d a rnd vfmt sp sc sew) s = s.done fun t => t.setS d 0 := by
  have h : exec (.setvl d a rnd vfmt sp sc sew) s = execSetvl d a rnd vfmt sp sc sew s := rfl
  rw [h, execSetvl, onStrand_of_bound hb, hv]
  rfl

theorem exec_setvl_vector (hv : s.isVector s.cur.place = true) :
    let top := vlmaxOf ((s.core s.cur.place.core).lanes s.cur.place.strand) sew.val
    let vl := min (if a = 0 then top else (s.me.s a).toNat) top
    let u := s.me.leavePass ((s.core s.cur.place.core).lanes s.cur.place.strand) top
    exec (.setvl d a rnd vfmt sp sc sew) s =
      .next (s.complete s.cur.place (({ u with vec := u.vec.configured rnd vfmt sp sc sew top vl } : Strand).setS d
        (BitVec.ofNat 64 vl))) := by
  intro top vl u
  have h : exec (.setvl d a rnd vfmt sp sc sew) s = execSetvl d a rnd vfmt sp sc sew s := rfl
  rw [h, execSetvl, onStrand_of_bound hb, hv]
  rfl

end

/-- Settles O33: a scalar strand only writes 0; on a vector strand the configuration is set once pass mode has been left. -/
theorem setvlResults : Obligations.SetvlResults := by
  intro s d a rnd vfmt sp sc sew hb
  refine ⟨exec_setvl_scalar hb d a rnd vfmt sp sc sew, fun hv => ⟨_, exec_setvl_vector hb d a rnd vfmt sp sc sew hv, ?_⟩⟩
  rw [← vlmaxOf_eq, State.me_complete]
  generalize vlmaxOf ((s.core s.cur.place.core).lanes s.cur.place.strand) sew.val = top
  generalize hu : s.me.leavePass ((s.core s.cur.place.core).lanes s.cur.place.strand) top = u
  obtain ⟨hpass, hvec, hs⟩ := hu ▸ s.me.leavePass_registers ((s.core s.cur.place.core).lanes s.cur.place.strand) top
  refine ⟨s.othersAs_complete _ _, ?_, ?_, fun hd => Strand.s_setS_same _ _ hd, fun r hr => ?_, fun hnone => ?_⟩
  · rw [Strand.complete_vec, Strand.setS_vec, hvec]
    rfl
  · rw [Strand.complete_pass, Strand.setS_pass]
    exact hpass
  · exact (Strand.s_setS_other _ _ hr).trans (hs r)
  · rw [Strand.leavePass_outside _ _ _ hnone] at hu
    simp [← hu]

end Sys2Proof.Machine
end

section
/-!
PROOFS. Where vector instructions trap (O32): tests 11 and 12 of R106 stand before every meaning that names a vector register.
-/
set_option Elab.async false

namespace Sys2Proof.Machine

/-! ### Tests 11 and 12 -/

section
variable (s : State) (i : Instr)

/-! Each skeleton of a vector instruction begins with the tests of the gate. -/

theorem vecOp_gated (needs : List (Nat × Bool)) (d : VReg) (f : Strand → Nat → ElemRes) :
    ∃ g, vecOp s i needs d f = vecGate s i g := ⟨_, rfl⟩

theorem vintOp_gated (d a : VReg) (b : VSrc) (f : Nat → Nat → Nat → Nat → ElemRes) :
    ∃ g, vintOp s i d a b f = vecGate s i g := vecOp_gated ..

theorem vint1Op_gated (d a : VReg) (f : Nat → Nat → ElemRes) : ∃ g, vint1Op s i d a f = vecGate s i g := vecOp_gated ..

theorem vfltOp_gated (d a : VReg) (b : VSrc) (f : FFmt → Nat → Nat → Nat → Nat → ElemRes) :
    ∃ g, vfltOp s i d a b f = vecGate s i g := vecOp_gated ..

theorem vflt1Op_gated (d a : VReg) (f : FFmt → Nat → Nat → Nat → ElemRes) : ∃ g, vflt1Op s i d a f = vecGate s i g := vecOp_gated ..

theorem vsfOp_gated (d a : VReg) (f : SfFn) : ∃ g, vsfOp s i d a f = vecGate s i g := vflt1Op_gated ..

theorem vcmpOp_gated (d : MReg) (a : VReg) (b : VSrc) (f : Strand → Nat → Nat → Bool × BitVec 8) :
    ∃ g, vcmpOp s i d a b f = vecGate s i g := ⟨_, rfl⟩

theorem vicmpOp_gated (d : MReg) (a : VReg) (b : VSrc) (f : Nat → Nat → Nat → Bool) :
    ∃ g, vicmpOp s i d a b f = vecGate s i g := vcmpOp_gated ..

theorem permOp_gated (needs : List (Nat × Bool)) (d : VReg) (f : Strand → Nat → Option Nat) :
    ∃ g, permOp s i needs d f = vecGate s i g := ⟨_, rfl⟩

theorem redOp_gated (d a : VReg) (b : VSrc) (f : Nat → Nat → Nat → Nat) : ∃ g, redOp s i d a b f = vecGate s i g := ⟨_, rfl⟩

theorem vldOp_gated (d : VReg) (a : SReg) (idx : Option VReg) (ff bcast : Bool) :
    ∃ g, vldOp s i d a idx ff bcast = vecGate s i g := ⟨_, rfl⟩

theorem vstOp_gated (d : VReg) (a : SReg) (idx : Option VReg) : ∃ g, vstOp s i d a idx = vecGate s i g := ⟨_, rfl⟩

theorem execVfredsum_gated (c : Bool) (d a : VReg) (b : VSrc) :
    ∃ g, execVfredsum c d a b s = vecGate s (.vfredsum c d a b) g := ⟨_, rfl⟩

theorem execVcompress_gated (c : Bool) (d a : VReg) : ∃ g, execVcompress c d a s = vecGate s (.vcompress c d a) g := ⟨_, rfl⟩

theorem execVscan_gated (c : Bool) (d a : VReg) : ∃ g, execVscan c d a s = vecGate s (.vscan c d a) g := ⟨_, rfl⟩

theorem execVfcvt_gated (c : Bool) (d a : VReg) (f : Fin 32) : ∃ g, execVfcvt c d a f s = vecGate s (.vfcvt c d a f) g := ⟨_, rfl⟩

theorem execVextr_gated (c : Bool) (d : SReg) (a : VReg) (b : SReg) :
    ∃ g, execVextr c d a b s = vecGate s (.vextr c d a b) g := ⟨_, rfl⟩

theorem execVinsr_gated (c : Bool) (d : VReg) (a b : SReg) : ∃ g, execVinsr c d a b s = vecGate s (.vinsr c d a b) g := ⟨_, rfl⟩

theorem execViota_gated (c : Bool) (d : VReg) : ∃ g, execViota c d s = vecGate s (.viota c d) g := ⟨_, rfl⟩

theorem execMfromv_gated (c : Bool) (d : MReg) (a : VReg) : ∃ g, execMfromv c d a s = vecGate s (.mfromv c d a) g := ⟨_, rfl⟩

theorem execMtov_gated (c : Bool) (d : VReg) (a : MReg) : ∃ g, execMtov c d a s = vecGate s (.mtov c d a) g := ⟨_, rfl⟩

theorem execVldq_gated (c : Bool) (d : VReg) (a : SReg) : ∃ g, execVldq c d a s = vecGate s (.vldq c d a) g := ⟨_, rfl⟩

theorem execVstq_gated (c : Bool) (d : VReg) (a : SReg) : ∃ g, execVstq c d a s = vecGate s (.vstq c d a) g := ⟨_, rfl⟩

theorem execVmerge_onLanes (c : Bool) (d a : VReg) (b : VSrc) : ∃ f, execVmerge c d a b s = needLanes s (.vmerge c d a b) f := ⟨_, rfl⟩

theorem execMma_onLanes (d : SReg) (a b : VReg) (rep : BitVec 4) :
    ∃ f, execMma d a b rep s = needLanes s (.mma d a b rep) f := ⟨_, rfl⟩

theorem execMopa_onLanes (d : SReg) (a b : VReg) (rep : BitVec 4) :
    ∃ f, execMopa d a b rep s = needLanes s (.mopa d a b rep) f := ⟨_, rfl⟩

theorem execMslide_onLanes (d : SReg) (a b : VReg) (rep : BitVec 4) :
    ∃ f, execMslide d a b rep s = needLanes s (.mslide d a b rep) f := ⟨_, rfl⟩

theorem execMrdc_onLanes (d : SReg) (a : VReg) (rep : BitVec 4) : ∃ f, execMrdc d a rep s = needLanes s (.mrdc d a rep) f := ⟨_, rfl⟩

theorem execSendv_onLanes (d : VReg) (a : RReg) (b : SReg) : ∃ f, execSendv d a b s = needLanes s (.sendv d a b) f := ⟨_, rfl⟩

theorem execRldv_onLanes (d : VReg) (a : RReg) (b : SReg) : ∃ f, execRldv d a b s = needLanes s (.rldv d a b) f := ⟨_, rfl⟩

theorem execRstv_onLanes (d : VReg) (a : RReg) (b : SReg) : ∃ f, execRstv d a b s = needLanes s (.rstv d a b) f := ⟨_, rfl⟩

variable {s i}

theorem onLanes_of_gated {r : Res} (h : ∃ g, r = vecGate s i g) : ∃ f, r = needLanes s i f := by
  obtain ⟨g, rfl⟩ := h
  exact ⟨_, rfl⟩

/-- An instruction that names a vector register has a meaning on a vector strand only. -/
theorem exec_namesVector (h : Claims.namesVector i = true) : ∃ f, exec i s = needLanes s i f := by
  cases i with
  | vadd | vsub | vrsub | vmul | vmulh | vmulhu | vmadd | vmsub | vmin | vmax | vminu | vmaxu | vand | vor | vxor | vsll | vsrl |
    vsra | vdiv | vdivu | vrem | vremu | vsadd | vssub | vsaddu | vssubu =>
    dsimp only [exec]
    exact onLanes_of_gated (vintOp_gated ..)
  | vabs | vclz | vpopc =>
    dsimp only [exec]
    exact onLanes_of_gated (vint1Op_gated ..)
  | vmv => exact onLanes_of_gated (vecOp_gated ..)
  | vfadd | vfsub | vfmul | vfma | vfms | vfnma | vfdiv | vfmin | vfmax =>
    dsimp only [exec]
    exact onLanes_of_gated (vfltOp_gated ..)
  | vfsqrt | vfabs | vfneg | vfcvti | vicvtf | vfclass =>
    dsimp only [exec]
    exact onLanes_of_gated (vflt1Op_gated ..)
  | vexp2 | vlog2 | vrcp | vrsqrt | vsin | vcos | vtanh | vsigm =>
    dsimp only [exec]
    exact onLanes_of_gated (vsfOp_gated ..)
  | vceq | vcne | vclt | vcltu | vcle | vcleu | vcgt | vcgtu =>
    dsimp only [exec]
    exact onLanes_of_gated (vicmpOp_gated ..)
  | vfceq | vfclt | vfcle | vfcun =>
    dsimp only [exec]
    exact onLanes_of_gated (vcmpOp_gated ..)
  | vgather | vxchg | vslideup | vslidedn | vslide1up | vslide1dn =>
    dsimp only [exec]
    exact onLanes_of_gated (permOp_gated ..)
  | vredsum | vredmin | vredmax | vredminu | vredmaxu | vredand | vredor | vredxor =>
    dsimp only [exec]
    exact onLanes_of_gated (redOp_gated ..)
  | vld | vldff | vldx | vldbc =>
    dsimp only [exec]
    exact onLanes_of_gated (vldOp_gated ..)
  | vst | vstx =>
    dsimp only [exec]
    exact onLanes_of_gated (vstOp_gated ..)
  | vfredsum => exact onLanes_of_gated (execVfredsum_gated ..)
  | vcompress => exact onLanes_of_gated (execVcompress_gated ..)
  | vscan => exact onLanes_of_gated (execVscan_gated ..)
  | vfcvt => exact onLanes_of_gated (execVfcvt_gated ..)
  | vextr => exact onLanes_of_gated (execVextr_gated ..)
  | vinsr => exact onLanes_of_gated (execVinsr_gated ..)
  | viota => exact onLanes_of_gated (execViota_gated ..)
  | mfromv => exact onLanes_of_gated (execMfromv_gated ..)
  | mtov => exact onLanes_of_gated (execMtov_gated ..)
  | vldq => exact onLanes_of_gated (execVldq_gated ..)
  | vstq => exact onLanes_of_gated (execVstq_gated ..)
  | vmerge => exact execVmerge_onLanes ..
  | mma => exact execMma_onLanes ..
  | mopa => exact execMopa_onLanes ..
  | mslide => exact execMslide_onLanes ..
  | mrdc => exact execMrdc_onLanes ..
  | sendv => exact execSendv_onLanes ..
  | rldv => exact execRldv_onLanes ..
  | rstv => exact execRstv_onLanes ..
  | _ => cases h

/-- A floating instruction has a meaning once its check of R148 has passed only. -/
theorem exec_isFloat (h : Claims.isFloat i = true) : ∃ f, exec i s = vecGate s i f := by
  cases i with
  | vfadd | vfsub | vfmul | vfma | vfms | vfnma | vfdiv | vfmin | vfmax =>
    dsimp only [exec]
    exact vfltOp_gated ..
  | vfsqrt | vfabs | vfneg | vfcvti | vicvtf | vfclass =>
    dsimp only [exec]
    exact vflt1Op_gated ..
  | vexp2 | vlog2 | vrcp | vrsqrt | vsin | vcos | vtanh | vsigm =>
    dsimp only [exec]
    exact vsfOp_gated ..
  | vfceq | vfclt | vfcle | vfcun =>
    dsimp only [exec]
    exact vcmpOp_gated ..
  | vfredsum => exact execVfredsum_gated ..
  | vfcvt => exact execVfcvt_gated ..
  | _ => cases h

end

/-- A gated meaning whose check of R148 fails is that trap. -/
theorem gated_trap {s : State} (hb : s.bound = true) (hv : s.isVector s.cur.place = true) {i : Instr} {r : Res}
    (hr : ∃ g, r = vecGate s i g) {cause : Nat} {tval : Word} (hc : s.vecCheck s.cur.place s.me i = some (cause, tval)) :
    r = .next (s.raise s.cur.place cause tval) := by
  obtain ⟨g, rfl⟩ := hr
  rw [vecGate, needLanes_of_vector hb hv]
  simp only [hc]

theorem vecGate_pass {s : State} (hb : s.bound = true) (hv : s.isVector s.cur.place = true) {i : Instr}
    (hc : s.vecCheck s.cur.place s.me i = none) (f : Place → Strand → State) :
    vecGate s i f = .next (f s.cur.place s.me) := by
  rw [vecGate, needLanes_of_vector hb hv]
  simp only [hc]

/-- The check of R148 refuses a floating instruction whose SEW is not the format's width; VFCVT has further conditions. -/
theorem State.vecCheck_float {i : Instr} (h : Claims.isFloat i = true) (s : State) (p : Place) {t : Strand}
    (ht : t.sewFits = false) : s.vecCheck p t i = some (causeIllegal, wordOf i) := by
  unfold Claims.isFloat at h
  split at h
  all_goals simp [State.vecCheck, ht] at h ⊢

/-- Settles O32. -/
theorem vectorChecks : Obligations.VectorChecks := by
  refine ⟨fun i s hb hv hi => ?_, fun i s hb hv hi hsew => ?_, fun s c d hb hv => ?_, fun s c d b a hb hv hsp => ⟨?_, ?_⟩⟩
  · obtain ⟨f, hf⟩ := exec_namesVector (s := s) hi
    exact hf.trans (needLanes_of_scalar hb hv i f)
  · have hfits : s.me.sewFits = false := by simpa [Strand.sewFits] using hsew
    exact gated_trap hb hv (exec_isFloat hi) (s.vecCheck_float hi _ hfits)
  · exact gated_trap hb hv (execVscan_gated s c d d) (if_neg (by simp))
  · exact gated_trap hb hv (vstOp_gated s (.vst c d a) d a none) (if_neg (by simp [hsp]))
  · exact gated_trap hb hv (vstOp_gated s (.vstx c d a b) d a (some b)) (if_neg (by simp [hsp]))

end Sys2Proof.Machine
end

section
/-!
PROOFS. The layer of the vector instructions: an element after elements have been written, the bits of a mask after bits have been
written, which elements are active, and a strand that may run a vector instruction now.
-/
set_option Elab.async false

namespace Sys2Proof.Machine

/-! ### Elements of an image -/

theorem ofNat_mod_two_pow (w n : Nat) : BitVec.ofNat w (n % 2 ^ w) = BitVec.ofNat w n :=
  BitVec.eq_of_toNat_eq (by simp)

theorem testBit_elem (img : VImage) (w i j : Nat) : (elem img w i).testBit j = (decide (j < w) && img.getLsbD (w * i + j)) := by
  rw [elem, bits, Nat.testBit_mod_two_pow, Nat.testBit_div_two_pow, BitVec.testBit_toNat, Nat.add_comm]

theorem elem_lt (img : VImage) (w i : Nat) : elem img w i < 2 ^ w := Nat.mod_lt _ (Nat.two_pow_pos w)

theorem srcElem_lt (t : Strand) (w : Nat) (b : VSrc) (i : Nat) : srcElem t w b i < 2 ^ w := by
  cases b with
  | v r => exact elem_lt _ w i
  | s r => exact Nat.mod_lt _ (Nat.two_pow_pos w)

theorem getLsbD_setElem (img : VImage) (w i v k : Nat) (hk : k < 4096) :
    (setElem img w i v).getLsbD k = if w * i ≤ k ∧ k < w * i + w then v.testBit (k - w * i) else img.getLsbD k := by
  have hhole : ((2 ^ w - 1) * 2 ^ (w * i)).testBit k = (decide (w * i ≤ k) && decide (k - w * i < w)) := by
    rw [Nat.testBit_mul_two_pow, Nat.testBit_two_pow_sub_one]
  have hnew : (v % 2 ^ w * 2 ^ (w * i)).testBit k = (decide (w * i ≤ k) && (decide (k - w * i < w) && v.testBit (k - w * i))) := by
    rw [Nat.testBit_mul_two_pow, Nat.testBit_mod_two_pow]
  simp only [setElem, BitVec.getLsbD_or, BitVec.getLsbD_and, BitVec.getLsbD_not, BitVec.getLsbD_ofNat, hk, hhole, hnew,
    decide_true, Bool.true_and]
  by_cases hi : w * i ≤ k
  · by_cases hw : k - w * i < w
    · simp [hi, hw, show k < w * i + w by omega]
    · simp [hi, hw, show ¬k < w * i + w by omega]
  · simp [hi]

/-- An element that has been written holds the low bits of its value. -/
theorem elem_setElem_same (img : VImage) {w i : Nat} (v : Nat) (h : w * (i + 1) ≤ 4096) :
    elem (setElem img w i v) w i = v % 2 ^ w := by
  refine Nat.eq_of_testBit_eq fun j => ?_
  rw [testBit_elem, Nat.testBit_mod_two_pow]
  by_cases hj : j < w
  · have hk : w * i + j < 4096 := by rw [Nat.mul_succ] at h; omega
    rw [getLsbD_setElem img w i v _ hk, if_pos ⟨by omega, by omega⟩, Nat.add_sub_cancel_left]
  · simp [hj]

/-- Writing one element leaves every other. -/
theorem elem_setElem_other (img : VImage) {w i e : Nat} (v : Nat) (h : w * (e + 1) ≤ 4096) (hne : e ≠ i) :
    elem (setElem img w i v) w e = elem img w e := by
  refine Nat.eq_of_testBit_eq fun j => ?_
  rw [testBit_elem, testBit_elem]
  by_cases hj : j < w
  · have hk : w * e + j < 4096 := by rw [Nat.mul_succ] at h; omega
    have hout : ¬(w * i ≤ w * e + j ∧ w * e + j < w * i + w) := by
      rintro ⟨h1, h2⟩
      rcases Nat.lt_or_gt_of_ne hne with hlt | hlt
      · have := Nat.mul_le_mul_left w (Nat.succ_le_of_lt hlt); rw [Nat.mul_succ] at this; omega
      · have := Nat.mul_le_mul_left w (Nat.succ_le_of_lt hlt); rw [Nat.mul_succ] at this; omega
    rw [getLsbD_setElem img w i v _ hk, if_neg hout]
  · simp [hj]

/-- The image and the flags after some elements have been computed, from an image and flags to begin with. -/
theorem foldl_setElem (w : Nat) (f : Nat → ElemRes) (is : List Nat) (r : VImage × BitVec 8) :
    let c := is.foldl (fun (r : VImage × BitVec 8) i => (setElem r.1 w i (f i).1, r.2 ||| (f i).2)) r
    (∀ e, w * (e + 1) ≤ 4096 → elem c.1 w e = if e ∈ is then (f e).1 % 2 ^ w else elem r.1 w e) ∧
    ∀ k, c.2.getLsbD k = (r.2.getLsbD k || is.any fun i => (f i).2.getLsbD k) := by
  induction is generalizing r with
  | nil => simp
  | cons i is ih =>
    obtain ⟨himg, hflags⟩ := ih (setElem r.1 w i (f i).1, r.2 ||| (f i).2)
    refine ⟨fun e he => ?_, fun k => ?_⟩
    · rw [List.foldl_cons, himg e he]
      by_cases hmem : e ∈ is
      · simp [hmem]
      · by_cases hi : e = i
        · subst hi; simp [hmem, elem_setElem_same r.1 (f e).1 he]
        · simp [hmem, hi, elem_setElem_other r.1 (f i).1 he hi]
    · rw [List.foldl_cons, hflags k, BitVec.getLsbD_or, List.any_cons, Bool.or_assoc]

theorem elem_computeElems (img : VImage) (w : Nat) (is : List Nat) (f : Nat → ElemRes) {e : Nat} (he : w * (e + 1) ≤ 4096) :
    elem (computeElems img w is f).1 w e = if e ∈ is then (f e).1 % 2 ^ w else elem img w e :=
  (foldl_setElem w f is (img, 0)).1 e he

theorem getLsbD_computeElems (img : VImage) (w : Nat) (is : List Nat) (f : Nat → ElemRes) (k : Nat) :
    (computeElems img w is f).2.getLsbD k = is.any fun i => (f i).2.getLsbD k := by
  simpa [computeElems] using (foldl_setElem w f is (img, 0)).2 k

/-! ### Bits of a mask -/

theorem getLsbD_setMaskBit (m : MImage) (i : Nat) (v : Bool) {e : Nat} (he : e < 512) :
    (setMaskBit m i v).getLsbD e = if e = i then v else m.getLsbD e := by
  by_cases h : e = i
  · subst h
    cases v <;> simp [setMaskBit, he]
  · cases v <;> simp [setMaskBit, he, h]

/-- The mask and the flags after some bits have been computed. -/
theorem foldl_setMaskBit (f : Nat → Bool × BitVec 8) (is : List Nat) (r : MImage × BitVec 8) :
    let c := is.foldl (fun (r : MImage × BitVec 8) i => (setMaskBit r.1 i (f i).1, r.2 ||| (f i).2)) r
    (∀ e, e < 512 → c.1.getLsbD e = if e ∈ is then (f e).1 else r.1.getLsbD e) ∧
    ∀ k, c.2.getLsbD k = (r.2.getLsbD k || is.any fun i => (f i).2.getLsbD k) := by
  induction is generalizing r with
  | nil => simp
  | cons i is ih =>
    obtain ⟨hbits, hflags⟩ := ih (setMaskBit r.1 i (f i).1, r.2 ||| (f i).2)
    refine ⟨fun e he => ?_, fun k => ?_⟩
    · rw [List.foldl_cons, hbits e he, getLsbD_setMaskBit _ _ _ he]
      by_cases hmem : e ∈ is
      · simp [hmem]
      · by_cases hi : e = i
        · subst hi; simp
        · simp [hmem, hi]
    · rw [List.foldl_cons, hflags k, BitVec.getLsbD_or, List.any_cons, Bool.or_assoc]

theorem getLsbD_computeBits (m : MImage) (is : List Nat) (f : Nat → Bool) {e : Nat} (he : e < 512) :
    (computeBits m is f).getLsbD e = if e ∈ is then f e else m.getLsbD e := by
  induction is generalizing m with
  | nil => simp [computeBits]
  | cons i is ih =>
    have h := ih (setMaskBit m i (f i))
    rw [getLsbD_setMaskBit _ _ _ he] at h
    by_cases hmem : e ∈ is
    · simpa [computeBits, hmem] using h
    · by_cases hi : e = i
      · subst hi; simpa [computeBits, hmem] using h
      · simpa [computeBits, hmem, hi] using h

/-! ### Active elements -/

theorem mem_activeIn {m : MImage} {lo hi e : Nat} : e ∈ activeIn m lo hi ↔ lo ≤ e ∧ e < hi ∧ m.getLsbD e = true := by
  simp only [activeIn, List.mem_filterMap, List.mem_range, Option.ite_none_right_eq_some, Option.some.injEq]
  constructor
  · rintro ⟨i, hi, hm, rfl⟩
    exact ⟨by omega, by omega, hm⟩
  · rintro ⟨h1, h2, hm⟩
    exact ⟨e - lo, by omega, by rwa [Nat.add_sub_cancel' h1], by omega⟩

theorem any_activeIn (m : MImage) (lo hi : Nat) (f : Nat → Bool) :
    (activeIn m lo hi).any f = (List.range hi).any fun e => (decide (lo ≤ e) && decide (e < hi) && m.getLsbD e) && f e := by
  rw [Bool.eq_iff_iff, List.any_eq_true, List.any_eq_true]
  simp only [mem_activeIn, List.mem_range, Bool.and_eq_true, decide_eq_true_eq]
  constructor
  · rintro ⟨e, ⟨h1, h2, h3⟩, h4⟩
    exact ⟨e, h2, ⟨⟨h1, h2⟩, h3⟩, h4⟩
  · rintro ⟨e, -, ⟨⟨h1, h2⟩, h3⟩, h4⟩
    exact ⟨e, ⟨h1, h2, h3⟩, h4⟩

/-! ### A strand that stands alone -/

section
variable {s : State} (ha : s.alone = true)
include ha

theorem State.alone_facts : s.cur.member = 0 ∧ s.cur.stop = none ∧ s.cur.mask = none ∧ s.me.midMask = none := by
  simpa [State.alone, and_assoc] using ha

theorem State.maskOf_alone : s.maskOf s.cur.place s.me = s.me.m s.me.vec.vmsel := by
  obtain ⟨-, -, hmask, hmid⟩ := State.alone_facts ha
  simp [State.maskOf, hmask, hmid]

theorem State.actives_alone (t : Strand) (m : MImage) : s.actives s.cur.place t m = activeIn m t.vec.vstart0 t.vec.vl := by
  obtain ⟨hmember, hstop, -, -⟩ := State.alone_facts ha
  simp [State.actives, State.stopAt, State.member, hmember, hstop, VecCsr.vstart]

theorem State.endVstart_alone (t : Strand) : s.endVstart s.cur.place t = { t with vec := { t.vec with vstart0 := 0 } } := by
  obtain ⟨hmember, hstop, -, -⟩ := State.alone_facts ha
  simp [State.endVstart, State.stopAt, State.member, hmember, hstop, VecCsr.setVstart]

theorem State.unsplitDone_alone (t : Strand) : s.unsplitDone s.cur.place t = (t.vec.vstart0 != 0) := by
  obtain ⟨hmember, -, -, -⟩ := State.alone_facts ha
  simp [State.unsplitDone, State.member, hmember, VecCsr.vstart]

end

/-! ### Residency -/

/-- The strand that acts with the registers that an instruction names resident (R34). -/
def State.resided (s : State) (needs : List (Nat × Bool)) : Strand :=
  (s.me.reside (s.residentCap s.cur.place) (s.spills s.cur.place) needs).1

section
variable (s : State) (needs : List (Nat × Bool))

@[simp] theorem State.resided_vec : (s.resided needs).vec = s.me.vec := rfl
@[simp] theorem State.resided_v (r : VReg) : (s.resided needs).v r = s.me.v r := rfl
@[simp] theorem State.resided_m (r : MReg) : (s.resided needs).m r = s.me.m r := rfl
@[simp] theorem State.resided_sewW : (s.resided needs).sewW = s.me.sewW := rfl

@[simp] theorem State.srcElem_resided (w : Nat) (b : VSrc) (i : Nat) : srcElem (s.resided needs) w b i = srcElem s.me w b i := by
  cases b <;> rfl

variable {s needs}

theorem State.vecReady_iff : s.vecReady needs = true ↔
    s.bound = true ∧ s.alone = true ∧ s.isVector s.cur.place = true ∧
      (s.me.reside (s.residentCap s.cur.place) (s.spills s.cur.place) needs).2.moves = 0 := by
  simp [State.vecReady, and_assoc]

theorem State.withResident_ready (h : s.vecReady needs = true) (f : Strand → State) :
    s.withResident s.cur.place s.me needs f = f (s.resided needs) := by
  obtain ⟨-, -, -, hmoves⟩ := State.vecReady_iff.mp h
  exact if_pos (by simp [hmoves])

end

/-! ### What a vector instruction leaves -/

/-- The strand that has written vector register d, added flags and cleared VSTART0. -/
def Strand.vectorDone (t : Strand) (d : VReg) (img : VImage) (flags : BitVec 8) : Strand :=
  let u := (t.setV d img).addFlags true flags
  { u with vec := { u.vec with vstart0 := 0 } }

theorem Strand.v_of_vectors {t u : Strand} (h : t.vectors = u.vectors) (r : VReg) : t.v r = u.v r := by
  unfold Strand.v; rw [h]

/-- Where an instruction completes is a matter of the PC and the LOOP nest. -/
theorem Strand.complete_pc_of_nest {t u : Strand} (hs : t.suspended = u.suspended) (hl : t.loops = u.loops) (hp : t.pc = u.pc) :
    t.complete.pc = u.complete.pc := by
  simp only [Strand.complete, hs, hl, hp]

section
variable (t : Strand) (d : VReg) (img : VImage) (flags : BitVec 8)

theorem Strand.complete_vectors_vectorDone : (t.vectorDone d img flags).complete.vectors = (t.setV d img).vectors := by
  simp [Strand.vectorDone, Strand.addFlags]

theorem Strand.complete_v_vectorDone : (t.vectorDone d img flags).complete.v d = img :=
  (Strand.v_of_vectors (t.complete_vectors_vectorDone d img flags) d).trans (t.v_setV_same d img)

theorem Strand.complete_v_vectorDone_other {r : VReg} (hr : r ≠ d) : (t.vectorDone d img flags).complete.v r = t.v r :=
  (Strand.v_of_vectors (t.complete_vectors_vectorDone d img flags) r).trans (t.v_setV_other img hr)

theorem Strand.complete_vec_vectorDone :
    (t.vectorDone d img flags).complete.vec = { t.vec with vflags := t.vec.vflags ||| flags, vstart0 := 0 } := by
  simp [Strand.vectorDone, Strand.addFlags]

theorem Claims.vectorFrame_vectorDone : Claims.vectorFrame t (t.vectorDone d img flags).complete (some d) := by
  refine ⟨fun r hr => t.complete_v_vectorDone_other d img flags fun e => hr (congrArg some e), ?_, ?_, ?_, ?_, ?_, ?_, ?_,
    Strand.complete_pc_of_nest rfl rfl rfl⟩
  all_goals simp [Strand.vectorDone, Strand.addFlags]

end

theorem Claims.vectorFrame_resided {s : State} {needs : List (Nat × Bool)} {t : Strand} {d : Option VReg}
    (h : Claims.vectorFrame (s.resided needs) t d) : Claims.vectorFrame s.me t d := h

/-- The skeleton of R146 for a strand that may run it now. -/
theorem vecRun_ready {s : State} {needs : List (Nat × Bool)} (h : s.vecReady needs = true) (d : VReg) (m : MImage)
    (f : Strand → Nat → ElemRes) :
    vecRun s s.cur.place s.me needs d m f = s.complete s.cur.place ((s.resided needs).vectorDone d
      (computeElems (s.me.v d) s.me.sewW (activeIn m s.me.vec.vstart0 s.me.vec.vl) (f (s.resided needs))).1
      (computeElems (s.me.v d) s.me.sewW (activeIn m s.me.vec.vstart0 s.me.vec.vl) (f (s.resided needs))).2) := by
  obtain ⟨-, ha, -, -⟩ := State.vecReady_iff.mp h
  rw [vecRun, State.withResident_ready h]
  simp only [State.actives_alone ha, State.endVstart_alone ha]
  rfl

theorem vecOp_ready {s : State} {needs : List (Nat × Bool)} (h : s.vecReady needs = true) {i : Instr}
    (hc : s.vecCheck s.cur.place s.me i = none) (d : VReg) (f : Strand → Nat → ElemRes) :
    vecOp s i needs d f = .next (vecRun s s.cur.place s.me needs d (s.me.m s.me.vec.vmsel) f) := by
  obtain ⟨hb, ha, hv, -⟩ := State.vecReady_iff.mp h
  rw [vecOp, vecGate_pass hb hv hc, State.maskOf_alone ha]

end Sys2Proof.Machine
end

section
/-!
PROOFS. Dividing and saturating vector instructions (O35): each computes the row of R154 at the element width, on the elements as the
numbers that the model keeps them as.
-/
set_option Elab.async false

namespace Sys2Proof.Machine

/-! ### Numbers of w bits as words of w bits -/

theorem sewW_pos (t : Strand) : 0 < t.sewW := Nat.mul_pos (by decide) (Nat.two_pow_pos _)

theorem toInt_eq_toInt_ofNat (w x : Nat) : toInt w x = (BitVec.ofNat w x).toInt := by
  rw [toInt, BitVec.toInt_eq_toNat_cond, BitVec.toNat_ofNat]

theorem ofNat_ofInt (w : Nat) (v : Int) : BitVec.ofNat w (ofInt w v) = BitVec.ofInt w v := by
  refine BitVec.eq_of_toNat_eq ?_
  rw [BitVec.toNat_ofNat, BitVec.toNat_ofInt, ofInt, Nat.mod_eq_of_lt]
  have := Nat.two_pow_pos w
  omega

theorem toNat_ofNat_lt {w x : Nat} (h : x < 2 ^ w) : (BitVec.ofNat w x).toNat = x := by
  rw [BitVec.toNat_ofNat, Nat.mod_eq_of_lt h]

/-! ### The rows of R154 -/

/-- An element function of the model computes a result of w bits with its flags. -/
def ElemIs (w : Nat) (e : ElemRes) (r : BitVec w × BitVec 8) : Prop := BitVec.ofNat w e.1 = r.1 ∧ e.2 = r.2

section
variable {w : Nat} (x y : BitVec w)

theorem ofInt_tdiv : BitVec.ofInt w (x.toInt.tdiv y.toInt) = x.sdiv y := by
  refine BitVec.eq_of_toInt_eq ?_
  rw [BitVec.toInt_ofInt, BitVec.toInt_sdiv]

theorem ofInt_tmod : BitVec.ofInt w (x.toInt.tmod y.toInt) = x.srem y := by
  rw [← BitVec.toInt_srem, BitVec.ofInt_toInt]

theorem elemIs_vquot (r : Division w) : ElemIs w (vquot r) (r.q, r.flags) := ⟨by simp [vquot], rfl⟩

theorem elemIs_vrem (r : Division w) : ElemIs w (vrem r) (r.r, r.flags) := ⟨by simp [vrem], rfl⟩

theorem elemIs_divSigned_quotient : ElemIs w (vquot (divSigned x y)) <|
    if y = 0 then (BitVec.allOnes w, flagIDZ)
    else if x = BitVec.intMin w ∧ y = BitVec.allOnes w then (x, flagIOV) else (x.sdiv y, 0) := by
  unfold divSigned
  by_cases h0 : y = 0
  · rw [if_pos h0, if_pos h0]; exact elemIs_vquot _
  · rw [if_neg h0, if_neg h0]
    by_cases hov : x = BitVec.intMin w ∧ y = BitVec.allOnes w
    · rw [if_pos hov, if_pos hov, hov.1]; exact elemIs_vquot _
    · rw [if_neg hov, if_neg hov, ofInt_tdiv]; exact elemIs_vquot _

theorem elemIs_divSigned_remainder : ElemIs w (vrem (divSigned x y)) <|
    if y = 0 then (x, flagIDZ)
    else if x = BitVec.intMin w ∧ y = BitVec.allOnes w then (0, flagIOV) else (x.srem y, 0) := by
  unfold divSigned
  by_cases h0 : y = 0
  · rw [if_pos h0, if_pos h0]; exact elemIs_vrem _
  · rw [if_neg h0, if_neg h0]
    by_cases hov : x = BitVec.intMin w ∧ y = BitVec.allOnes w
    · rw [if_pos hov, if_pos hov]; exact elemIs_vrem _
    · rw [if_neg hov, if_neg hov, ofInt_tmod]; exact elemIs_vrem _

theorem elemIs_divUnsigned_quotient : ElemIs w (vquot (divUnsigned x y)) <|
    if y = 0 then (BitVec.allOnes w, flagIDZ) else (x / y, 0) := by
  unfold divUnsigned
  by_cases h0 : y = 0
  · rw [if_pos h0, if_pos h0]; exact elemIs_vquot _
  · rw [if_neg h0, if_neg h0, ← BitVec.toNat_udiv, BitVec.ofNat_toNat, BitVec.setWidth_eq]; exact elemIs_vquot _

theorem elemIs_divUnsigned_remainder : ElemIs w (vrem (divUnsigned x y)) <|
    if y = 0 then (x, flagIDZ) else (x % y, 0) := by
  unfold divUnsigned
  by_cases h0 : y = 0
  · rw [if_pos h0, if_pos h0]; exact elemIs_vrem _
  · rw [if_neg h0, if_neg h0, ← BitVec.toNat_umod, BitVec.ofNat_toNat, BitVec.setWidth_eq]; exact elemIs_vrem _

end

theorem ofInt_intMax {w : Nat} : BitVec.ofInt w ((2 ^ (w - 1) : Nat) - 1) = BitVec.intMax w := by
  rw [Nat.cast_pow, Nat.cast_ofNat, ← BitVec.toInt_intMax, BitVec.ofInt_toInt]

section
variable {w : Nat}

theorem ofInt_intMin (hw : 0 < w) : BitVec.ofInt w (-(2 ^ (w - 1) : Nat)) = BitVec.intMin w := by
  rw [Nat.cast_pow, Nat.cast_ofNat, ← BitVec.toInt_intMin_of_pos hw, BitVec.ofInt_toInt]

/-- A signed sum or difference is clamped as its row says. -/
theorem elemIs_saturateS (hw : 0 < w) {v : Int} {inside : BitVec w} (h : BitVec.ofInt w v = inside) :
    ElemIs w (saturateS w v) (Claims.clamp v inside) := by
  have hcast : ((2 ^ (w - 1) : Nat) : Int) = 2 ^ (w - 1) := by norm_cast
  unfold saturateS saturate Claims.clamp
  by_cases hhi : (2 : Int) ^ (w - 1) ≤ v
  · rw [if_pos (by omega), if_pos hhi]
    exact ⟨(ofNat_ofInt w _).trans ofInt_intMax, rfl⟩
  · rw [if_neg (by omega), if_neg hhi]
    by_cases hlo : v < -(2 : Int) ^ (w - 1)
    · rw [if_pos (by omega), if_pos hlo]
      exact ⟨(ofNat_ofInt w _).trans (ofInt_intMin hw), rfl⟩
    · rw [if_neg (by omega), if_neg hlo]
      exact ⟨(ofNat_ofInt w _).trans h, rfl⟩

variable {x y : Nat} (hx : x < 2 ^ w)
include hx

theorem elemIs_saturateU_add : ElemIs w (saturateU w ((x : Int) + y))
    (if 2 ^ w ≤ x + y then (BitVec.allOnes w, flagSAT) else (BitVec.ofNat w x + BitVec.ofNat w y, 0)) := by
  unfold saturateU saturate
  by_cases h : 2 ^ w ≤ x + y
  · rw [if_pos (by omega), if_pos h]
    refine ⟨(ofNat_ofInt w _).trans ?_, rfl⟩
    rw [show ((2 ^ w : Nat) : Int) - 1 = ((2 ^ w - 1 : Nat) : Int) by omega, BitVec.ofInt_natCast, ← BitVec.toNat_allOnes,
      BitVec.ofNat_toNat, BitVec.setWidth_eq]
  · rw [if_neg (by omega), if_neg h, if_neg (by omega)]
    exact ⟨by rw [ofNat_ofInt, BitVec.ofInt_add, BitVec.ofInt_natCast, BitVec.ofInt_natCast], rfl⟩

theorem elemIs_saturateU_sub : ElemIs w (saturateU w ((x : Int) - y))
    (if x < y then (0, flagSAT) else (BitVec.ofNat w x - BitVec.ofNat w y, 0)) := by
  unfold saturateU saturate
  rw [if_neg (by omega)]
  by_cases h : x < y
  · rw [if_pos (by omega), if_pos h]
    exact ⟨(ofNat_ofInt w 0).trans (BitVec.ofInt_natCast w 0), rfl⟩
  · rw [if_neg (by omega), if_neg h]
    refine ⟨(ofNat_ofInt w _).trans (BitVec.eq_of_toInt_eq ?_), rfl⟩
    rw [BitVec.toInt_ofInt, BitVec.toInt_sub, BitVec.toInt_ofNat', BitVec.toInt_ofNat', Int.bmod_sub_bmod, Int.sub_bmod_bmod]

end

/-! ### The instructions -/

/-- The meaning of a vector instruction of R154: a two-source integer skeleton whose element function computes the row. -/
def ComputesFlagRow (s : State) (i : Instr) (d a : VReg) (b : VSrc) : Prop :=
  ∃ g, exec i s = vintOp s i d a b g ∧ Claims.vecNeeds i = srcReg a :: srcOf b ++ [dstReg d] ∧
    s.vecCheck s.cur.place s.me i = none ∧ ∀ w x y z, 0 < w → x < 2 ^ w → y < 2 ^ w →
      ElemIs w (g w x y z) ((Claims.flagRow w (BitVec.ofNat w x) (BitVec.ofNat w y) i).getD (0, 0))

theorem computesFlagRow {s : State} {i : Instr} {d : VReg} {f : Claims.ElemFn s.me.sewW}
    (h : Claims.vintFlagged s.me i = some (d, f)) : ∃ a b, ComputesFlagRow s i d a b ∧
      f = fun e => (Claims.flagRow s.me.sewW (Claims.el s.me a e) (Claims.src s.me b e) i).getD (0, 0) := by
  unfold Claims.vintFlagged at h
  split at h
  case h_2 => cases h
  case h_1 a b _ hregs hrow =>
    cases h
    refine ⟨a, b, ?_, rfl⟩
    unfold Claims.flagRow at hrow
    split at hrow
    case h_9 => cases hrow
    all_goals cases hregs
    · refine ⟨fun w x y _ => vquot (divSigned (BitVec.ofNat w x) (BitVec.ofNat w y)), rfl, rfl, rfl, fun w x y _ _ _ _ => ?_⟩
      exact elemIs_divSigned_quotient _ _
    · refine ⟨fun w x y _ => vquot (divUnsigned (BitVec.ofNat w x) (BitVec.ofNat w y)), rfl, rfl, rfl, fun w x y _ _ _ _ => ?_⟩
      exact elemIs_divUnsigned_quotient _ _
    · refine ⟨fun w x y _ => vrem (divSigned (BitVec.ofNat w x) (BitVec.ofNat w y)), rfl, rfl, rfl, fun w x y _ _ _ _ => ?_⟩
      exact elemIs_divSigned_remainder _ _
    · refine ⟨fun w x y _ => vrem (divUnsigned (BitVec.ofNat w x) (BitVec.ofNat w y)), rfl, rfl, rfl, fun w x y _ _ _ _ => ?_⟩
      exact elemIs_divUnsigned_remainder _ _
    · refine ⟨fun w x y _ => saturateS w (toInt w x + toInt w y), rfl, rfl, rfl, fun w x y _ hw _ _ => elemIs_saturateS hw ?_⟩
      rw [BitVec.ofInt_add, toInt_eq_toInt_ofNat, toInt_eq_toInt_ofNat, BitVec.ofInt_toInt, BitVec.ofInt_toInt]
    · refine ⟨fun w x y _ => saturateS w (toInt w x - toInt w y), rfl, rfl, rfl, fun w x y _ hw _ _ => elemIs_saturateS hw ?_⟩
      refine BitVec.eq_of_toInt_eq ?_
      rw [BitVec.toInt_ofInt, BitVec.toInt_sub, toInt_eq_toInt_ofNat, toInt_eq_toInt_ofNat]
    · refine ⟨fun w x y _ => saturateU w ((x : Int) + y), rfl, rfl, rfl, fun w x y _ _ hx hy => ?_⟩
      simpa only [Claims.flagRow, Option.getD_some, toNat_ofNat_lt hx, toNat_ofNat_lt hy] using elemIs_saturateU_add hx (y := y)
    · refine ⟨fun w x y _ => saturateU w ((x : Int) - y), rfl, rfl, rfl, fun w x y _ _ hx hy => ?_⟩
      simpa only [Claims.flagRow, Option.getD_some, toNat_ofNat_lt hx, toNat_ofNat_lt hy] using elemIs_saturateU_sub hx (y := y)

/-- Settles O35: the skeleton computes each active element's row from the elements before the instruction, and gathers its flags. -/
theorem flaggedVectorResults : Obligations.FlaggedVectorResults := by
  intro i s d f hready hf
  obtain ⟨a, b, ⟨g, hexec, hneeds, hcheck, hrow⟩, rfl⟩ := computesFlagRow hf
  rw [hneeds] at hready
  have hrow : ∀ e, ElemIs s.me.sewW (g s.me.sewW (elem (s.me.v a) s.me.sewW e) (srcElem s.me s.me.sewW b e)
      (elem (s.me.v d) s.me.sewW e)) ((Claims.flagRow s.me.sewW (Claims.el s.me a e) (Claims.src s.me b e) i).getD (0, 0)) :=
    fun e => hrow _ _ _ _ (sewW_pos s.me) (elem_lt ..) (srcElem_lt ..)
  refine ⟨_, hexec.trans ((vecOp_ready hready hcheck d _).trans (by rw [vecRun_ready hready])), s.othersAs_complete _ _,
    s.memoryAs_complete _ _, ?_⟩
  rw [State.me_complete]
  refine ⟨fun e he => ?_, Claims.vectorFrame_resided (Claims.vectorFrame_vectorDone ..), fun k => ?_,
    by rw [Strand.complete_vec_vectorDone]; rfl⟩
  · rw [Strand.complete_v_vectorDone, elem_computeElems _ _ _ _ he]
    by_cases hactive : e ∈ activeIn (s.me.m s.me.vec.vmsel) s.me.vec.vstart0 s.me.vec.vl
    · obtain ⟨h1, h2, h3⟩ := mem_activeIn.mp hactive
      rw [if_pos hactive, if_pos (by simp [h1, h2, h3]), ← (hrow e).1, ofNat_mod_two_pow]
      rfl
    · rw [if_neg hactive, if_neg (by simpa [mem_activeIn, and_assoc] using hactive)]
  · rw [Strand.complete_vec_vectorDone, BitVec.getLsbD_or, getLsbD_computeElems, any_activeIn]
    simp only [State.resided_vec, State.resided_v, State.resided_sewW, State.srcElem_resided, (hrow _).2]

end Sys2Proof.Machine
end

section
/-!
PROOFS. Vector comparisons (O37) and mask instructions (O38): the bits that each writes, and the bits of a mask that it counts or finds.
-/
set_option Elab.async false

namespace Sys2Proof.Machine

/-! ### The strand after an instruction that writes a mask register -/

/-- The strand that has written a mask register, added flags and cleared VSTART0. -/
def Strand.maskDone (t : Strand) (d : MReg) (m : MImage) (flags : BitVec 8) : Strand :=
  let u := (t.setM d m).addFlags true flags
  { u with vec := { u.vec with vstart0 := 0 } }

theorem Strand.m_of_masks {t u : Strand} (h : t.masks = u.masks) (r : MReg) : t.m r = u.m r := by
  unfold Strand.m; rw [h]

section
variable (t : Strand) {d : MReg} (m : MImage) (flags : BitVec 8)

theorem Strand.complete_masks_maskDone : (t.maskDone d m flags).complete.masks = (t.setM d m).masks := by
  simp [Strand.maskDone, Strand.addFlags]

theorem Strand.complete_m_maskDone_same (hd : d ≠ 0) : (t.maskDone d m flags).complete.m d = m :=
  (Strand.m_of_masks (t.complete_masks_maskDone m flags) d).trans (t.m_setM_same m hd)

theorem Strand.complete_m_maskDone_other {r : MReg} (hr : r ≠ d) : (t.maskDone d m flags).complete.m r = t.m r :=
  (Strand.m_of_masks (t.complete_masks_maskDone m flags) r).trans (t.m_setM_other m hr)

theorem Strand.complete_vec_maskDone :
    (t.maskDone d m flags).complete.vec = { t.vec with vflags := t.vec.vflags ||| flags, vstart0 := 0 } := by
  simp [Strand.maskDone, Strand.addFlags]

theorem Strand.complete_scalars_maskDone : (t.maskDone d m flags).complete.scalars = t.scalars := by
  simp [Strand.maskDone, Strand.addFlags]

theorem Strand.complete_vectors_maskDone : (t.maskDone d m flags).complete.vectors = t.vectors := by
  simp [Strand.maskDone, Strand.addFlags]

/-- A mask instruction leaves everything but its mask register, as a vector instruction leaves everything but its vector register. -/
theorem Claims.vectorFrame_maskDone : Claims.vectorFrame t { (t.maskDone d m flags).complete with masks := t.masks } none := by
  have hpc : (t.maskDone d m flags).complete.pc = t.complete.pc :=
    Strand.complete_pc_of_nest (by simp [Strand.suspended, Strand.maskDone, Strand.addFlags])
      (by simp [Strand.maskDone, Strand.addFlags]) (by simp [Strand.maskDone, Strand.addFlags])
  refine ⟨fun r _ => Strand.v_of_vectors (t.complete_vectors_maskDone m flags) r, ?_, rfl, ?_, ?_, ?_, ?_, ?_, hpc⟩
  all_goals simp [Strand.maskDone, Strand.addFlags]

end

/-! ### Comparisons -/

/-- The meaning of a comparison: its skeleton with an outcome for each element. -/
def Compares (s : State) (i : Instr) (d : MReg) (f : Nat → Bool × BitVec 8) : Prop :=
  ∃ a b g, exec i s = vcmpOp s i d a b g ∧ Claims.vecNeeds i = srcReg a :: srcOf b ∧
    ∀ e, g (s.resided (srcReg a :: srcOf b)) (elem (s.me.v a) s.me.sewW e) (srcElem s.me s.me.sewW b e) = f e

section
variable {s : State} {i : Instr} {d : MReg} {a : VReg} {b : VSrc}

theorem compares_int (g : Nat → Nat → Nat → Bool) (f : BitVec s.me.sewW → BitVec s.me.sewW → Bool)
    (hexec : exec i s = vicmpOp s i d a b g) (hneeds : Claims.vecNeeds i = srcReg a :: srcOf b)
    (hg : ∀ x y, x < 2 ^ s.me.sewW → y < 2 ^ s.me.sewW →
      g s.me.sewW x y = f (BitVec.ofNat s.me.sewW x) (BitVec.ofNat s.me.sewW y)) :
    Compares s i d fun e => (f (Claims.el s.me a e) (Claims.src s.me b e), 0) :=
  ⟨a, b, _, hexec, hneeds, fun _ => congrArg (·, 0) (hg _ _ (elem_lt ..) (srcElem_lt ..))⟩

theorem compares_float (g : Strand → Nat → Nat → Bool × BitVec 8) (signals : Bool) (f : FVal → FVal → Bool) (withNan : Bool)
    (hexec : exec i s = vcmpOp s i d a b g) (hneeds : Claims.vecNeeds i = srcReg a :: srcOf b)
    (hg : ∀ t x y, g t x y = if t.fmt.dec x = .nan ∨ t.fmt.dec y = .nan then (withNan, if signals then flagNV else 0)
      else (f (t.fmt.dec x) (t.fmt.dec y), 0)) :
    Compares s i d fun e =>
      let x := s.me.fmt.dec (elem (s.me.v a) s.me.sewW e)
      let y := s.me.fmt.dec (srcElem s.me s.me.sewW b e)
      if x = .nan ∨ y = .nan then (withNan, if signals then flagNV else 0) else (f x y, (0 : BitVec 8)) :=
  ⟨a, b, _, hexec, hneeds, fun _ => hg _ _ _⟩

theorem eitherNan_iff (t : Strand) (x y : Nat) : eitherNan t x y = true ↔ t.fmt.dec x = .nan ∨ t.fmt.dec y = .nan := by
  simp [eitherNan]

theorem toInt_lt_iff_slt (w x y : Nat) : toInt w x < toInt w y ↔ (BitVec.ofNat w x).slt (BitVec.ofNat w y) = true := by
  rw [toInt_eq_toInt_ofNat, toInt_eq_toInt_ofNat, BitVec.slt_iff_toInt_lt]

theorem lt_iff_ult {w x y : Nat} (hx : x < 2 ^ w) (hy : y < 2 ^ w) :
    x < y ↔ (BitVec.ofNat w x).ult (BitVec.ofNat w y) = true := by
  rw [BitVec.ult, decide_eq_true_eq, toNat_ofNat_lt hx, toNat_ofNat_lt hy]

theorem beq_ofNat {w x y : Nat} (hx : x < 2 ^ w) (hy : y < 2 ^ w) : (x == y) = (BitVec.ofNat w x == BitVec.ofNat w y) := by
  rw [Bool.eq_iff_iff, beq_iff_eq, beq_iff_eq, BitVec.toNat_eq, toNat_ofNat_lt hx, toNat_ofNat_lt hy]

end

theorem compares_of_vcompare {s : State} {i : Instr} {d : MReg} {f : Nat → Bool × BitVec 8}
    (h : Claims.vcompare s.me i = some (d, f)) : Compares s i d f := by
  unfold Claims.vcompare at h
  split at h
  case h_13 => cases h
  all_goals cases h
  · refine compares_int (fun _ x y => x == y) (· == ·) rfl rfl fun x y hx hy => ?_
    exact beq_ofNat hx hy
  · refine compares_int (fun _ x y => x != y) (· != ·) rfl rfl fun x y hx hy => ?_
    exact congrArg not (beq_ofNat hx hy)
  · refine compares_int (fun w x y => toInt w x < toInt w y) (·.slt ·) rfl rfl fun x y _ _ => ?_
    simp [toInt_lt_iff_slt]
  · refine compares_int (fun _ x y => x < y) (·.ult ·) rfl rfl fun x y hx hy => ?_
    simp [lt_iff_ult hx hy]
  · refine compares_int (fun w x y => toInt w x ≤ toInt w y) (fun x y => !y.slt x) rfl rfl fun x y _ _ => ?_
    simp [← not_lt, toInt_lt_iff_slt]
  · refine compares_int (fun _ x y => x ≤ y) (fun x y => !y.ult x) rfl rfl fun x y hx hy => ?_
    simp [← not_lt, lt_iff_ult hy hx]
  · refine compares_int (fun w x y => toInt w x > toInt w y) (fun x y => y.slt x) rfl rfl fun x y _ _ => ?_
    simp [toInt_lt_iff_slt]
  · refine compares_int (fun _ x y => x > y) (fun x y => y.ult x) rfl rfl fun x y hx hy => ?_
    simp [lt_iff_ult hy hx]
  · refine compares_float (fun t x y => (!eitherNan t x y && fcmp (t.fmt.dec x) (t.fmt.dec y) == .eq, 0))
      false (fun x y => fcmp x y == .eq) false rfl rfl fun t x y => ?_
    simp only [← eitherNan_iff]
    cases eitherNan t x y <;> simp
  · refine compares_float (fun t x y =>
        (!eitherNan t x y && fcmp (t.fmt.dec x) (t.fmt.dec y) == .lt, if eitherNan t x y then flagNV else 0))
      true (fun x y => fcmp x y == .lt) false rfl rfl fun t x y => ?_
    simp only [← eitherNan_iff]
    cases eitherNan t x y <;> simp
  · refine compares_float (fun t x y =>
        (!eitherNan t x y && fcmp (t.fmt.dec x) (t.fmt.dec y) != .gt, if eitherNan t x y then flagNV else 0))
      true (fun x y => fcmp x y != .gt) false rfl rfl fun t x y => ?_
    simp only [← eitherNan_iff]
    cases eitherNan t x y <;> simp
  · refine compares_float (fun t x y => (eitherNan t x y, 0)) false (fun _ _ => false) true rfl rfl fun t x y => ?_
    simp only [← eitherNan_iff]
    cases eitherNan t x y <;> simp

/-- Some bits of a mask computed, with flags gathered. -/
def compareBits (m : MImage) (is : List Nat) (f : Nat → Bool × BitVec 8) : MImage × BitVec 8 :=
  is.foldl (fun r n => (setMaskBit r.1 n (f n).1, r.2 ||| (f n).2)) (m, 0)

theorem getLsbD_compareBits (m : MImage) (is : List Nat) (f : Nat → Bool × BitVec 8) {e : Nat} (he : e < 512) :
    (compareBits m is f).1.getLsbD e = if e ∈ is then (f e).1 else m.getLsbD e :=
  (foldl_setMaskBit f is (m, 0)).1 e he

theorem getLsbD_flags_compareBits (m : MImage) (is : List Nat) (f : Nat → Bool × BitVec 8) (k : Nat) :
    (compareBits m is f).2.getLsbD k = is.any fun i => (f i).2.getLsbD k := by
  simpa [compareBits] using (foldl_setMaskBit f is (m, 0)).2 k

theorem vcmpOp_ready {s : State} {i : Instr} {a : VReg} {b : VSrc} (h : s.vecReady (srcReg a :: srcOf b) = true)
    (hc : s.vecCheck s.cur.place s.me i = none) (d : MReg) (g : Strand → Nat → Nat → Bool × BitVec 8) {f : Nat → Bool × BitVec 8}
    (hg : ∀ e, g (s.resided (srcReg a :: srcOf b)) (elem (s.me.v a) s.me.sewW e) (srcElem s.me s.me.sewW b e) = f e) :
    let r := compareBits (s.me.m d) (activeIn (s.me.m s.me.vec.vmsel) s.me.vec.vstart0 s.me.vec.vl) f
    vcmpOp s i d a b g = .next (s.complete s.cur.place ((s.resided (srcReg a :: srcOf b)).maskDone d r.1 r.2)) := by
  intro r
  obtain ⟨hb, ha, hv, -⟩ := State.vecReady_iff.mp h
  rw [vcmpOp, vecGate_pass hb hv hc, State.withResident_ready h]
  simp only [State.actives_alone ha, State.endVstart_alone ha, State.maskOf_alone ha, State.resided_v, State.resided_m,
    State.resided_sewW, State.resided_vec, State.srcElem_resided, hg]
  rfl

/-- Settles O37. -/
theorem compareResults : Obligations.CompareResults := by
  intro i s d f hready hd hf hcheck
  obtain ⟨a, b, g, hexec, hneeds, hg⟩ := compares_of_vcompare hf
  rw [hneeds] at hready
  refine ⟨_, hexec.trans (vcmpOp_ready hready hcheck d g hg), s.othersAs_complete _ _, s.memoryAs_complete _ _, ?_⟩
  rw [State.me_complete]
  refine ⟨fun e he => ?_, fun r hr => Strand.complete_m_maskDone_other _ _ _ hr,
    Claims.vectorFrame_resided (Claims.vectorFrame_maskDone ..), fun k => ?_⟩
  · rw [Strand.complete_m_maskDone_same _ _ _ hd, getLsbD_compareBits _ _ _ he]
    simp only [mem_activeIn, Bool.and_eq_true, decide_eq_true_eq, and_assoc]
  · rw [Strand.complete_vec_maskDone, State.resided_vec, BitVec.getLsbD_or, getLsbD_flags_compareBits, any_activeIn]

end Sys2Proof.Machine
end

section
/-!
PROOFS. Mask instructions (O38): the bits that each writes, and the 1 bits of a mask that it counts or finds (R149, R165).
-/
set_option Elab.async false

namespace Sys2Proof.Machine

/-! ### Writing a mask register -/

theorem Strand.complete_vec_maskDone_noFlags (t : Strand) (d : MReg) (m : MImage) :
    (t.maskDone d m 0).complete.vec = { t.vec with vstart0 := 0 } := by
  simp [Strand.maskDone, Strand.addFlags]

section
variable {s : State} (ha : s.alone = true)
include ha

theorem State.endVstart_setM (t : Strand) (d : MReg) (m : MImage) :
    s.endVstart s.cur.place (t.setM d m) = t.maskDone d m 0 := by
  rw [State.endVstart_alone ha]
  simp [Strand.maskDone, Strand.addFlags]

theorem State.mem_maskActives {t : Strand} {e : Nat} (he : e < 512) :
    e ∈ s.maskActives s.cur.place t ↔ t.vec.vstart0 ≤ e ∧ e < t.vec.vl := by
  rw [State.maskActives, State.actives_alone ha, mem_activeIn, BitVec.getLsbD_allOnes, decide_eq_true he]
  simp

/-- With VSTART0 = 0 there is nothing to clear. -/
theorem State.endVstart_of_zero {t : Strand} (h : t.vec.vstart0 = 0) : s.endVstart s.cur.place t = t := by
  rw [State.endVstart_alone ha, ← h]

variable (hb : s.bound = true)
include hb

theorem maskOp_alone (d : MReg) (f : Strand → Nat → Bool) : maskOp s d f =
    .next (s.complete s.cur.place (s.me.maskDone d (computeBits (s.me.m d) (s.maskActives s.cur.place s.me) (f s.me)) 0)) := by
  rw [maskOp, onStrand_of_bound hb, State.endVstart_setM ha]

theorem maskUnsplit_skipped (h : s.me.vec.vstart0 ≠ 0) (keep f : Strand → Strand) :
    maskUnsplit s keep f = .next (s.complete s.cur.place (s.endVstart s.cur.place (keep s.me))) := by
  rw [maskUnsplit, onStrand_of_bound hb, State.unsplitDone_alone ha, if_pos (bne_iff_ne.mpr h)]

theorem maskUnsplit_runs (h : s.me.vec.vstart0 = 0) (keep f : Strand → Strand) :
    maskUnsplit s keep f = .next (s.complete s.cur.place (s.endVstart s.cur.place (f s.me))) := by
  rw [maskUnsplit, onStrand_of_bound hb, State.unsplitDone_alone ha, if_neg (by simp [h])]

end

/-! ### The 1 bits of a mask -/

theorem popcFrom_eq (n v : Nat) : popcFrom n v = ((List.range n).filter fun e => v.testBit e).length := by
  induction n generalizing v with
  | zero => rfl
  | succ n ih =>
    rw [popcFrom, ih, List.range_succ_eq_map, List.filter_cons, List.filter_map, Nat.testBit_zero]
    have htail : ((List.range n).filter fun e => (v / 2).testBit e) =
        (List.range n).filter ((fun e => v.testBit e) ∘ Nat.succ) :=
      List.filter_congr fun e _ => (Nat.testBit_succ v e).symm
    by_cases hodd : v % 2 = 1
    · simp [hodd, htail, Nat.add_comm]
    · simp [show v % 2 = 0 by omega, htail]

theorem firstBit_eq (t : Strand) (a : MReg) :
    firstBit t a = ((List.range t.vec.vl).filter fun e => (t.m a).getLsbD e).head? := List.head?_filter.symm

/-- The first 1 stands at or after element n where no bit below n is 1. -/
theorem firstBit_all (t : Strand) (a : MReg) {n : Nat} (hn : n ≤ t.vec.vl) :
    ((firstBit t a).all fun f => decide (n ≤ f)) = (List.range n).all fun k => !(t.m a).getLsbD k := by
  rw [Bool.eq_iff_iff, List.all_eq_true]
  simp only [List.mem_range, Bool.not_eq_true']
  cases h : firstBit t a with
  | none =>
    have hnone := List.find?_range_eq_none.mp h
    exact iff_of_true rfl fun k hk => by simpa using hnone k (by omega)
  | some f =>
    obtain ⟨hf, -, hbefore⟩ := List.find?_range_eq_some.mp h
    rw [Option.all_some, decide_eq_true_eq]
    constructor
    · exact fun hnf k hk => by simpa using hbefore k (by omega)
    · refine fun hall => Nat.le_of_not_lt fun hfn => ?_
      rw [hall f hfn] at hf
      exact Bool.false_ne_true hf

/-! ### The instructions -/

section
variable (s : State) (c : Bool)

theorem exec_mskft (d a : MReg) : exec (.mskft c d a) s = maskUnsplit s (fun t => t.setM d (t.m d)) fun t =>
    t.setM d (computeBits (t.m d) (List.range t.vec.vl) fun n => (firstBit t a).all fun f => decide (n ≤ f)) := by
  have h : ∀ t n, (firstBit t a).all (fun f => decide (n ≤ f)) =
      match firstBit t a with | some f => decide (n ≤ f) | none => true := fun t n => by cases firstBit t a <;> rfl
  simp only [h]
  rfl

theorem exec_mskbf (d a : MReg) : exec (.mskbf c d a) s = maskUnsplit s (fun t => t.setM d (t.m d)) fun t =>
    t.setM d (computeBits (t.m d) (List.range t.vec.vl) fun n => (firstBit t a).all fun f => decide (n + 1 ≤ f)) := by
  have h : ∀ t n, (firstBit t a).all (fun f => decide (n + 1 ≤ f)) =
      match firstBit t a with | some f => decide (n < f) | none => true := fun t n => by cases firstBit t a <;> rfl
  simp only [h]
  rfl

theorem exec_mpopc (d : SReg) (a : MReg) : exec (.mpopc c d a) s = maskUnsplit s id fun t =>
    t.setS d (BitVec.ofNat 64 (popcFrom t.vec.vl (t.m a).toNat)) := rfl

theorem exec_mfirst (d : SReg) (a : MReg) : exec (.mfirst c d a) s = maskUnsplit s id fun t =>
    t.setS d (match firstBit t a with
      | some n => BitVec.ofNat 64 n
      | none => BitVec.allOnes 64) := rfl

end

/-- The meaning of a mask instruction of R165 that writes a mask register: it has completed with some bits of it computed. -/
def WritesMask (s : State) (i : Instr) (d : MReg) (f : Nat → Bool) : Prop :=
  ∃ m, exec i s = .next (s.complete s.cur.place (s.me.maskDone d m 0)) ∧ ∀ e, e < 512 → m.getLsbD e =
    if s.me.vec.vstart0 ≤ e ∧ e < s.me.vec.vl ∧ (Claims.isUnsplitMask i = true → s.me.vec.vstart0 = 0) then f e
    else (s.me.m d).getLsbD e

section
variable {s : State} (ha : s.alone = true) (hb : s.bound = true) {i : Instr} {d : MReg} {f : Nat → Bool}
include ha hb

theorem writesMask_of_maskOp (g : Strand → Nat → Bool) (hexec : exec i s = maskOp s d g)
    (hi : Claims.isUnsplitMask i = false) (hg : ∀ e, g s.me e = f e) : WritesMask s i d f := by
  refine ⟨_, hexec.trans (maskOp_alone ha hb d g), fun e he => ?_⟩
  rw [getLsbD_computeBits _ _ _ he, hg]
  simp only [State.mem_maskActives ha he, hi, Bool.false_eq_true, false_implies, and_true]

theorem writesMask_of_maskUnsplit (g : Strand → Nat → Bool)
    (hexec : exec i s = maskUnsplit s (fun t => t.setM d (t.m d)) fun t =>
      t.setM d (computeBits (t.m d) (List.range t.vec.vl) (g t)))
    (hi : Claims.isUnsplitMask i = true) (hg : ∀ e, e < s.me.vec.vl → g s.me e = f e) : WritesMask s i d f := by
  by_cases h0 : s.me.vec.vstart0 = 0
  · refine ⟨computeBits (s.me.m d) (List.range s.me.vec.vl) (g s.me), ?_, fun e he => ?_⟩
    · rw [hexec, maskUnsplit_runs ha hb h0, State.endVstart_setM ha]
    · rw [getLsbD_computeBits _ _ _ he]
      by_cases hvl : e < s.me.vec.vl
      · simp [h0, hvl, hg e hvl]
      · simp [hvl]
  · refine ⟨s.me.m d, ?_, fun e he => ?_⟩
    · rw [hexec, maskUnsplit_skipped ha hb h0, State.endVstart_setM ha]
    · simp [hi, h0]

theorem writesMask_of_maskBits (h : Claims.maskBits s.me i = some (d, f)) : WritesMask s i d f := by
  unfold Claims.maskBits at h
  split at h
  case h_8 => cases h
  all_goals cases h
  · exact writesMask_of_maskOp ha hb (fun t n => (t.m _).getLsbD n && (t.m _).getLsbD n) rfl rfl fun _ => rfl
  · exact writesMask_of_maskOp ha hb (fun t n => (t.m _).getLsbD n || (t.m _).getLsbD n) rfl rfl fun _ => rfl
  · exact writesMask_of_maskOp ha hb (fun t n => (t.m _).getLsbD n != (t.m _).getLsbD n) rfl rfl fun _ => rfl
  · exact writesMask_of_maskOp ha hb (fun t n => (t.m _).getLsbD n && !(t.m _).getLsbD n) rfl rfl fun _ => rfl
  · exact writesMask_of_maskOp ha hb (fun t n => !(t.m _).getLsbD n) rfl rfl fun _ => rfl
  · exact writesMask_of_maskUnsplit ha hb (fun t n => (firstBit t _).all fun f => decide (n ≤ f)) (exec_mskft ..) rfl
      fun e he => firstBit_all _ _ (Nat.le_of_lt he)
  · exact writesMask_of_maskUnsplit ha hb (fun t n => (firstBit t _).all fun f => decide (n + 1 ≤ f)) (exec_mskbf ..) rfl
      fun e he => firstBit_all _ _ he

/-- With VSTART0 not 0 an unsplit instruction that writes a scalar register only sets VSTART0 to 0. -/
theorem maskUnsplit_id_skipped (h : s.me.vec.vstart0 ≠ 0) (g : Strand → Strand) :
    maskUnsplit s id g = s.done fun t => { t with vec := { t.vec with vstart0 := 0 } } := by
  rw [maskUnsplit_skipped ha hb h, State.endVstart_alone ha]
  rfl

/-- With VSTART0 = 0 it writes its register. -/
theorem maskUnsplit_setS (h : s.me.vec.vstart0 = 0) (keep : Strand → Strand) (r : SReg) (v : Strand → Word) :
    maskUnsplit s keep (fun t => t.setS r (v t)) = s.done fun t => t.setS r (v s.me) := by
  have h0 : (s.me.setS r (v s.me)).vec.vstart0 = 0 := by rw [Strand.setS_vec, h]
  rw [maskUnsplit_runs ha hb h, State.endVstart_of_zero ha h0]
  rfl

end

theorem exec_mfromv_ready {s : State} {c : Bool} {d : MReg} {a : VReg} (h : s.vecReady [srcReg a] = true) :
    exec (.mfromv c d a) s = .next (s.complete s.cur.place ((s.resided [srcReg a]).maskDone d (computeBits (s.me.m d)
      (s.maskActives s.cur.place (s.resided [srcReg a])) fun n => elem (s.me.v a) s.me.sewW n != 0) 0)) := by
  obtain ⟨hb, ha, hv, -⟩ := State.vecReady_iff.mp h
  have hexec : exec (.mfromv c d a) s = execMfromv c d a s := rfl
  rw [hexec, execMfromv, vecGate_pass hb hv rfl, State.withResident_ready h]
  simp only [State.endVstart_setM ha, State.resided_v, State.resided_m, State.resided_sewW]

/-- Settles O38. -/
theorem maskResults : Obligations.MaskResults := by
  refine ⟨fun i s d f hb ha hd hf => ?_, fun s c d a h hd => ?_, fun s c d a hb ha => ⟨fun h => ⟨?_, ?_⟩, fun h => ⟨?_, ?_⟩⟩⟩
  · obtain ⟨m, hexec, hm⟩ := writesMask_of_maskBits ha hb hf
    refine ⟨_, hexec, s.othersAs_complete _ _, ?_⟩
    rw [State.me_complete]
    refine ⟨fun e he => ?_, fun r hr => Strand.complete_m_maskDone_other _ _ _ hr, Strand.complete_scalars_maskDone ..,
      Strand.complete_vectors_maskDone .., ?_⟩
    · rw [Strand.complete_m_maskDone_same _ _ _ hd, hm e he]
    · exact Strand.complete_vec_maskDone_noFlags ..
  · obtain ⟨-, ha, -, -⟩ := State.vecReady_iff.mp h
    refine ⟨_, exec_mfromv_ready h, s.othersAs_complete _ _, ?_⟩
    rw [State.me_complete]
    refine ⟨fun e he => ?_, fun r hr => Strand.complete_m_maskDone_other _ _ _ hr⟩
    rw [Strand.complete_m_maskDone_same _ _ _ hd, getLsbD_computeBits _ _ _ he]
    simp only [State.mem_maskActives ha he, State.resided_vec]
  · rw [exec_mpopc, maskUnsplit_setS ha hb h id d fun t => BitVec.ofNat 64 (popcFrom t.vec.vl (t.m a).toNat), popcFrom_eq]
    rfl
  · rw [exec_mfirst, maskUnsplit_setS ha hb h id d fun t => match firstBit t a with
      | some n => BitVec.ofNat 64 n
      | none => BitVec.allOnes 64, firstBit_eq]
    cases (List.range s.me.vec.vl).filter fun e => (s.me.m a).getLsbD e <;> rfl
  · rw [exec_mpopc]
    exact maskUnsplit_id_skipped ha hb h _
  · rw [exec_mfirst]
    exact maskUnsplit_id_skipped ha hb h _

end Sys2Proof.Machine
end

section
/-!
PROOFS. The layer of the local buffers: what a byte and a full/empty tag read as after a line has been brought to its bay's generation,
after bytes have been written and after a tag has been set (R49, R52).
-/
set_option Elab.async false

namespace Sys2Proof.Machine

/-! ### A line brought to its bay's generation -/

section
variable (x : Core) (l : Nat)

theorem mget_mdelRange_outside {β : Type} (m : SMap β) {a n k : Nat} (h : k < a ∨ a + n ≤ k) :
    mget (mdelRange m a n) k = mget m k := mget_mfilter_key _ (by simpa using h)

theorem mget_mdelRange_inside {β : Type} (m : SMap β) {a n k : Nat} (h : a ≤ k ∧ k < a + n) :
    mget (mdelRange m a n) k = none := by
  induction m with
  | nil => rfl
  | cons e r ih =>
    obtain ⟨b, v⟩ := e
    by_cases hb : a ≤ b ∧ b < a + n
    · rw [mdelRange, mfilter, List.filter_cons, if_neg (by simpa using hb)]
      exact ih
    · have hkeep : (!(decide (a ≤ b) && decide (b < a + n))) = true := by
        simp only [Bool.not_eq_true', Bool.and_eq_false_iff, decide_eq_false_iff_not]
        omega
      rw [mdelRange, mfilter, List.filter_cons, if_pos hkeep, mget, if_neg fun hbk : b = k => hb (hbk ▸ h)]
      exact ih

@[simp] theorem Core.freshen_strands : (x.freshen l).strands = x.strands := by unfold Core.freshen; split <;> rfl
@[simp] theorem Core.freshen_locks : (x.freshen l).locks = x.locks := by unfold Core.freshen; split <;> rfl
@[simp] theorem Core.freshen_bayGen : (x.freshen l).bayGen = x.bayGen := by unfold Core.freshen; split <;> rfl

theorem Core.live_freshen (k : Nat) : (x.freshen l).live k = if k = l then true else x.live k := by
  unfold Core.freshen
  by_cases h : x.live l = true
  · rw [if_pos h]
    by_cases hk : k = l
    · rw [if_pos hk, hk, h]
    · rw [if_neg hk]
  · rw [if_neg h]
    unfold Core.live Core.bayGeneration
    rw [mgetD_mput]
    by_cases hk : k = l
    · rw [if_pos hk, if_pos hk, hk]
      exact beq_self_eq_true _
    · rw [if_neg hk, if_neg hk]

/-- Bringing a line to its generation changes no byte: those of a stale line read as zeros. -/
@[simp] theorem Core.readLocalByte_freshen (a : Nat) : (x.freshen l).readLocalByte a = x.readLocalByte a := by
  unfold Core.readLocalByte
  rw [Core.live_freshen]
  by_cases hlive : x.live l = true
  · have hsame : x.freshen l = x := if_pos hlive
    by_cases ha : lineOf a = l
    · rw [if_pos ha, ha, hlive, hsame]
    · rw [if_neg ha, hsame]
  · have hbuf : (x.freshen l).buf = mdelRange x.buf (64 * l) 64 := by rw [Core.freshen, if_neg hlive]
    rw [hbuf]
    by_cases ha : lineOf a = l
    · have hin : 64 * l ≤ a ∧ a < 64 * l + 64 := by unfold lineOf at ha; omega
      rw [if_pos ha, if_pos rfl, ha, if_neg hlive, mgetD, mget_mdelRange_inside _ hin]
      rfl
    · have hout : a < 64 * l ∨ 64 * l + 64 ≤ a := by unfold lineOf at ha; omega
      rw [if_neg ha, mgetD, mgetD, mget_mdelRange_outside _ hout]

/-- Nor does it change a tag: those of a stale line are empty. -/
@[simp] theorem Core.isFull_freshen (w : Nat) : (x.freshen l).isFull w = x.isFull w := by
  unfold Core.isFull
  rw [Core.live_freshen]
  by_cases hlive : x.live l = true
  · have hsame : x.freshen l = x := if_pos hlive
    by_cases hw : lineOf (0x38000 + 8 * w) = l
    · rw [if_pos hw, hw, hlive, hsame]
    · rw [if_neg hw, hsame]
  · have hfull : (x.freshen l).full =
        mdelRange x.full (8 * l - lineOf 0x38000 * 8) (if lineOf 0x38000 ≤ l then 8 else 0) := by rw [Core.freshen, if_neg hlive]
    have hbase : lineOf 0x38000 = 3584 := rfl
    rw [hfull, hbase]
    by_cases hw : lineOf (0x38000 + 8 * w) = l
    · have hl : 3584 ≤ l := by unfold lineOf at hw; omega
      have hin : 8 * l - 3584 * 8 ≤ w ∧ w < 8 * l - 3584 * 8 + 8 := by unfold lineOf at hw; omega
      rw [if_pos hw, hw, if_pos hl, mhas, mget_mdelRange_inside _ hin]
      simp [hlive]
    · have hkey : mget (mdelRange x.full (8 * l - 3584 * 8) (if 3584 ≤ l then 8 else 0)) w = mget x.full w := by
        unfold lineOf at hw
        refine mget_mdelRange_outside _ ?_
        by_cases hl : 3584 ≤ l
        · rw [if_pos hl]; omega
        · rw [if_neg hl]; omega
      rw [if_neg hw, mhas, mhas, hkey]

end

/-! ### Bytes written -/

section
variable (x : Core)

@[simp] theorem Core.writeLocalByte_strands (a : Nat) (b : Byte) : (x.writeLocalByte a b).strands = x.strands :=
  x.freshen_strands (lineOf a)
@[simp] theorem Core.writeLocalByte_locks (a : Nat) (b : Byte) : (x.writeLocalByte a b).locks = x.locks :=
  x.freshen_locks (lineOf a)

theorem Core.readLocalByte_writeLocalByte (a : Nat) (b : Byte) (y : Nat) :
    (x.writeLocalByte a b).readLocalByte y = if y = a then b else x.readLocalByte y := by
  have hlive : (x.writeLocalByte a b).live (lineOf y) = (x.freshen (lineOf a)).live (lineOf y) := rfl
  have hbuf : mgetD (x.writeLocalByte a b).buf y 0 = if y = a then b else mgetD (x.freshen (lineOf a)).buf y 0 :=
    mgetD_mput 0 _ a y b
  rw [Core.readLocalByte, hlive, hbuf]
  by_cases hy : y = a
  · rw [if_pos hy, if_pos hy, Core.live_freshen, hy, if_pos rfl, if_pos rfl]
  · rw [if_neg hy, if_neg hy, ← x.readLocalByte_freshen (lineOf a)]
    rfl

@[simp] theorem Core.isFull_writeLocalByte (a : Nat) (b : Byte) (w : Nat) : (x.writeLocalByte a b).isFull w = x.isFull w :=
  x.isFull_freshen (lineOf a) w

@[simp] theorem Core.writeLocal_strands (a : Nat) (bs : List Byte) : (x.writeLocal a bs).strands = x.strands := by
  induction bs generalizing x a with
  | nil => rfl
  | cons b bs ih => rw [Core.writeLocal, ih, Core.writeLocalByte_strands]

@[simp] theorem Core.writeLocal_locks (a : Nat) (bs : List Byte) : (x.writeLocal a bs).locks = x.locks := by
  induction bs generalizing x a with
  | nil => rfl
  | cons b bs ih => rw [Core.writeLocal, ih, Core.writeLocalByte_locks]

@[simp] theorem Core.isFull_writeLocal (a : Nat) (bs : List Byte) (w : Nat) : (x.writeLocal a bs).isFull w = x.isFull w := by
  induction bs generalizing x a with
  | nil => rfl
  | cons b bs ih => rw [Core.writeLocal, ih, Core.isFull_writeLocalByte]

theorem Core.readLocalByte_writeLocal_outside (a : Nat) (bs : List Byte) {y : Nat} (h : y < a ∨ a + bs.length ≤ y) :
    (x.writeLocal a bs).readLocalByte y = x.readLocalByte y := by
  induction bs generalizing x a with
  | nil => rfl
  | cons b bs ih =>
    rw [List.length_cons] at h
    rw [Core.writeLocal, ih _ _ (by omega), Core.readLocalByte_writeLocalByte, if_neg (by omega)]

theorem Core.readLocal_congr {x y : Core} (a n : Nat) (h : ∀ i, i < n → y.readLocalByte (a + i) = x.readLocalByte (a + i)) :
    y.readLocal a n = x.readLocal a n := by
  induction n generalizing a with
  | zero => rfl
  | succ n ih =>
    rw [Core.readLocal, Core.readLocal, ih (a + 1) fun i hi => ?_, show y.readLocalByte a = x.readLocalByte a from h 0 n.succ_pos]
    rw [Nat.add_assoc, Nat.add_comm 1]
    exact h (i + 1) (by omega)

/-- Bytes that have been written are read back. -/
theorem Core.readLocal_writeLocal (a : Nat) (bs : List Byte) : (x.writeLocal a bs).readLocal a bs.length = bs := by
  induction bs generalizing x a with
  | nil => rfl
  | cons b bs ih =>
    rw [Core.writeLocal, List.length_cons, Core.readLocal, ih,
      Core.readLocalByte_writeLocal_outside _ _ _ (by omega : a < a + 1 ∨ _), Core.readLocalByte_writeLocalByte, if_pos rfl]

/-! ### Tags -/

@[simp] theorem Core.setFull_strands (w : Nat) (v : Bool) : (x.setFull w v).strands = x.strands := x.freshen_strands _
@[simp] theorem Core.setFull_locks (w : Nat) (v : Bool) : (x.setFull w v).locks = x.locks := x.freshen_locks _

@[simp] theorem Core.readLocalByte_setFull (w : Nat) (v : Bool) (a : Nat) :
    (x.setFull w v).readLocalByte a = x.readLocalByte a := x.readLocalByte_freshen _ a

theorem Core.isFull_setFull_same (w : Nat) (v : Bool) : (x.setFull w v).isFull w = v := by
  have hlive : (x.setFull w v).live (lineOf (0x38000 + 8 * w)) = true := by
    have h := x.live_freshen (lineOf (0x38000 + 8 * w)) (lineOf (0x38000 + 8 * w))
    rwa [if_pos rfl] at h
  rw [Core.isFull, hlive, Bool.true_and]
  cases v <;> simp [Core.setFull, mhas]

theorem Core.isFull_setFull_other {w u : Nat} (v : Bool) (h : u ≠ w) : (x.setFull w v).isFull u = x.isFull u := by
  rw [← x.isFull_freshen (lineOf (0x38000 + 8 * w))]
  cases v
  · simp [Core.isFull, Core.setFull, mhas, mget_mdel_other _ h, Core.live, Core.bayGeneration]
  · simp [Core.isFull, Core.setFull, mhas, mget_mset_other _ _ h, Core.live, Core.bayGeneration]

end

end Sys2Proof.Machine
end

section
/-!
PROOFS. Full/empty words (O29): an FE access that nothing holds back, to a word at which no strand waits (R213, R237, R238).
-/
set_option Elab.async false

namespace Sys2Proof.Machine

/-! ### The number of some bytes -/

theorem length_leBytes (n v : Nat) : (leBytes n v).length = n := by
  induction n generalizing v with
  | zero => rfl
  | succ n ih => rw [leBytes, List.length_cons, ih]

theorem leNat_leBytes (n v : Nat) : leNat (leBytes n v) = v % 2 ^ (8 * n) := by
  induction n generalizing v with
  | zero => simp [leBytes, leNat, Nat.mod_one]
  | succ n ih =>
    rw [leBytes, leNat, ih, BitVec.toNat_ofNat, Nat.mul_succ, Nat.add_comm (8 * n), Nat.pow_add, Nat.mod_mul]

/-! ### A G word and its tag -/

section
variable (x : Core)

@[simp] theorem Core.feFill_strands (off : Nat) (v : Word) : (x.feFill off v).strands = x.strands := by simp [Core.feFill]
@[simp] theorem Core.feFill_locks (off : Nat) (v : Word) : (x.feFill off v).locks = x.locks := by simp [Core.feFill]

theorem Core.isFull_feFill_same (off : Nat) (v : Word) : (x.feFill off v).isFull (off / 8) = true := Core.isFull_setFull_same ..

theorem Core.isFull_feFill_other {off w : Nat} (v : Word) (h : w ≠ off / 8) : (x.feFill off v).isFull w = x.isFull w := by
  rw [Core.feFill, Core.isFull_setFull_other _ _ h, Core.isFull_writeLocal]

theorem Core.readLocalByte_feFill {off y : Nat} (v : Word) (h : y < 0x38000 + off ∨ 0x38000 + off + 8 ≤ y) :
    (x.feFill off v).readLocalByte y = x.readLocalByte y := by
  rw [Core.feFill, Core.readLocalByte_setFull, Core.readLocalByte_writeLocal_outside _ _ _ (by rwa [length_leBytes])]

/-- A word of G is a matter of the local bytes. -/
theorem Core.feWord_congr {x y : Core} (off : Nat) (h : ∀ a, y.readLocalByte a = x.readLocalByte a) : y.feWord off = x.feWord off := by
  rw [Core.feWord, Core.feWord, Core.readG, Core.readG, Core.readLocal_congr _ _ fun i _ => h _]

theorem Core.feWord_feFill (off : Nat) (v : Word) : (x.feFill off v).feWord off = v := by
  have h := x.readLocal_writeLocal (0x38000 + off) (leBytes 8 v.toNat)
  rw [length_leBytes] at h
  rw [Core.feFill, Core.feWord_congr off fun a => Core.readLocalByte_setFull .., Core.feWord, Core.readG, h, leNat_leBytes,
    Nat.mod_eq_of_lt v.isLt, BitVec.ofNat_toNat, BitVec.setWidth_eq]

end

/-! ### Strands that wait at a word -/

theorem insertBy_ne_nil {α : Type} (k : α → Nat) (a : α) (l : List α) : insertBy k a l ≠ [] := by
  cases l with
  | nil => exact List.cons_ne_nil _ _
  | cons b r =>
    unfold insertBy
    split <;> exact List.cons_ne_nil _ _

theorem sortBy_eq_nil_iff {α : Type} (k : α → Nat) (l : List α) : sortBy k l = [] ↔ l = [] := by
  cases l with
  | nil => exact iff_of_true rfl rfl
  | cons a r => exact iff_of_false (insertBy_ne_nil k a _) (List.cons_ne_nil a r)

/-- Whether a listed strand waits at a G word in one of some ways. -/
def Core.waitsAt (x : Core) (off : Nat) (kinds : List Nat) (e : Nat × Strand) : Bool :=
  e.2.run == .waiting && !x.lockedAgainst (some e.1) (bayOf (0x38000 + off)) &&
    (match e.2.wait with
     | .fe o k _ => o == off && kinds.contains k
     | _ => false)

theorem Core.feWaiters_eq_nil_iff (x : Core) (off : Nat) (kinds : List Nat) :
    x.feWaiters off kinds = [] ↔ x.strands.all (fun e => !x.waitsAt off kinds e) = true := by
  rw [Core.feWaiters, sortBy_eq_nil_iff, List.filter_eq_nil_iff, List.all_eq_true]
  simp only [Bool.not_eq_true, Bool.not_eq_true']
  rfl

theorem Core.waitsAt_of_subset {x : Core} {off : Nat} {ks : List Nat} {e : Nat × Strand} (hks : ks ⊆ [0, 1, 2])
    (h : x.waitsAt off ks e = true) : x.waitsAt off [0, 1, 2] e = true := by
  unfold Core.waitsAt at h ⊢
  simp only [Bool.and_eq_true] at h ⊢
  obtain ⟨hrun, hwait⟩ := h
  refine ⟨hrun, ?_⟩
  split at hwait
  · simp only [Bool.and_eq_true, List.contains_iff_mem] at hwait ⊢
    exact ⟨hwait.1, hks hwait.2⟩
  · cases hwait

/-- No strand waits at a word after a strand that does not wait has taken another one's place. -/
theorem Core.feWaiters_setStrand {x y : Core} {off k : Nat} {t : Strand} (h : x.feWaiters off [0, 1, 2] = [])
    (hstrands : y.strands = mset x.strands k t) (hlocks : y.locks = x.locks) (hrun : t.run ≠ .waiting) {ks : List Nat}
    (hks : ks ⊆ [0, 1, 2]) : y.feWaiters off ks = [] := by
  have hsame : ∀ e, y.waitsAt off ks e = x.waitsAt off ks e := fun e => by
    simp only [Core.waitsAt, Core.lockedAgainst, hlocks]
  rw [Core.feWaiters_eq_nil_iff] at h ⊢
  rw [hstrands]
  refine all_mset _ k t (List.all_eq_true.mpr fun e he => ?_) ?_
  · rw [hsame, Bool.not_eq_true']
    by_contra hw
    have := List.all_eq_true.mp h e he
    rw [Core.waitsAt_of_subset hks (by simpa using hw)] at this
    cases this
  · simp [Core.waitsAt, hrun]

theorem State.feServe_none {s : State} {c off : Nat} (hr : (s.core c).feWaiters off [0, 1] = [])
    (hw : (s.core c).feWaiters off [2] = []) (n : Nat) : s.feServe c off n = s := by
  cases n with
  | zero => rfl
  | succ n => simp [State.feServe, hr, hw]

/-! ### An event that every WFEV of the core sees -/

/-- Every core but for the strands that it lists, and which instruction runs, is as before. -/
def State.sameButStrands (s t : State) : Prop := t.cur = s.cur ∧ ∀ c, ∃ m, t.core c = { s.core c with strands := m }

theorem State.sameButStrands_refl (s : State) : s.sameButStrands s := ⟨rfl, fun c => ⟨(s.core c).strands, rfl⟩⟩

theorem State.sameButStrands.trans {s t u : State} (h : s.sameButStrands t) (h' : t.sameButStrands u) : s.sameButStrands u := by
  refine ⟨h'.1.trans h.1, fun c => ?_⟩
  obtain ⟨m, hm⟩ := h.2 c
  obtain ⟨n, hn⟩ := h'.2 c
  exact ⟨n, by rw [hn, hm]⟩

theorem State.sameButStrands_setStrand (s : State) (p : Place) (t : Strand) : s.sameButStrands (s.setStrand p t) := by
  refine ⟨rfl, fun c => ?_⟩
  by_cases h : c = p.core
  · exact ⟨_, by rw [h, State.core_setStrand_same]; rfl⟩
  · exact ⟨_, State.core_setStrand_other s p t h⟩

@[simp] theorem State.acquireEffect_cores (s : State) (p : Place) (scope : Nat) : (s.acquireEffect p scope).cores = s.cores := by
  unfold State.acquireEffect; split <;> rfl

@[simp] theorem State.acquireEffect_cur (s : State) (p : Place) (scope : Nat) : (s.acquireEffect p scope).cur = s.cur := by
  unfold State.acquireEffect; split <;> rfl

theorem State.core_of_cores {s t : State} (h : t.cores = s.cores) (c : Nat) : t.core c = s.core c := by
  unfold State.core; rw [h]

theorem State.strand_of_cores {s t : State} (h : t.cores = s.cores) (p : Place) : t.strand p = s.strand p := by
  unfold State.strand; rw [State.core_of_cores h]

@[simp] theorem State.core_acquireEffect (s : State) (p : Place) (scope c : Nat) : (s.acquireEffect p scope).core c = s.core c :=
  State.core_of_cores (s.acquireEffect_cores p scope) c

@[simp] theorem State.strand_acquireEffect (s : State) (p q : Place) (scope : Nat) :
    (s.acquireEffect p scope).strand q = s.strand q := State.strand_of_cores (s.acquireEffect_cores p scope) q

/-- An event changes the strand whose WFEV it ends, and no other strand. -/
theorem State.stir_cases (s : State) (p : Place) :
    s.stir p = s ∨ (s.strand p).run = .waiting ∧
      ∃ scope, s.stir p = (s.setStrand p { (s.strand p).finish 0 with wakeToken := false }).acquireEffect p scope := by
  unfold State.stir
  dsimp only
  split
  case h_1 hrun _ => exact .inr ⟨hrun, _, rfl⟩
  case h_2 => exact .inl rfl

theorem State.sameButStrands_stir (s : State) (p : Place) : s.sameButStrands (s.stir p) := by
  rcases s.stir_cases p with h | ⟨-, scope, h⟩ <;> rw [h]
  · exact s.sameButStrands_refl
  · refine (s.sameButStrands_setStrand p _).trans ⟨State.acquireEffect_cur .., fun c => ⟨_, State.core_acquireEffect ..⟩⟩

theorem State.strand_stir_other (s : State) {p q : Place} (h : q ≠ p) : (s.stir p).strand q = s.strand q := by
  rcases s.stir_cases p with h' | ⟨-, scope, h'⟩ <;> rw [h']
  rw [State.strand_acquireEffect, State.strand_setStrand_other _ _ h]

/-- A strand that does not wait sees no event. -/
theorem State.strand_stir_of_running (s : State) (p : Place) {q : Place} (h : (s.strand q).run ≠ .waiting) :
    (s.stir p).strand q = s.strand q := by
  by_cases hq : q = p
  · subst hq
    rcases s.stir_cases q with h' | ⟨hrun, -⟩
    · rw [h']
    · exact absurd hrun h
  · exact s.strand_stir_other hq

theorem State.stirCore_frame (s : State) (c : Nat) : s.sameButStrands (s.stirCore c) ∧
    ∀ q, (s.strand q).run ≠ .waiting → (s.stirCore c).strand q = s.strand q := by
  unfold State.stirCore
  generalize mkeys (s.core c).strands = ks
  induction ks generalizing s with
  | nil => exact ⟨s.sameButStrands_refl, fun _ _ => rfl⟩
  | cons k ks ih =>
    obtain ⟨hframe, hstrands⟩ := ih (s.stir { core := c, strand := k })
    refine ⟨(s.sameButStrands_stir _).trans hframe, fun q hq => ?_⟩
    have hone := s.strand_stir_of_running { core := c, strand := k } hq
    rw [List.foldl_cons, hstrands q (hone ▸ hq), hone]

end Sys2Proof.Machine
end

section
/-!
PROOFS. The full/empty instructions (O29): an access that nothing holds back, at a word where no strand waits, ends at once or waits.
-/
set_option Elab.async false

namespace Sys2Proof.Machine

/-- An aligned G word below the loft that nothing holds back and no strand waits at. -/
def FeFree (s : State) (g : Nat) : Prop :=
  g % 8 = 0 ∧ g + 8 ≤ 0x6000 ∧ (s.core s.cur.place.core).localWait (some s.cur.place.strand) (0x38000 + g) 8 = none ∧
    (s.core s.cur.place.core).localPoisoned (0x38000 + g) 8 = false ∧ (s.core s.cur.place.core).feWaiters g [0, 1, 2] = []

/-- The strand has nothing that a release waits for. -/
def FeClear (s : State) : Prop :=
  (s.core s.cur.place.core).sbOf s.cur.place.strand = false ∧
    ((s.core s.cur.place.core).ni.out.any fun e => e.2.ofStrand s.cur.place.strand) = false

/-- An access to a word ends: the strand has completed, the word reads as a value under a tag, and no other word has changed. -/
def FeEnds (s : State) (g : Nat) (r : Res) (t' : Strand) (v : Word) (full : Bool) : Prop :=
  ∃ t, r = .next t ∧ t.me = t'.complete ∧ (t.core s.cur.place.core).feWord g = v ∧
    (t.core s.cur.place.core).isFull (g / 8) = full ∧
    (∀ w, w ≠ g / 8 → (t.core s.cur.place.core).isFull w = (s.core s.cur.place.core).isFull w) ∧
    ∀ y, (y < 0x38000 + g ∨ 0x38000 + g + 8 ≤ y) →
      (t.core s.cur.place.core).readLocalByte y = (s.core s.cur.place.core).readLocalByte y

/-- An access to a word makes the strand WAITING. -/
def FeWaits (s : State) (g : Nat) (r : Res) (k : Nat) : Prop :=
  ∃ t v, r = .next t ∧ t.me.run = .waiting ∧ t.me.wait = .fe g k v ∧ s.memoryAs t ∧ s.othersAs t s.cur.place

section
variable {s : State} {a : SReg} (hfree : FeFree s (s.me.s a).toNat)
include hfree

/-- Nothing holds the access back: neither its checks, nor a release at scope core, nor its line. -/
theorem feOp_free (hb : s.bound = true) {scope : Nat} (hscope : scope = 0 ∨ scope = 1 ∧ FeClear s)
    (f : State → Place → Strand → Nat → State) :
    feOp s a scope f = .next (f s s.cur.place s.me (s.me.s a).toNat) := by
  obtain ⟨halign, hbound, hwait, -, -⟩ := hfree
  have hcheck : gCheck (s.me.s a) 8 8 = none := by
    rw [gCheck, if_neg (not_not.mpr halign), if_neg (by rw [loftBase]; omega)]
  have hrelease : s.releaseWait s.cur.place scope = none := by
    rcases hscope with rfl | ⟨rfl, hsb, hout⟩
    · rfl
    · simp [State.releaseWait, hsb, hout]
  have heffect : s.releaseEffect s.cur.place scope = s := by
    rcases hscope with rfl | ⟨rfl, -⟩ <;> simp [State.releaseEffect, State.effScope]
  rw [feOp, onStrand_of_bound hb]
  simp only [hcheck, State.release, hrelease, heffect, State.localAccess, hwait]

variable (hrun : s.me.run = .ready)
include hrun

/-- An event at the word finds no waiter there: it leaves the strand that has completed and every local byte and tag as they are. -/
theorem feEnds_of_event {s1 : State} {t' : Strand} {y : Core} {v : Word} {full : Bool} (hcur : s1.cur = s.cur)
    (hcore : s1.core s.cur.place.core = y)
    (hstrands : y.strands = mset (s.core s.cur.place.core).strands s.cur.place.strand t'.complete)
    (hlocks : y.locks = (s.core s.cur.place.core).locks) (ht' : t'.run = s.me.run)
    (hword : y.feWord (s.me.s a).toNat = v) (hfull : y.isFull ((s.me.s a).toNat / 8) = full)
    (hothers : ∀ w, w ≠ (s.me.s a).toNat / 8 → y.isFull w = (s.core s.cur.place.core).isFull w)
    (hbytes : ∀ b, (b < 0x38000 + (s.me.s a).toNat ∨ 0x38000 + (s.me.s a).toNat + 8 ≤ b) →
      y.readLocalByte b = (s.core s.cur.place.core).readLocalByte b) :
    FeEnds s (s.me.s a).toNat (.next (s1.feEvent s.cur.place.core (s.me.s a).toNat)) t' v full := by
  obtain ⟨-, -, -, -, hnone⟩ := hfree
  have hready : t'.complete.run ≠ .waiting := by simp [ht', hrun]
  have hserve : s1.feServe s.cur.place.core (s.me.s a).toNat 9 = s1 :=
    State.feServe_none (hcore ▸ Core.feWaiters_setStrand hnone hstrands hlocks hready (by simp))
      (hcore ▸ Core.feWaiters_setStrand hnone hstrands hlocks hready (by simp)) 9
  have hme : s1.strand s.cur.place = t'.complete := by
    rw [State.strand, hcore, Core.strand, hstrands, mgetD_mset_same]
  obtain ⟨⟨hcur', hcores⟩, hkeeps⟩ := s1.stirCore_frame s.cur.place.core
  obtain ⟨m, hm⟩ := hcores s.cur.place.core
  rw [hcore] at hm
  refine ⟨_, rfl, ?_, ?_⟩
  · rw [State.feEvent, hserve, State.me, hcur', hcur, hkeeps _ (hme ▸ hready), hme]
  · rw [State.feEvent, hserve, hm]
    exact ⟨hword, hfull, hothers, hbytes⟩

variable {s1 : State} {t' : Strand} (hcur : s1.cur = s.cur)
  (hcore : s1.core s.cur.place.core = (s.core s.cur.place.core).setStrand s.cur.place.strand t'.complete) (ht' : t'.run = s.me.run)
include hcur hcore ht'

/-- A word filled, whatever its tag. -/
theorem feEnds_fill (v : Word) : FeEnds s (s.me.s a).toNat
    (.next ((s1.modCore s.cur.place.core fun y => y.feFill (s.me.s a).toNat v).feEvent s.cur.place.core (s.me.s a).toNat))
    t' v true := by
  have hy : (s1.modCore s.cur.place.core fun y => y.feFill (s.me.s a).toNat v).core s.cur.place.core =
      ((s.core s.cur.place.core).setStrand s.cur.place.strand t'.complete).feFill (s.me.s a).toNat v := by
    rw [State.modCore, State.core_setCore_same, hcore]
  refine feEnds_of_event hfree hrun hcur hy (Core.feFill_strands ..) (Core.feFill_locks ..) ht' (Core.feWord_feFill ..)
    (Core.isFull_feFill_same ..) (fun w hw => ?_) fun b hb => ?_
  · exact Core.isFull_feFill_other _ v hw
  · exact Core.readLocalByte_feFill _ v hb

/-- A word emptied: it keeps its bytes. -/
theorem feEnds_empty : FeEnds s (s.me.s a).toNat
    (.next ((s1.modCore s.cur.place.core fun y => y.setFull ((s.me.s a).toNat / 8) false).feEvent s.cur.place.core
      (s.me.s a).toNat)) t' ((s.core s.cur.place.core).feWord (s.me.s a).toNat) false := by
  have hy : (s1.modCore s.cur.place.core fun y => y.setFull ((s.me.s a).toNat / 8) false).core s.cur.place.core =
      ((s.core s.cur.place.core).setStrand s.cur.place.strand t'.complete).setFull ((s.me.s a).toNat / 8) false := by
    rw [State.modCore, State.core_setCore_same, hcore]
  refine feEnds_of_event hfree hrun hcur hy (Core.setFull_strands ..) (Core.setFull_locks ..) ht'
    (Core.feWord_congr _ fun b => Core.readLocalByte_setFull ..) (Core.isFull_setFull_same ..) (fun w hw => ?_) fun b _ => ?_
  · exact Core.isFull_setFull_other _ false hw
  · exact Core.readLocalByte_setFull ..

/-- A word left as it is. -/
theorem feEnds_keep {full : Bool} (hfull : (s.core s.cur.place.core).isFull ((s.me.s a).toNat / 8) = full) :
    FeEnds s (s.me.s a).toNat (.next (s1.feEvent s.cur.place.core (s.me.s a).toNat)) t'
      ((s.core s.cur.place.core).feWord (s.me.s a).toNat) full :=
  feEnds_of_event hfree hrun hcur hcore rfl rfl ht' rfl hfull (fun _ _ => rfl) fun _ _ => rfl

end

/-- The strand waits at the word. -/
theorem feWaits_await (s : State) (g k : Nat) (v : Word) (d : SReg) :
    FeWaits s g (.next (s.setStrand s.cur.place (s.me.await s.now (.fe g k v) d))) k := by
  refine ⟨_, v, rfl, ?_, ?_, s.memoryAs_setStrand _ _, s.othersAs_setStrand _ _⟩ <;> simp

/-! ### The instructions -/

theorem core_complete_acquire (s : State) (t : Strand) : ((s.complete s.cur.place t).acquireEffect s.cur.place 6).core
    s.cur.place.core = (s.core s.cur.place.core).setStrand s.cur.place.strand t.complete := by
  rw [State.core_acquireEffect, State.complete, State.core_setStrand_same]

section
variable {s : State} {d a : SReg} (hb : s.bound = true) (hfree : FeFree s (s.me.s a).toNat)
include hb hfree

/-- A load of a full word. -/
theorem feLoad_full (hrun : s.me.run = .ready) (keep : Bool) (hfull : (s.core s.cur.place.core).isFull ((s.me.s a).toNat / 8) = true) :
    FeEnds s (s.me.s a).toNat (feLoad s d a keep) (s.me.setS d ((s.core s.cur.place.core).feWord (s.me.s a).toNat))
      ((s.core s.cur.place.core).feWord (s.me.s a).toNat) keep := by
  have hsound : (s.core s.cur.place.core).localPoisoned (0x38000 + (s.me.s a).toNat) 8 = false := by
    obtain ⟨-, -, -, h, -⟩ := hfree
    exact h
  rw [feLoad, feOp_free hfree hb (.inl rfl)]
  simp only [hfull, hsound, Bool.not_true, Bool.false_eq_true, if_false]
  have hcore := core_complete_acquire s (s.me.setS d ((s.core s.cur.place.core).feWord (s.me.s a).toNat))
  have hcur := (s.complete s.cur.place (s.me.setS d ((s.core s.cur.place.core).feWord (s.me.s a).toNat))).acquireEffect_cur
    s.cur.place 6
  cases keep with
  | false => exact feEnds_empty hfree hrun hcur hcore (Strand.setS_run ..)
  | true =>
    rw [if_pos rfl]
    exact feEnds_keep hfree hrun hcur hcore (Strand.setS_run ..) hfull

/-- A load of an empty word. -/
theorem feLoad_empty (keep : Bool) (hempty : (s.core s.cur.place.core).isFull ((s.me.s a).toNat / 8) = false) :
    FeWaits s (s.me.s a).toNat (feLoad s d a keep) keep.toNat := by
  rw [feLoad, feOp_free hfree hb (.inl rfl)]
  simp only [hempty, Bool.not_false, if_true]
  exact feWaits_await ..

theorem exec_stfull_full (hclear : FeClear s) (hfull : (s.core s.cur.place.core).isFull ((s.me.s a).toNat / 8) = true) :
    FeWaits s (s.me.s a).toNat (exec (.stfull d a) s) 2 := by
  have hexec : exec (.stfull d a) s = execStfull d a s := rfl
  rw [hexec, execStfull, feOp_free hfree hb (.inr ⟨rfl, hclear⟩), if_pos hfull]
  exact feWaits_await ..

variable (hrun : s.me.run = .ready)
include hrun

theorem exec_stfull_empty (hclear : FeClear s) (hempty : (s.core s.cur.place.core).isFull ((s.me.s a).toNat / 8) = false) :
    FeEnds s (s.me.s a).toNat (exec (.stfull d a) s) s.me (s.me.s d) true := by
  have hexec : exec (.stfull d a) s = execStfull d a s := rfl
  rw [hexec, execStfull, feOp_free hfree hb (.inr ⟨rfl, hclear⟩), if_neg (by simp [hempty])]
  exact feEnds_fill (s1 := s.complete s.cur.place s.me) hfree hrun rfl (State.core_setStrand_same ..) rfl _

theorem exec_stfill_free (hclear : FeClear s) : FeEnds s (s.me.s a).toNat (exec (.stfill d a) s) s.me (s.me.s d) true := by
  have hexec : exec (.stfill d a) s = execStfill d a s := rfl
  rw [hexec, execStfill, feOp_free hfree hb (.inr ⟨rfl, hclear⟩)]
  exact feEnds_fill (s1 := s.complete s.cur.place s.me) hfree hrun rfl (State.core_setStrand_same ..) rfl _

theorem exec_feclr_free :
    FeEnds s (s.me.s a).toNat (exec (.feclr a) s) s.me ((s.core s.cur.place.core).feWord (s.me.s a).toNat) false := by
  have hexec : exec (.feclr a) s = execFeclr a s := rfl
  rw [hexec, execFeclr, feOp_free hfree hb (.inl rfl)]
  exact feEnds_empty (s1 := s.complete s.cur.place s.me) hfree hrun rfl (State.core_setStrand_same ..) rfl

end

/-- Settles O29. -/
theorem fullEmptyResults : Obligations.FullEmptyResults := by
  intro s d a hb hrun p x g free clear ends waits
  exact ⟨fun hfree hfull => ⟨feLoad_full hb hfree hrun false hfull, feLoad_full hb hfree hrun true hfull,
      fun hclear => exec_stfull_full hb hfree hclear hfull⟩,
    fun hfree hempty => ⟨feLoad_empty hb hfree false hempty, feLoad_empty hb hfree true hempty,
      fun hclear => exec_stfull_empty hb hfree hrun hclear hempty⟩,
    fun hfree hclear => exec_stfill_free hb hfree hrun hclear, fun hfree => exec_feclr_free hb hfree hrun⟩

end Sys2Proof.Machine
end

section
/-!
PROOFS. Steps that end a wait (O52), the strand's own: resources, timers, user interrupts, limits and CPYCAN, and the frame of a send,
which changes no strand.
-/
set_option Elab.async false

namespace Sys2Proof.Machine

/-! ### What a send leaves of the strands -/

theorem State.strand_modCore {s : State} {c : Nat} {f : Core → Core} (hf : ∀ x, (f x).strands = x.strands) (q : Place) :
    (s.modCore c f).strand q = s.strand q := by
  unfold State.strand State.modCore
  by_cases h : q.core = c
  · rw [h, State.core_setCore_same, Core.strand, hf, Core.strand]
  · rw [State.core_setCore_other _ _ h]

@[simp] theorem State.strand_modOut (s : State) (c num : Nat) (f : Outstanding → Outstanding) (q : Place) :
    (s.modOut c num f).strand q = s.strand q := State.strand_modCore (by intro x; rfl) q

@[simp] theorem State.strand_cacheKey (s : State) (c ctx : Nat) (q : Place) : (s.cacheKey c ctx).strand q = s.strand q := by
  unfold State.cacheKey
  split
  · rfl
  · exact State.strand_modCore (by intro x; rfl) q

theorem State.raiseAlarm_cores (s : State) (level trigger : Nat) (named : List Nat) :
    (s.raiseAlarm level trigger named).cores = s.cores := by
  unfold State.raiseAlarm
  dsimp only
  split
  · rfl
  · split <;> rfl

theorem State.strand_of_takeNonce {s s1 : State} {c : Nat} {n : Option Nat} (h : s.takeNonce c = (s1, n)) (q : Place) :
    s1.strand q = s.strand q := by
  unfold State.takeNonce at h
  dsimp only at h
  split at h
  · cases h; rfl
  · split at h
    · cases h; exact State.strand_of_cores (s.raiseAlarm_cores ..) q
    · cases h; exact State.strand_modCore (by intro x; rfl) q

@[simp] theorem State.strand_inject (s : State) (k : Packet) (i : Instr) (q : Place) : (s.inject k i).strand q = s.strand q := rfl

@[simp] theorem State.strand_after (s : State) (n : Nat) (i : Instr) (g : Given) (q : Place) :
    (s.after n i g).strand q = s.strand q := rfl

theorem State.strand_ite (c : Prop) [Decidable c] (s t : State) (q : Place) :
    (if c then s else t).strand q = if c then s.strand q else t.strand q := by split <;> rfl

@[simp] theorem State.strand_transmit (s : State) (c num : Nat) (q : Place) : (s.transmit c num).strand q = s.strand q := by
  simp only [State.transmit]
  rcases h : s.takeNonce c with ⟨s1, _ | n⟩
  all_goals
    split
    · rfl
    · simp [State.strand_ite, State.strand_of_takeNonce h]

@[simp] theorem State.strand_sendNumbered (s : State) (p : Place) (op num : Nat) (r : SendReq) (q : Place) :
    (s.sendNumbered p op num r).strand q = s.strand q := by
  unfold State.sendNumbered
  dsimp only
  split
  · exact State.strand_modCore (by intro x; rfl) q
  · rw [State.strand_transmit]
    exact State.strand_modCore (by intro x; rfl) q

@[simp] theorem State.strand_sendGroup (s : State) (p : Place) (t : Strand) (k : Nat) (kind : PKind) (waiting : Bool) (q : Place) :
    (s.sendGroup p t k kind waiting).strand q = s.strand q := s.strand_sendNumbered ..

/-! ### A wait that is satisfied -/

theorem Strand.complete_pc_finish (t : Strand) (v : Word) : (t.finish v).pc = t.complete.pc :=
  Strand.complete_pc_of_nest (by simp [Strand.suspended]) (by simp) (by simp)

theorem Claims.finished_of_finish {s t : State} {p : Place} {v : Word} (h : t.strand p = (s.strand p).finish v) :
    Claims.finished s t p v := by
  obtain ⟨hrun, hs, hreg⟩ := (s.strand p).finish_registers v
  unfold Claims.finished
  rw [h]
  exact ⟨hrun, (s.strand p).complete_pc_finish v, hs, hreg, by simp [Strand.finish], by simp [Strand.finish]⟩

/-- The end of a wait that also clears the wake token. -/
theorem Claims.finished_of_finish_token {s t : State} {p : Place} {v : Word}
    (h : t.strand p = { (s.strand p).finish v with wakeToken := false }) : Claims.finished s t p v := by
  obtain ⟨hrun, hs, hreg⟩ := (s.strand p).finish_registers v
  unfold Claims.finished
  rw [h]
  exact ⟨hrun, (s.strand p).complete_pc_finish v, hs, hreg, by simp [Strand.finish], by simp [Strand.finish]⟩

theorem Claims.woken_setStrand_wake (s : State) (p : Place) : Claims.woken s (s.setStrand p (s.strand p).wake) p := by
  unfold Claims.woken
  rw [State.strand_setStrand_same]
  exact ⟨rfl, rfl, rfl, rfl⟩

theorem Claims.trapped_of_enterTrap {s t : State} {p : Place} {cause : Nat} {tval epc : Word} {member : Nat}
    (h : t.strand p = (s.strand p).enterTrap cause tval epc member) : Claims.trapped s t p cause tval := by
  unfold Claims.trapped
  rw [h]
  exact ⟨rfl, rfl, rfl, rfl, rfl, rfl, rfl, rfl⟩

/-- A trap of a strand to which it is delivered (R74, R75). -/
theorem Claims.trapped_raise {s t : State} {p : Place} (hsame : t.strand p = s.strand p) (hd : Claims.delivered s p) (cause : Nat)
    (tval : Word) : Claims.trapped s (t.raise p cause tval) p cause tval := by
  obtain ⟨hpriv, htvec, hending⟩ := hd
  rw [← hsame] at hpriv htvec hending
  refine Claims.trapped_of_enterTrap (epc := t.trapPc p (t.strand p)) (member := t.trapMember p) ?_
  rw [State.raise_delivered _ _ _ hending hpriv htvec, State.strand_setStrand_same, hsame]

theorem Strand.waiting_of_interruptible {t : Strand} (h : t.interruptible = true) : t.run = .waiting := by
  simp only [Strand.interruptible, Bool.and_eq_true, beq_iff_eq] at h
  obtain ⟨⟨hrun, -⟩, -⟩ := h
  exact hrun

/-! ### Steps for a strand -/

section
variable {s : State} {p : Place} (hp : s.given = .place p)
include hp

theorem onPlace_of_given (f : Place → Strand → State) : onPlace s f = .next (f p (s.strand p)) := by
  simp only [onPlace, hp]

theorem exec_loftMovesComplete (hrun : (s.strand p).run = .stalled) (hlack : (s.strand p).lack = .loft) :
    exec .loftMovesComplete s = .next (s.setStrand p (s.strand p).wake) := by
  have hexec : exec .loftMovesComplete s = execLoftMovesComplete s := rfl
  rw [hexec, execLoftMovesComplete, onPlace_of_given hp, if_pos ⟨hrun, hlack⟩]

theorem exec_resourceAvailable (hrun : (s.strand p).run = .stalled) (hwait : (s.strand p).wait = .none)
    (hmet : s.lackMet p (s.strand p).lack = true) : exec .resourceAvailable s = .next (s.setStrand p
      (if (s.strand p).lack = .matrixUnit then { s.strand p with run := .ready } else (s.strand p).wake)) := by
  have hexec : exec .resourceAvailable s = execResourceAvailable s := rfl
  rw [hexec, execResourceAvailable, onPlace_of_given hp]
  simp [hrun, hwait, hmet]

theorem exec_yieldExpiry (hrun : (s.strand p).run = .waiting) (hwait : (s.strand p).wait = .yield)
    (hend : (s.strand p).yieldEnd ≤ s.now) : exec .yieldExpiry s = .next (s.setStrand p ((s.strand p).finish 0)) := by
  have hexec : exec .yieldExpiry s = execYieldExpiry s := rfl
  rw [hexec, execYieldExpiry, onPlace_of_given hp, if_pos ⟨hrun, hwait, hend⟩]

theorem exec_userInterruptEntry_ready (hrun : (s.strand p).run = .ready) (hdue : (s.strand p).interruptDue = true) :
    exec .userInterruptEntry s = .next (s.setStrand p (s.strand p).enterUi) := by
  have hexec : exec .userInterruptEntry s = execUserInterruptEntry s := rfl
  rw [hexec, execUserInterruptEntry, onPlace_of_given hp, if_pos ⟨hrun, hdue⟩]

theorem exec_userInterruptEntry_sleep (h : (s.strand p).interruptible = true) :
    exec .userInterruptEntry s = .next (s.setStrand p (s.strand p).endSleep.enterUi) := by
  have hexec : exec .userInterruptEntry s = execUserInterruptEntry s := rfl
  rw [hexec, execUserInterruptEntry, onPlace_of_given hp, if_neg (by simp [Strand.waiting_of_interruptible h]), if_pos h]

theorem exec_timecmpMatch : exec .timecmpMatch s = .next (s.setUip p uipTimer) := by
  have hexec : exec .timecmpMatch s = execTimecmpMatch s := rfl
  rw [hexec, execTimecmpMatch, onPlace_of_given hp]

theorem exec_cpycanComplete {mask : Nat} (hrun : (s.strand p).run = .stalled) (hwait : (s.strand p).wait = .cancel mask)
    (hdone : ∀ i q, i < 4 → mask.testBit i = true → mget (s.core p.core).copies i = some q →
      q.active = false ∨ p.strand ∉ q.cancelBy) :
    exec .cpycanComplete s = .next (s.setStrand p ((s.strand p).finish (BitVec.ofNat 64 mask))) := by
  have hexec : exec .cpycanComplete s = execCpycanComplete s := rfl
  have hbit : ∀ i, bit mask i = mask.testBit i := fun i => by simp [bit, Nat.testBit_eq_decide_div_mod_eq, BEq.beq]
  rw [hexec, execCpycanComplete, onPlace_of_given hp]
  simp only [hrun, hwait]
  refine congrArg _ (if_neg ?_)
  simp only [List.any_eq_true, List.mem_range, Bool.and_eq_true, hbit, beq_iff_eq, Option.map_eq_some_iff,
    List.contains_iff_mem, not_exists, not_and]
  intro i hi hm q hq hactive
  rcases hdone i q hi hm hq with h | h
  · rw [h] at hactive; exact absurd hactive Bool.false_ne_true
  · exact h

end

end Sys2Proof.Machine
end

section
/-!
PROOFS. Steps that end a wait (O52): interrupt bits and entry, and the limits of waits (R42, R72, R73, R386).
-/
set_option Elab.async false

namespace Sys2Proof.Machine

/-! ### Interrupts -/

theorem State.othersAs_stir (s : State) (p : Place) : s.othersAs (s.stir p) p := fun _ h => s.strand_stir_other h

theorem State.trap_stir (s : State) (p : Place) : ((s.stir p).strand p).trap = (s.strand p).trap := by
  rcases s.stir_cases p with h | ⟨-, scope, h⟩ <;> rw [h]
  rw [State.strand_acquireEffect, State.strand_setStrand_same]
  simp [Strand.finish]

/-- A bit of UIP that the device sets in a bound strand (R71). -/
theorem State.setUip_bound {s : State} {p : Place} (h : (s.strand p).run ≠ .unbound) (b : BitVec 7) :
    ((s.setUip p b).strand p).trap.uip = (s.strand p).trap.uip ||| b ∧ s.othersAs (s.setUip p b) p := by
  unfold State.setUip
  dsimp only
  rw [if_neg h]
  refine ⟨?_, (s.othersAs_setStrand p _).trans (State.othersAs_stir _ p)⟩
  rw [State.trap_stir, State.strand_setStrand_same]

theorem Strand.s_of_names {t u : Strand} (hs : t.scalars = u.scalars) (hn : t.shadow = u.shadow) (r : SReg) : t.s r = u.s r := by
  unfold Strand.s; rw [hs, hn]

/-- What entry to the user handler leaves in the strand (R73). -/
theorem Strand.enterUi_registers (t : Strand) : t.enterUi.pc = t.trap.uivec ∧ t.enterUi.inUi = true ∧ t.enterUi.shadow = true ∧
    t.enterUi.trap.uieOn = false ∧ t.enterUi.s 31 = t.pc ∧ t.enterUi.s 30 = t.causes.setWidth 64 ∧ t.enterUi.run = .ready := by
  let u : Strand := { t.wake with inUi := true, shadow := true, suspUi := !t.loops.isEmpty, stepped := false, walked := none }
  have hs : ∀ r, t.enterUi.s r = ((u.setS 31 t.pc).setS 30 (t.causes.setWidth 64)).s r := Strand.s_of_names rfl rfl
  refine ⟨rfl, rfl, rfl, rfl, ?_, ?_, rfl⟩
  · rw [hs, Strand.s_setS_other _ _ (by decide), Strand.s_setS_same _ _ (by decide)]
  · rw [hs, Strand.s_setS_same _ _ (by decide)]

theorem Strand.endSleep_of_sleep {t : Strand} (hrun : t.run = .waiting) (hwait : t.wait = .sleep) :
    t.endSleep = { t.finish 0 with wakeToken := false } := if_pos ⟨hrun, hwait⟩

/-! ### Limits -/

theorem State.stir_wfev {s : State} {p : Place} {scope : Nat} (hrun : (s.strand p).run = .waiting)
    (hwait : (s.strand p).wait = .wfev scope) :
    s.stir p = (s.setStrand p { (s.strand p).finish 0 with wakeToken := false }).acquireEffect p scope := by
  simp only [State.stir, hrun, hwait]

theorem State.strand_leaveRendezvous (s : State) (p q : Place) : (s.leaveRendezvous p).strand q = s.strand q := by
  unfold State.leaveRendezvous
  split
  · rfl
  · split <;> rfl

section
variable {s : State} {p : Place} (hp : s.given = .place p) (hrun : (s.strand p).run = .waiting)
include hp hrun

theorem exec_fewaitLimit_fe {off k : Nat} {v : Word} (hwait : (s.strand p).wait = .fe off k v) :
    exec .fewaitLimit s = .next (s.raise p causeFeWait (BitVec.ofNat 64 off)) := by
  have hexec : exec .fewaitLimit s = execFewaitLimit s := rfl
  rw [hexec, execFewaitLimit, onPlace_of_given hp, if_neg (not_not.mpr hrun)]
  simp only [hwait]

theorem exec_fewaitLimit_ring {g : Nat} {filled : Bool} {n : Nat} (hwait : (s.strand p).wait = .ring g filled n) :
    exec .fewaitLimit s = .next (s.setStrand p ((s.strand p).finish
      (BitVec.ofNat 64 (((s.core p.core).ring g).waitCount filled)))) := by
  have hexec : exec .fewaitLimit s = execFewaitLimit s := rfl
  rw [hexec, execFewaitLimit, onPlace_of_given hp, if_neg (not_not.mpr hrun)]
  simp only [hwait]

theorem exec_fewaitLimit_copy {mask : Nat} (hwait : (s.strand p).wait = .copy mask) :
    exec .fewaitLimit s = .next ((s.acquireDone p mask).setStrand p ((s.strand p).finish
      (BitVec.ofNat 64 ((s.core p.core).doneMask mask)))) := by
  have hexec : exec .fewaitLimit s = execFewaitLimit s := rfl
  rw [hexec, execFewaitLimit, onPlace_of_given hp, if_neg (not_not.mpr hrun)]
  simp only [hwait]

/-- The waits that end with the result 0. -/
theorem fewaitLimit_zero (hwait : (s.strand p).wait = .take ∨ (s.strand p).wait = .sleep ∨ (∃ g, (s.strand p).wait = .recv g) ∨
    ∃ c, (s.strand p).wait = .wfev c) : ∃ t, exec .fewaitLimit s = .next t ∧ Claims.finished s t p 0 := by
  have hexec : exec .fewaitLimit s = execFewaitLimit s := rfl
  rw [hexec, execFewaitLimit, onPlace_of_given hp, if_neg (not_not.mpr hrun)]
  rcases hwait with h | h | ⟨g, h⟩ | ⟨c, h⟩ <;> simp only [h]
  · exact ⟨_, rfl, Claims.finished_of_finish (State.strand_setStrand_same ..)⟩
  · rw [Strand.endSleep_of_sleep hrun h]
    exact ⟨_, rfl, Claims.finished_of_finish_token (State.strand_setStrand_same ..)⟩
  · exact ⟨_, rfl, Claims.finished_of_finish (State.strand_setStrand_same ..)⟩
  · rw [State.stir_wfev hrun h]
    exact ⟨_, rfl, Claims.finished_of_finish_token (by rw [State.strand_acquireEffect, State.strand_setStrand_same])⟩

variable (hlimited : (s.strand p).limited = false)
include hlimited

theorem exec_barwaitLimit_barrier {g k : Nat} {v : BitVec 32} (hwait : (s.strand p).wait = .barrier g k v) :
    exec .barwaitLimit s = .next ((s.setStrand p { s.strand p with limited := true }).sendGroup p
      { s.strand p with limited := true } ((({ s.strand p with limited := true } : Strand).slotOf g).getD 0)
      (.withdraw g p (k == 1)) true) := by
  have hexec : exec .barwaitLimit s = execBarwaitLimit s := rfl
  rw [hexec, execBarwaitLimit, onPlace_of_given hp, if_neg (by simp [hrun, hlimited])]
  simp only [hwait]
  rfl

theorem exec_barwaitLimit_recoat (hwait : (s.strand p).wait = .recoat) (hr : s.recoating p.core = false) :
    exec .barwaitLimit s = .next ((s.leaveRendezvous p).raise p causeBarWait 0x100) := by
  have hexec : exec .barwaitLimit s = execBarwaitLimit s := rfl
  rw [hexec, execBarwaitLimit, onPlace_of_given hp, if_neg (by simp [hrun, hlimited])]
  simp only [hwait, hr]
  rfl

end

/-! ### The strand's own steps -/

theorem Claims.woken_resource (s : State) (p : Place) : Claims.woken s (s.setStrand p
    (if (s.strand p).lack = .matrixUnit then { s.strand p with run := .ready } else (s.strand p).wake)) p := by
  split
  · unfold Claims.woken
    rw [State.strand_setStrand_same]
    exact ⟨rfl, rfl, rfl, rfl⟩
  · exact Claims.woken_setStrand_wake s p

/-- The clauses about the limit of a wait. -/
theorem limitsEnd {s : State} {p : Place} (hp : s.given = .place p) (hrun : (s.strand p).run = .waiting) :
    (∀ off k v, (s.strand p).wait = .fe off k v → Claims.delivered s p → ∃ t, exec .fewaitLimit s = .next t ∧
      Claims.trapped s t p causeFeWait (BitVec.ofNat 64 off)) ∧
    (∀ g filled n, (s.strand p).wait = .ring g filled n → ∃ t, exec .fewaitLimit s = .next t ∧ Claims.finished s t p
      (BitVec.ofNat 64 (((s.core p.core).ring g).waitCount filled))) ∧
    (∀ mask, (s.strand p).wait = .copy mask → ∃ t, exec .fewaitLimit s = .next t ∧ Claims.finished s t p
      (BitVec.ofNat 64 ((s.core p.core).doneMask mask))) ∧
    ((s.strand p).wait = .take ∨ (s.strand p).wait = .sleep ∨ (∃ g, (s.strand p).wait = .recv g) ∨
        (∃ c, (s.strand p).wait = .wfev c) → ∃ t, exec .fewaitLimit s = .next t ∧ Claims.finished s t p 0) ∧
    (∀ g k v, (s.strand p).wait = .barrier g k v → (s.strand p).limited = false → ∃ t, exec .barwaitLimit s = .next t ∧
      (t.strand p).limited = true ∧ (t.strand p).run = .waiting ∧ (t.strand p).wait = (s.strand p).wait) ∧
    ((s.strand p).wait = .recoat → (s.strand p).limited = false → s.recoating p.core = false → Claims.delivered s p →
      ∃ t, exec .barwaitLimit s = .next t ∧ Claims.trapped s t p causeBarWait 0x100) := by
  refine ⟨fun off k v h hd => ⟨_, exec_fewaitLimit_fe hp hrun h, Claims.trapped_raise rfl hd _ _⟩,
    fun g filled n h => ⟨_, exec_fewaitLimit_ring hp hrun h, Claims.finished_of_finish (State.strand_setStrand_same ..)⟩,
    fun mask h => ⟨_, exec_fewaitLimit_copy hp hrun h, Claims.finished_of_finish (State.strand_setStrand_same ..)⟩,
    fewaitLimit_zero hp hrun, fun g k v h hl => ⟨_, exec_barwaitLimit_barrier hp hrun hl h, ?_⟩,
    fun h hl hr hd => ⟨_, exec_barwaitLimit_recoat hp hrun hl h hr, Claims.trapped_raise (s.strand_leaveRendezvous p p) hd _ _⟩⟩
  rw [State.strand_sendGroup, State.strand_setStrand_same]
  exact ⟨rfl, hrun, rfl⟩

/-- The clauses of O52 about a step for a strand, but the limits. -/
theorem strandWaitsEnd {s : State} {p : Place} (hp : s.given = .place p) :
    ((s.strand p).run = .stalled → (s.strand p).lack = .loft → ∃ t, exec .loftMovesComplete s = .next t ∧
      Claims.woken s t p ∧ s.othersAs t p) ∧
    ((s.strand p).run = .stalled → (s.strand p).wait = .none → s.lackMet p (s.strand p).lack = true →
      ∃ t, exec .resourceAvailable s = .next t ∧ Claims.woken s t p ∧ s.othersAs t p) ∧
    ((s.strand p).run ≠ .unbound → ∃ t, exec .timecmpMatch s = .next t ∧
      (t.strand p).trap.uip = (s.strand p).trap.uip ||| 1 ∧ s.othersAs t p) ∧
    ((s.strand p).run = .waiting → (s.strand p).wait = .yield → (s.strand p).yieldEnd ≤ s.now →
      ∃ t, exec .yieldExpiry s = .next t ∧ Claims.finished s t p 0 ∧ s.othersAs t p) := by
  refine ⟨fun hrun hlack => ⟨_, exec_loftMovesComplete hp hrun hlack, Claims.woken_setStrand_wake s p, s.othersAs_setStrand _ _⟩,
    fun hrun hwait hmet => ⟨_, exec_resourceAvailable hp hrun hwait hmet, Claims.woken_resource s p, s.othersAs_setStrand _ _⟩,
    fun hrun => ⟨_, exec_timecmpMatch hp, State.setUip_bound hrun uipTimer⟩,
    fun hrun hwait hend => ⟨_, exec_yieldExpiry hp hrun hwait hend,
      Claims.finished_of_finish (State.strand_setStrand_same ..), s.othersAs_setStrand _ _⟩⟩

/-- The clauses of O52 about entry to the user handler. -/
theorem userInterruptsEnter {s : State} {p : Place} (hp : s.given = .place p) :
    ((s.strand p).run = .ready → (s.strand p).interruptDue = true → ∃ t, exec .userInterruptEntry s = .next t ∧
      (t.strand p).pc = (s.strand p).trap.uivec ∧ (t.strand p).inUi = true ∧ (t.strand p).shadow = true ∧
      (t.strand p).trap.uieOn = false ∧ (t.strand p).s 31 = (s.strand p).pc ∧
      (t.strand p).s 30 = (s.strand p).causes.setWidth 64 ∧ (t.strand p).run = .ready ∧ s.othersAs t p) ∧
    ((s.strand p).interruptible = true → (s.strand p).wait = .sleep → ∃ t, exec .userInterruptEntry s = .next t ∧
      (t.strand p).pc = (s.strand p).trap.uivec ∧ (t.strand p).s 31 = (s.strand p).complete.pc ∧
      (t.strand p).run = .ready ∧ s.othersAs t p) := by
  refine ⟨fun hrun hdue => ⟨_, exec_userInterruptEntry_ready hp hrun hdue, ?_⟩,
    fun hint hwait => ⟨_, exec_userInterruptEntry_sleep hp hint, ?_⟩⟩
  · obtain ⟨hpc, hin, hshadow, hoff, hret, hcauses, hready⟩ := (s.strand p).enterUi_registers
    rw [State.strand_setStrand_same]
    exact ⟨hpc, hin, hshadow, hoff, hret, hcauses, hready, s.othersAs_setStrand _ _⟩
  · obtain ⟨hpc, -, -, -, hret, -, hready⟩ := (s.strand p).endSleep.enterUi_registers
    have hsleep := Strand.endSleep_of_sleep (Strand.waiting_of_interruptible hint) hwait
    rw [State.strand_setStrand_same]
    refine ⟨hpc.trans ?_, hret.trans ?_, hready, s.othersAs_setStrand _ _⟩
    · rw [hsleep]
      simp [Strand.finish]
    · rw [hsleep]
      exact Strand.complete_pc_finish ..

end Sys2Proof.Machine
end

section
/-!
PROOFS. Steps that end the waits of a core's strands (O52): line fills, the core barrier and the end of a matrix operation, whose events
all land at its last clk (R118, R62, R188).
-/
set_option Elab.async false

namespace Sys2Proof.Machine

/-! ### Maps -/

theorem mget_mmap {β : Type} (f : Nat → β → β) (m : SMap β) (k : Nat) : mget (mmap f m) k = (mget m k).map (f k) := by
  induction m with
  | nil => rfl
  | cons e r ih =>
    obtain ⟨a, v⟩ := e
    by_cases h : a = k
    · subst h
      simp [mmap, mget]
    · have htail : mget (mmap f ((a, v) :: r)) k = mget (mmap f r) k := by simp [mmap, mget, h]
      rw [htail, ih, mget, if_neg h]

/-! ### A line fill -/

/-- The core whose strands that lack a line are READY again. -/
def Core.wakeLine (x : Core) (n : Nat) : Core :=
  { x with strands := mmap (fun _ t => if t.run = .stalled ∧ t.lack = .line n then t.wake else t) x.strands }

theorem Core.strand_wakeLine {x : Core} {n q : Nat} (hrun : (x.strand q).run = .stalled) (hlack : (x.strand q).lack = .line n) :
    (x.wakeLine n).strand q = (x.strand q).wake := by
  unfold Core.wakeLine
  cases h : mget x.strands q with
  | none =>
    have hreset : x.strand q = .reset := by rw [Core.strand, mgetD, h]; rfl
    rw [hreset] at hrun
    cases hrun
  | some t =>
    have ht : x.strand q = t := by rw [Core.strand, mgetD, h]; rfl
    rw [ht] at hrun hlack ⊢
    rw [Core.strand, mgetD, mget_mmap, h, Option.map_some, Option.getD_some, if_pos ⟨hrun, hlack⟩]

theorem exec_loadMissFill {s : State} {c k n : Nat} (hgiven : s.given = .line c k n) (hopen : s.memoryOpen c (64 * n) = true) :
    exec .loadMissFill s = .next ((({ s with draws := s.draws + 1 } : State).modCore c fun x =>
      x.fillLine n (Config.dcacheVictim s.draws)).modCore c fun x => x.wakeLine n) := by
  have hexec : exec .loadMissFill s = execLoadMissFill s := rfl
  rw [hexec, execLoadMissFill, hgiven]
  simp only [hopen, Bool.not_true, Bool.false_eq_true, if_false]
  rfl

theorem loadMissFillReadies {s : State} {c k n : Nat} (hgiven : s.given = .line c k n)
    (hopen : s.memoryOpen c (64 * n) = true) : ∃ t, exec .loadMissFill s = .next t ∧ mhas (t.core c).dcache n = true ∧
      ∀ q, ((s.core c).strand q).run = .stalled → ((s.core c).strand q).lack = .line n →
        ((t.core c).strand q).run = .ready ∧ ((t.core c).strand q).pc = ((s.core c).strand q).pc := by
  refine ⟨_, exec_loadMissFill hgiven hopen, ?_, fun q hrun hlack => ?_⟩
  · simp [State.modCore, Core.wakeLine, Core.fillLine, mhas]
  · rw [State.modCore, State.core_setCore_same, State.modCore, State.core_setCore_same]
    have h : (((s.core c).fillLine n (Config.dcacheVictim s.draws)).wakeLine n).strand q = ((s.core c).strand q).wake :=
      Core.strand_wakeLine hrun hlack
    exact ⟨(congrArg Strand.run h).trans (Strand.wake_run _), (congrArg Strand.pc h).trans (Strand.wake_pc _)⟩

/-! ### The core barrier -/

section
variable {s : State} {c : Nat} (hc : s.given = .core c)
include hc

theorem onCore_of_given (f : Nat → Core → State) : onCore s f = .next (f c (s.core c)) := by
  simp only [onCore, hc]

theorem coreBarrierResumes {k : Nat} {u : Strand} (hmet : (s.core c).barrierMet = true)
    (hfirst : (s.core c).strands.find? (fun e => e.2.run != .unbound) = some (k, u)) :
    ∃ t, exec .coreBarrierQuiescent s = .next t ∧ (t.core c).quiescent = true ∧
      ((t.core c).strand k).run = .ready ∧ ((t.core c).strand k).pc = u.complete.pc := by
  have hexec : exec .coreBarrierQuiescent s = execCoreBarrierQuiescent s := rfl
  have hstep : exec .coreBarrierQuiescent s =
      .next (s.modCore c fun y => { (y.setStrand k (u.finish 0)) with quiescent := true }) := by
    rw [hexec, execCoreBarrierQuiescent, onCore_of_given hc, hmet]
    simp only [hfirst]
    rfl
  refine ⟨_, hstep, ?_⟩
  rw [State.modCore, State.core_setCore_same]
  have h : ({ (s.core c).setStrand k (u.finish 0) with quiescent := true } : Core).strand k = u.finish 0 :=
    (s.core c).strand_setStrand_same k (u.finish 0)
  obtain ⟨hrun, -, -⟩ := u.finish_registers 0
  exact ⟨rfl, (congrArg Strand.run h).trans hrun, (congrArg Strand.pc h).trans (u.complete_pc_finish 0)⟩

end

end Sys2Proof.Machine
end

section
/-!
PROOFS. The end of a matrix operation (O52): its events land in their order whatever else the matrix unit holds, and at its last clk,
when none waits, all of them have landed (R176, R185, R188).
-/
set_option Elab.async false

namespace Sys2Proof.Machine

/-! ### Writing local bytes changes nothing else of a core -/

/-- A core is another one but for local bytes: what the buffers, the poisoned bytes, the tags and the lines' generations hold. -/
def Core.sameButBytes (x y : Core) : Prop :=
  ∃ b d f g, y = { x with buf := b, bad := d, full := f, lineGen := g }

theorem Core.sameButBytes_refl (x : Core) : x.sameButBytes x := ⟨x.buf, x.bad, x.full, x.lineGen, rfl⟩

theorem Core.sameButBytes.trans {x y z : Core} (h : x.sameButBytes y) (h' : y.sameButBytes z) : x.sameButBytes z := by
  obtain ⟨b, d, f, g, rfl⟩ := h
  obtain ⟨b', d', f', g', rfl⟩ := h'
  exact ⟨b', d', f', g', rfl⟩

theorem Core.sameButBytes_freshen (x : Core) (l : Nat) : x.sameButBytes (x.freshen l) := by
  unfold Core.freshen
  split
  · exact x.sameButBytes_refl
  · exact ⟨_, _, _, _, rfl⟩

theorem Core.sameButBytes_writeLocalByte (x : Core) (a : Nat) (b : Byte) : x.sameButBytes (x.writeLocalByte a b) :=
  (x.sameButBytes_freshen (lineOf a)).trans ⟨_, _, _, _, rfl⟩

theorem Core.sameButBytes_writeLocal (x : Core) (a : Nat) (bs : List Byte) : x.sameButBytes (x.writeLocal a bs) := by
  induction bs generalizing x a with
  | nil => exact x.sameButBytes_refl
  | cons b bs ih => exact (x.sameButBytes_writeLocalByte a b).trans (ih _ _)

theorem Core.sameButBytes.localWait {x y : Core} (h : x.sameButBytes y) (who : Option Nat) (a n : Nat) :
    y.localWait who a n = x.localWait who a n := by
  obtain ⟨b, d, f, g, rfl⟩ := h
  rfl

theorem Core.sameButBytes.mtx {x y : Core} (h : x.sameButBytes y) : y.mtx = x.mtx := by
  obtain ⟨b, d, f, g, rfl⟩ := h
  rfl

theorem Core.sameButBytes.strands {x y : Core} (h : x.sameButBytes y) : y.strands = x.strands := by
  obtain ⟨b, d, f, g, rfl⟩ := h
  rfl

/-! ### Local bytes do not depend on the matrix unit -/

/-- The core with another matrix unit. -/
def Core.withMtx (x : Core) (m : MatrixUnit) : Core := { x with mtx := m }

section
variable (x : Core) (m : MatrixUnit)

theorem Core.freshen_withMtx (l : Nat) : (x.withMtx m).freshen l = (x.freshen l).withMtx m := by
  have hlive : (x.withMtx m).live l = x.live l := rfl
  unfold Core.freshen
  rw [hlive]
  split <;> rfl

theorem Core.writeLocalByte_withMtx (a : Nat) (b : Byte) : (x.withMtx m).writeLocalByte a b = (x.writeLocalByte a b).withMtx m := by
  unfold Core.writeLocalByte
  rw [Core.freshen_withMtx]
  rfl

theorem Core.writeLocal_withMtx (a : Nat) (bs : List Byte) : (x.withMtx m).writeLocal a bs = (x.writeLocal a bs).withMtx m := by
  induction bs generalizing x a with
  | nil => rfl
  | cons b bs ih => rw [Core.writeLocal, Core.writeLocalByte_withMtx, ih, Core.writeLocal]

theorem Core.readLocal_withMtx (a n : Nat) : (x.withMtx m).readLocal a n = x.readLocal a n :=
  Core.readLocal_congr a n fun _ _ => rfl

theorem Core.localPoisoned_withMtx (a n : Nat) : (x.withMtx m).localPoisoned a n = x.localPoisoned a n := rfl

end

/-! ### The events of an operation -/

/-- The operation with other events to come. -/
def MtxOp.withRows (o : MtxOp) (rows : List MtxRow) : MtxOp := { o with rows := rows }

/-- An event acts on local bytes and on what the operation has gathered, whatever the unit holds and whatever events are to come. -/
theorem MtxRow.land_with (r : MtxRow) (x : Core) (m : MatrixUnit) (o : MtxOp) (rows : List MtxRow) :
    r.land (x.withMtx m) (o.withRows rows) = ((r.land x o).1.withMtx m, (r.land x o).2.withRows rows) := by
  cases r with
  | add off fmtc outs =>
    simp only [MtxRow.land, Core.writeLocal_withMtx, Core.readLocal_withMtx, Core.localPoisoned_withMtx]
    rfl
  | zero off =>
    simp only [MtxRow.land, Core.writeLocal_withMtx, Core.localPoisoned_withMtx]
    rfl
  | read off n =>
    simp only [MtxRow.land, Core.readLocal_withMtx, Core.localPoisoned_withMtx]
    rfl

theorem MtxRow.sameButBytes_land (r : MtxRow) (x : Core) (o : MtxOp) : x.sameButBytes (r.land x o).1 := by
  cases r with
  | add off fmtc outs => exact x.sameButBytes_writeLocal _ _
  | zero off => exact x.sameButBytes_writeLocal _ _
  | read off n => exact x.sameButBytes_refl

theorem MtxRow.land_strand (r : MtxRow) (x : Core) (o : MtxOp) : (r.land x o).2.strand = o.strand := by cases r <;> rfl

theorem MtxRow.land_rows (r : MtxRow) (x : Core) (o : MtxOp) : (r.land x o).2.rows = o.rows := by cases r <;> rfl

/-- A core and an operation after some events. -/
def landAll (rows : List MtxRow) (e : Core × MtxOp) : Core × MtxOp := rows.foldl (fun e r => r.land e.1 e.2) e

theorem landAll_frame (rows : List MtxRow) (e : Core × MtxOp) :
    e.1.sameButBytes (landAll rows e).1 ∧ (landAll rows e).2.rows = e.2.rows ∧ (landAll rows e).2.strand = e.2.strand := by
  induction rows generalizing e with
  | nil => exact ⟨e.1.sameButBytes_refl, rfl, rfl⟩
  | cons r rows ih =>
    obtain ⟨hbytes, hrows, hstrand⟩ := ih (r.land e.1 e.2)
    exact ⟨(r.sameButBytes_land e.1 e.2).trans hbytes, hrows.trans (r.land_rows e.1 e.2),
      hstrand.trans (r.land_strand e.1 e.2)⟩

/-- Where no event waits, all of them land. -/
theorem Core.landRows_all (rows : List MtxRow) (x : Core) (m : MatrixUnit) (o : MtxOp)
    (hwait : ∀ r ∈ rows, x.localWait (some o.strand) r.range.1 r.range.2 = none) {n : Nat} (hn : rows.length ≤ n) :
    (x.withMtx { m with busy := some (o.withRows rows) }).landRows n =
      (landAll rows (x, o)).1.withMtx { m with busy := some ((landAll rows (x, o)).2.withRows []) } := by
  induction rows generalizing x o n with
  | nil => cases n <;> rfl
  | cons r rows ih =>
    cases n with
    | zero => simp at hn
    | succ n =>
      have hbusy : (x.withMtx { m with busy := some (o.withRows (r :: rows)) }).mtx.busy = some (o.withRows (r :: rows)) := rfl
      have hfree : (x.withMtx { m with busy := some (o.withRows (r :: rows)) }).localWait
          (some (o.withRows (r :: rows)).strand) r.range.1 r.range.2 = none := hwait r List.mem_cons_self
      have hrest : ∀ q ∈ rows, (r.land x o).1.localWait (some (r.land x o).2.strand) q.range.1 q.range.2 = none :=
        fun q hq => by
          rw [r.land_strand, (r.sameButBytes_land x o).localWait]
          exact hwait q (List.mem_cons_of_mem _ hq)
      have hih := ih (r.land x o).1 (r.land x o).2 hrest (Nat.le_of_succ_le_succ hn)
      simp only [Core.landRows, hbusy, MtxRow.land_with]
      simp only [MtxOp.withRows] at hfree ⊢
      simp only [hfree, Option.isSome_none, Bool.false_eq_true, if_false]
      exact hih

/-- Whatever number of events land, the strands are as they were and the operation is in progress. -/
theorem Core.landRows_frame (x : Core) (n : Nat) : (x.landRows n).strands = x.strands ∧
    (x.mtx.busy.isSome = true → (x.landRows n).mtx.busy.isSome = true) := by
  induction n generalizing x with
  | zero => exact ⟨rfl, id⟩
  | succ n ih =>
    unfold Core.landRows
    split
    · exact ⟨rfl, id⟩
    next op hop =>
      split
      · exact ⟨rfl, id⟩
      next r rest hrows =>
        dsimp only
        split
        · exact ⟨rfl, id⟩
        · obtain ⟨hstrands, hbusy⟩ := ih { (r.land x op).1 with mtx := { (r.land x op).1.mtx with
            busy := some { (r.land x op).2 with rows := rest } } }
          exact ⟨hstrands.trans (r.sameButBytes_land x op).strands, fun _ => hbusy rfl⟩

end Sys2Proof.Machine
end

section
/-!
PROOFS. The steps that end waits (O52), put together: the last of them is the step of a matrix operation, in a clk before its last one and
at that clk (R188).
-/
set_option Elab.async false

namespace Sys2Proof.Machine

theorem State.strand_setCore_of_strands {s : State} {c : Nat} {y : Core} (h : y.strands = (s.core c).strands) (p : Place) :
    (s.setCore c y).strand p = s.strand p := by
  unfold State.strand Core.strand
  by_cases hp : p.core = c
  · rw [hp, State.core_setCore_same, h]
  · rw [State.core_setCore_other _ _ hp]

/-- The state with a core in which events have landed; their number has used up a free value. -/
def State.landed (s : State) (c : Nat) (y : Core) : State := ({ s with draws := s.draws + 1 } : State).setCore c y

theorem State.core_landed (s : State) (c : Nat) (y : Core) : (s.landed c y).core c = y := State.core_setCore_same ..

theorem State.strand_landed {s : State} {c : Nat} {y : Core} (h : y.strands = (s.core c).strands) (p : Place) :
    (s.landed c y).strand p = s.strand p :=
  State.strand_setCore_of_strands (s := { s with draws := s.draws + 1 }) h p

/-! ### The end of an operation -/

/-- The end of an operation changes the matrix unit of its core alone, and does so by what the operation has gathered. -/
theorem MtxOp.finish_withMtx (op : MtxOp) (x : Core) (m : MatrixUnit) :
    (op.finish (x.withMtx m)).mtx = (op.finish (x.withMtx { m with busy := none })).mtx := by
  unfold MtxOp.finish
  split <;> rfl

theorem MtxOp.finish_frame (op : MtxOp) (x : Core) : ∃ m, op.finish x = x.withMtx m := by
  unfold MtxOp.finish
  dsimp only
  split <;> exact ⟨_, rfl⟩

theorem State.strand_modCore_finish (s : State) (c : Nat) (op : MtxOp) (p : Place) :
    (s.modCore c op.finish).strand p = s.strand p := by
  obtain ⟨m, hm⟩ := op.finish_frame (s.core c)
  exact State.strand_setCore_of_strands (by rw [hm]; rfl) p

/-- The end of an operation whose strand is parked for it (R188). -/
theorem State.endMatrix_parked {s : State} {c : Nat} {op : MtxOp}
    (hrun : (s.strand { core := c, strand := op.strand }).run = .parked)
    (hwait : (s.strand { core := c, strand := op.strand }).wait = .matrix) :
    s.endMatrix c op = (s.modCore c op.finish).setStrand { core := c, strand := op.strand }
      (op.finishStrand (s.strand { core := c, strand := op.strand }).wake).complete := by
  unfold State.endMatrix
  dsimp only
  rw [State.strand_modCore_finish, if_pos ⟨hrun, hwait⟩]

/-- Once all events of an operation have landed no event is to come, and nothing but local bytes has changed in the core. -/
theorem MtxOp.settle_frame (op : MtxOp) (x : Core) :
    x.sameButBytes (op.settle x).1 ∧ (op.settle x).2.rows = [] ∧ (op.settle x).2.strand = op.strand :=
  landAll_frame op.rows (x, op.withRows [])

section
variable {s : State} {c : Nat} (hc : s.given = .core c) {op : MtxOp} (hop : (s.core c).mtx.busy = some op)
include hc hop

/-- The core once as many events as the step lets land have landed. -/
theorem exec_matrixOpComplete {q : MtxOp} {y : Core}
    (hy : (s.core c).landRows (if s.now < op.endClk then Config.pick s.draws % (op.rows.length + 1) else op.rows.length) = y)
    (hq : y.mtx.busy = some q) : exec .matrixOpComplete s = .next
      (if op.endClk ≤ s.now ∧ q.rows = [] then (s.landed c y).endMatrix c q
      else (s.landed c y).after 1 .matrixOpComplete (.core c)) := by
  have hexec : exec .matrixOpComplete s = execMatrixOpComplete s := rfl
  rw [hexec, execMatrixOpComplete, onCore_of_given hc]
  simp only [hop, hy, hq]
  rfl

/-- Before its last clk an operation leaves every strand as it is, and goes on in the next clk. -/
theorem matrixOpGoesOn (hnow : s.now < op.endClk) : ∃ t, exec .matrixOpComplete s = .next t ∧
    t.strand { core := c, strand := op.strand } = s.strand { core := c, strand := op.strand } ∧
    s.othersAs t { core := c, strand := op.strand } ∧
    t.timers = s.timers ++ [(s.now + 1, { step := .matrixOpComplete, given := .core c })] := by
  obtain ⟨hstrands, hbusy⟩ := (s.core c).landRows_frame
    (if s.now < op.endClk then Config.pick s.draws % (op.rows.length + 1) else op.rows.length)
  obtain ⟨q, hq⟩ := Option.isSome_iff_exists.mp (hbusy (by rw [hop]; rfl))
  have hstep := exec_matrixOpComplete hc hop rfl hq
  rw [if_neg fun h => absurd h.1 (Nat.not_le.mpr hnow)] at hstep
  have hsame : ∀ p, ((s.landed c _).after 1 .matrixOpComplete (.core c)).strand p = s.strand p :=
    fun p => State.strand_landed hstrands p
  exact ⟨_, hstep, hsame _, fun p _ => hsame p, rfl⟩

omit hc in
/-- When none of the events of an operation waits, all of them land and it is still the unit's, with no event to come. -/
theorem landRows_settle (hfree : ∀ r ∈ op.rows, (s.core c).localWait (some op.strand) r.range.1 r.range.2 = none) :
    (s.core c).landRows op.rows.length = (op.settle (s.core c)).1.withMtx
      { (s.core c).mtx with busy := some (op.settle (s.core c)).2 } := by
  have hrows : (op.settle (s.core c)).2.rows = [] := (op.settle_frame _).2.1
  have hcore : (s.core c).withMtx { (s.core c).mtx with busy := some ((op.withRows []).withRows op.rows) } = s.core c := by
    have hunit : ({ (s.core c).mtx with busy := some op } : MatrixUnit) = (s.core c).mtx := by rw [← hop]
    exact congrArg (s.core c).withMtx hunit
  have hlast : (op.settle (s.core c)).2.withRows [] = (op.settle (s.core c)).2 := by rw [← hrows]; rfl
  have hall := Core.landRows_all op.rows (s.core c) (s.core c).mtx (op.withRows []) hfree le_rfl
  rw [hcore] at hall
  rw [hall]
  exact congrArg (fun q => (op.settle (s.core c)).1.withMtx { (s.core c).mtx with busy := some q }) hlast

/-- At its last clk an operation none of whose events waits leaves their bytes, frees the unit and completes the parked strand. -/
theorem matrixOpEnds (hrun : (s.strand { core := c, strand := op.strand }).run = .parked)
    (hwait : (s.strand { core := c, strand := op.strand }).wait = .matrix) (hnow : op.endClk ≤ s.now)
    (hfree : ∀ r ∈ op.rows, (s.core c).localWait (some op.strand) r.range.1 r.range.2 = none) :
    ∃ t, exec .matrixOpComplete s = .next t ∧
      (t.core c).mtx = ((op.settle (s.core c)).2.finish (op.settle (s.core c)).1).mtx ∧
      t.strand { core := c, strand := op.strand } =
        ((op.settle (s.core c)).2.finishStrand (s.strand { core := c, strand := op.strand }).wake).complete ∧
      s.othersAs t { core := c, strand := op.strand } ∧
      ∀ a, (t.core c).readLocalByte a = (op.settle (s.core c)).1.readLocalByte a := by
  obtain ⟨hbytes, hrows, hstrand⟩ := op.settle_frame (s.core c)
  have hland := landRows_settle hop hfree
  have hstep := exec_matrixOpComplete hc hop ((congrArg _ (if_neg (Nat.not_lt.mpr hnow))).trans hland) rfl
  generalize he : op.settle (s.core c) = e at *
  rw [if_pos ⟨hnow, hrows⟩] at hstep
  have hsame := State.strand_landed (s := s) (c := c)
    (y := e.1.withMtx { (s.core c).mtx with busy := some e.2 }) hbytes.strands
  rw [← hstrand] at hrun hwait ⊢
  rw [State.endMatrix_parked ((congrArg Strand.run (hsame _)).trans hrun) ((congrArg Strand.wait (hsame _)).trans hwait),
    hsame] at hstep
  refine ⟨_, hstep, ?_, State.strand_setStrand_same .., fun p hother => ?_, fun a => ?_⟩
  · rw [State.core_setStrand_same, State.modCore, State.core_setCore_same, State.core_landed, ← hbytes.mtx]
    exact (e.2.finish_withMtx e.1 _).trans (e.2.finish_withMtx e.1 e.1.mtx).symm
  · rw [State.strand_setStrand_other _ _ hother, State.strand_modCore_finish, hsame]
  · obtain ⟨m, hm⟩ := e.2.finish_frame (e.1.withMtx { (s.core c).mtx with busy := some e.2 })
    rw [State.core_setStrand_same, State.modCore, State.core_setCore_same, State.core_landed, hm]
    rfl

end

/-- Settles O52, step by step: those of a strand, of a line, of the core barrier and of a matrix operation. -/
theorem waitEndSteps : Obligations.WaitEndSteps := by
  refine ⟨fun s p hp => ?_, fun s c k n hgiven hopen => loadMissFillReadies hgiven hopen, fun s c hc =>
    ⟨fun k u hmet hfirst => coreBarrierResumes hc hmet hfirst, fun op hop hrun hwait =>
      ⟨fun hnow hfree => matrixOpEnds hc hop hrun hwait hnow hfree, fun hnow => matrixOpGoesOn hc hop hnow⟩⟩⟩
  obtain ⟨hloft, hresource, htimer, hyield⟩ := strandWaitsEnd hp
  obtain ⟨hready, hsleep⟩ := userInterruptsEnter hp
  exact ⟨hloft, hresource, htimer, hyield, hready, hsleep, fun hrun => limitsEnd hp hrun, fun mask hrun hwait hdone =>
    ⟨_, exec_cpycanComplete hp hrun hwait hdone, s.othersAs_setStrand _ _,
      Claims.finished_of_finish (State.strand_setStrand_same ..)⟩⟩

end Sys2Proof.Machine
end

section
/-!
PROOFS. One step (O4, O5): the strand whose turn it is issues the word at its PC (R66, R72, R106), or the one step that is due is taken
(log 2).
-/
set_option Elab.async false
namespace Sys2Proof.Machine

/-! ### The strand that issues -/

section
variable {s : State}

/-- With nothing due, a step is the issue of the strand whose turn it is. -/
theorem step_of_agenda_nil {p : Place} (hagenda : s.agenda = []) (hturn : s.turn ≠ closedTurn) (hnext : s.nextStrand = some p) :
    step s = (s.issueAs p).issue p := by
  have hfirst : s.takeFirst = none := by rw [State.takeFirst, hagenda]; rfl
  rw [step, if_neg hturn, hagenda]
  simp only [State.advance, hfirst, hnext]

theorem State.physRead_issueAs (p : Place) (d : Nat) (key : Key) (gen pa n : Nat) :
    (s.issueAs p).physRead d key gen pa n = s.physRead d key gen pa n := by
  induction n generalizing pa with
  | zero => rfl
  | succ n ih => rw [State.physRead, ih]; rfl

/-- Which strand issues is nothing that a fetch looks at. -/
theorem State.fetchWord_issueAs (p q : Place) (t : Strand) (pc : Word) :
    (s.issueAs p).fetchWord q t pc = s.fetchWord q t pc := by
  unfold State.fetchWord
  simp only [State.physRead_issueAs]
  rfl

theorem State.fetch_issueAs (p q : Place) (t : Strand) (pc : Word) : (s.issueAs p).fetch q t pc = s.fetch q t pc := by
  unfold State.fetch State.fetchAddr
  simp only [State.fetchWord_issueAs]

/-- At a boundary without a pending trap, an interrupt or an ended kernel, the strand issues the word at its PC (R72, R76). -/
theorem State.issue_word {p : Place} (htrap : (s.strand p).pendTrap = []) (hdue : (s.strand p).interruptDue = false)
    (hend : ((s.strand p).ending && !(s.strand p).mid) = false) : s.issue p = s.issueWord p := by
  simp [State.issue, htrap, hdue, hend]

section
variable {p : Place} {w : IWord} (hword : s.fetch p (s.strand p) (s.strand p).pc = .word w)
include hword

theorem State.issueWord_convoy (hc : (convoyMajor (wordMajor w) && (wordC w || s.mayPause p)) = true) :
    s.issueWord p = .next (s.issueConvoy p (s.strand p)) := by
  simp only [State.issueWord, hword]
  rw [if_pos hc]

theorem State.issueWord_decoded (hc : (convoyMajor (wordMajor w) && (wordC w || s.mayPause p)) = false) {i : Instr}
    (hi : decode w = .ok i) : s.issueWord p = exec i ((s.noted p i).fetched p (s.strand p) (s.strand p).pc w) := by
  simp only [State.issueWord, hword, hi]
  rw [if_neg (Bool.not_eq_true _ ▸ hc)]

theorem State.issueWord_refused (hc : (convoyMajor (wordMajor w) && (wordC w || s.mayPause p)) = false) {e : DecodeError}
    (he : decode w = .error e) : s.issueWord p = .next (s.raise p causeIllegal (w.setWidth 64)) := by
  simp only [State.issueWord, hword, he]
  rw [if_neg (Bool.not_eq_true _ ▸ hc)]

end

end

/-- With nothing due and no trap, interrupt or ended kernel in the way, a step issues the word at the strand's PC. -/
theorem step_issueWord {s : State} {p : Place} (hagenda : s.agenda = []) (hturn : s.turn ≠ closedTurn)
    (hnext : s.nextStrand = some p) (htrap : (s.strand p).pendTrap = []) (hdue : (s.strand p).interruptDue = false)
    (hend : ((s.strand p).ending && !(s.strand p).mid) = false) : step s = (s.issueAs p).issueWord p := by
  rw [step_of_agenda_nil hagenda hturn hnext, State.issue_word (s := s.issueAs p) htrap hdue hend]

/-- Settles O4: who issues is nothing that the fetch of the word looks at. -/
theorem stepRunsDecoded : Obligations.StepRunsDecoded := by
  intro s p w hagenda hturn hnext htrap hdue hend hword convoy
  rw [step_issueWord hagenda hturn hnext htrap hdue hend]
  rw [← State.fetch_issueAs (s := s) p] at hword
  exact ⟨fun hconvoy => State.issueWord_convoy hword hconvoy, fun i hconvoy hi => State.issueWord_decoded hword hconvoy hi⟩

/-! ### The step that is due -/

/-- The position of the one step that is due: a stream of one step begins with it. -/
theorem State.firstOf_single {s : State} {d : Due} (h : s.agenda = [d]) (n : Nat) :
    s.firstOf (n % 2) = n % 2 := by
  unfold State.firstOf
  rcases Nat.mod_two_eq_zero_or_one n with hn | hn
  · simp only [hn, h, List.getElem?_cons_zero]
    split
    · rfl
    next k hk => simp [hk]
  · simp [hn, h]

theorem step_single {s : State} {d : Due} (h : s.agenda = [d]) (hturn : s.turn ≠ closedTurn) :
    step s = if Config.pick s.draws % 2 = 0 ∧ s.mayTake d = true then exec d.step (s.takeDue 0 d)
      else ({ s with draws := s.draws + 1 } : State).advance := by
  have hlen : s.agenda.length + 1 = 2 := by rw [h]; rfl
  rw [step, if_neg hturn]
  simp only [hlen, State.firstOf_single h]
  rcases Nat.mod_two_eq_zero_or_one (Config.pick s.draws) with hpick | hpick
  · simp [hpick, h]
  · simp [hpick, h]

theorem State.takeDue_frame (s : State) (n : Nat) (d : Due) : (s.takeDue n d).given = d.given ∧
    (s.takeDue n d).agenda = s.agenda.eraseIdx n ∧ (s.takeDue n d).cores = s.cores ∧ (s.takeDue n d).mem = s.mem := by
  unfold State.takeDue
  dsimp only
  split <;> exact ⟨rfl, rfl, rfl, rfl⟩

/-- Settles O5. -/
theorem stepsWithoutInstruction : Obligations.StepsWithoutInstruction := by
  refine ⟨fun s p w e hagenda hturn hnext htrap hdue hend hword hconvoy hdecode => ?_, fun s d hagenda hturn => ?_⟩
  · rw [step_issueWord hagenda hturn hnext htrap hdue hend]
    exact State.issueWord_refused ((s.fetch_issueAs p p _ _).trans hword) hconvoy hdecode
  · obtain ⟨hgiven, hrest, hcores, hmem⟩ := s.takeDue_frame 0 d
    exact ⟨step_single hagenda hturn, hgiven, by rw [hrest, hagenda]; rfl, hcores, hmem⟩

end Sys2Proof.Machine
end

section
/-!
PROOFS. The instructions of a core as a whole (O26): SLOTW, WFI and HALT (R61, R62, R132, R143, R144).
-/
set_option Elab.async false

namespace Sys2Proof.Machine

/-! ### A strand that is unbound -/

/-- An entry that a filtered map gives has passed the filter. -/
theorem mget_mfilter_passes {β : Type} {p : Nat → β → Bool} {m : SMap β} {k : Nat} {v : β} (h : mget (mfilter p m) k = some v) :
    p k v = true := by
  induction m with
  | nil => cases h
  | cons e r ih =>
    rw [mfilter, List.filter_cons] at h
    split at h
    next hp =>
      rw [mget] at h
      split at h
      next he => cases h; exact he ▸ hp
      next => exact ih h
    next => exact ih h

section
variable (x : Core) (k : Nat)

theorem Core.strand_unbind_same : (x.unbind k).strand k = .reset := by
  simp [Core.unbind, Core.strand, mgetD]

theorem Core.strand_unbind_other {j : Nat} (h : j ≠ k) : (x.unbind k).strand j = x.strand j := by
  simp [Core.unbind, Core.strand, mgetD, mget_mdel_other _ h]

/-- A strand that is unbound holds no bay lock (R77). -/
theorem Core.locks_unbind (b : Nat) : mget (x.unbind k).locks b ≠ some k := by
  intro h
  have hp : (k != k) = true := mget_mfilter_passes (p := fun _ h => h != k) (m := x.locks) h
  exact absurd hp (by simp)

theorem State.strand_unbind_same (s : State) (p : Place) : (s.modCore p.core fun x => x.unbind p.strand).strand p = .reset := by
  rw [State.strand, State.modCore, State.core_setCore_same, Core.strand_unbind_same]

theorem State.othersAs_unbind (s : State) (p : Place) : s.othersAs (s.modCore p.core fun x => x.unbind p.strand) p := by
  intro q hq
  unfold State.strand State.modCore
  by_cases hc : q.core = p.core
  · have hk : q.strand ≠ p.strand := fun hk => hq (by cases p; cases q; simp_all)
    rw [hc, State.core_setCore_same, Core.strand_unbind_other _ _ hk]
  · rw [State.core_setCore_other _ _ hc]

end

/-! ### Leave notices, and the end of a strand (R144, R344) -/

@[simp] theorem State.strand_sendFixed (s : State) (c k target : Nat) (kind : PKind) (payload : List Byte) (q : Place) :
    (s.sendFixed c k target kind payload).strand q = s.strand q := by
  unfold State.sendFixed
  rcases h : s.takeNonce c with ⟨s1, _ | n⟩
  · exact State.strand_of_takeNonce h q
  · exact State.strand_of_takeNonce h q

@[simp] theorem State.strand_sendLeaves (s : State) (p : Place) (t : Strand) (q : Place) :
    (s.sendLeaves p t).strand q = s.strand q := by
  unfold State.sendLeaves
  refine List.foldlRecOn (motive := fun u : State => u.strand q = s.strand q) _ _ rfl fun u hu e _ => ?_
  split
  · exact hu
  · rw [State.strand_sendFixed, hu]

@[simp] theorem State.checkRendezvous_cores (s : State) (k : Nat) : (s.checkRendezvous k).cores = s.cores := by
  unfold State.checkRendezvous
  split
  · rfl
  · dsimp only
    split <;> rfl

/-- What is left to do for the kernel of a strand that ends touches no core. -/
theorem State.endStrand_cores (s : State) (p : Place) :
    (s.endStrand p).cores = ((s.sendLeaves p (s.strand p)).modCore p.core fun x => x.unbind p.strand).cores := by
  have hrest : ∀ (u : State) (k : Nat), (if (u.boundOf k).isEmpty then u.later .kernelRetire (.kernel k)
      else u.checkRendezvous k).cores = u.cores := fun u k => by
    split
    · rfl
    · exact u.checkRendezvous_cores k
  unfold State.endStrand
  dsimp only
  split
  · rfl
  · split
    · rfl
    · refine (hrest _ _).trans ?_
      split <;> rfl

theorem State.endStrand_unbinds (s : State) (p : Place) : ((s.endStrand p).strand p).run = .unbound ∧
    (∀ b, mget ((s.endStrand p).core p.core).locks b ≠ some p.strand) ∧ s.othersAs (s.endStrand p) p := by
  have hcores := s.endStrand_cores p
  refine ⟨?_, fun b => ?_, fun q hq => ?_⟩
  · rw [State.strand_of_cores hcores, State.strand_unbind_same]
    rfl
  · rw [State.core_of_cores hcores, State.modCore, State.core_setCore_same]
    exact Core.locks_unbind _ _ b
  · rw [State.strand_of_cores hcores, State.othersAs_unbind _ p q hq, State.strand_sendLeaves]

/-! ### The instructions -/

section
variable {s : State} (hb : s.bound = true)
include hb

theorem needSup_of_sup (hpriv : s.me.trap.priv = true) (i : Instr) (f : Place → Strand → State) :
    needSup s i f = .next (f s.cur.place s.me) := needSup_sup i f (State.run_of_bound hb) hpriv

theorem needSup_of_user (hpriv : s.me.trap.priv = false) (i : Instr) (f : Place → Strand → State) :
    needSup s i f = .next (s.raise s.cur.place causePriv (wordOf i)) := needSup_user i f (State.run_of_bound hb) hpriv

section
variable (a b : SReg)

theorem exec_slotw_quiet (hpriv : s.me.trap.priv = true) (hbody : s.me.inBody = false)
    (hquiet : (s.core s.cur.place.core).quiet = true) : exec (.slotw a b) s = .next
      ((s.complete s.cur.place s.me).modCore s.cur.place.core fun y => { y with slot0 := s.me.s a, slot1 := s.me.s b }) := by
  have hexec : exec (.slotw a b) s = execSlotw a b s := rfl
  rw [hexec, execSlotw, needSup_of_sup hb hpriv, outsideBody_outside _ _ _ _ hbody]
  simp only [hquiet, if_true]

theorem exec_slotw_inBody (hpriv : s.me.trap.priv = true) (hbody : s.me.inBody = true) :
    exec (.slotw a b) s = .next (s.raise s.cur.place causeLoop (wordOf (.slotw a b))) := by
  have hexec : exec (.slotw a b) s = execSlotw a b s := rfl
  rw [hexec, execSlotw, needSup_of_sup hb hpriv, outsideBody_inside _ _ _ _ hbody]
  rfl

theorem exec_slotw_busy (hpriv : s.me.trap.priv = true) (hbody : s.me.inBody = false)
    (hquiet : (s.core s.cur.place.core).quiet = false) :
    exec (.slotw a b) s = .next (s.raise s.cur.place causeIllegal (s.core s.cur.place.core).barq) := by
  have hexec : exec (.slotw a b) s = execSlotw a b s := rfl
  rw [hexec, execSlotw, needSup_of_sup hb hpriv, outsideBody_outside _ _ _ _ hbody]
  simp [hquiet]

theorem exec_slotw_user (hpriv : s.me.trap.priv = false) :
    exec (.slotw a b) s = .next (s.raise s.cur.place causePriv (wordOf (.slotw a b))) := by
  have hexec : exec (.slotw a b) s = execSlotw a b s := rfl
  rw [hexec, execSlotw, needSup_of_user hb hpriv]

/-- SLOTW on a quiescent core (R61). -/
theorem slotwLoads (hpriv : s.me.trap.priv = true) (hbody : s.me.inBody = false)
    (hquiet : (s.core s.cur.place.core).quiet = true) : ∃ t, exec (.slotw a b) s = .next t ∧
      (t.core s.cur.place.core).slot0 = s.me.s a ∧ (t.core s.cur.place.core).slot1 = s.me.s b ∧ t.me = s.me.complete ∧
      s.othersAs t s.cur.place ∧ ∀ e, e < 32 → (t.core s.cur.place.core).slotEntry e =
        bits (if e < 16 then s.me.s a else s.me.s b).toNat (4 * (e % 16)) 4 := by
  refine ⟨_, exec_slotw_quiet hb a b hpriv hbody hquiet, ?_⟩
  have hstrands : ∀ q, ((s.complete s.cur.place s.me).modCore s.cur.place.core fun y =>
      { y with slot0 := s.me.s a, slot1 := s.me.s b }).strand q = (s.complete s.cur.place s.me).strand q :=
    fun q => State.strand_modCore (by intro y; rfl) q
  rw [State.modCore, State.core_setCore_same]
  exact ⟨rfl, rfl, (hstrands _).trans (State.complete_strand ..), fun q hq => (hstrands q).trans (s.othersAs_complete _ _ q hq),
    fun _ _ => rfl⟩

end

section
variable (hpriv : s.me.trap.priv = true) (hbody : s.me.inBody = false)
include hpriv hbody

/-- The strand waits at the core barrier. -/
def State.joinBarrier (s : State) (p : Place) (t : Strand) : State :=
  (s.setStrand p (t.await s.now .coreBarrier 0)).modCore p.core fun y => { y with barWaiting := mset y.barWaiting p.strand () }

omit hb hpriv hbody in
theorem State.strand_joinBarrier (p q : Place) (t : Strand) :
    (s.joinBarrier p t).strand q = (s.setStrand p (t.await s.now .coreBarrier 0)).strand q :=
  State.strand_modCore (by intro y; rfl) q

/-- Every strand that waited at the core barrier resumes (R62). -/
def Core.resumeBarrier (x : Core) : Core :=
  { x with
    barWaiting := []
    quiescent := false
    strands := mmap (fun _ u => if u.run = .waiting ∧ u.wait = .coreBarrier then u.finish 0 else u) x.strands }

theorem exec_wfi_waits (hleads : ¬((s.core s.cur.place.core).quiescent &&
    mhas (s.core s.cur.place.core).barWaiting s.cur.place.strand) = true) : exec .wfi s = .next
      (if ((s.joinBarrier s.cur.place s.me).core s.cur.place.core).barrierMet then
        (s.joinBarrier s.cur.place s.me).later .coreBarrierQuiescent (.core s.cur.place.core)
      else s.joinBarrier s.cur.place s.me) := by
  have hexec : exec .wfi s = execWfi s := rfl
  rw [hexec, execWfi, needSup_of_sup hb hpriv, outsideBody_outside _ _ _ _ hbody]
  exact congrArg _ (if_neg hleads)

theorem exec_wfi_leads (hleads : ((s.core s.cur.place.core).quiescent &&
    mhas (s.core s.cur.place.core).barWaiting s.cur.place.strand) = true) :
    exec .wfi s = .next ((s.complete s.cur.place s.me).modCore s.cur.place.core Core.resumeBarrier) := by
  have hexec : exec .wfi s = execWfi s := rfl
  rw [hexec, execWfi, needSup_of_sup hb hpriv, outsideBody_outside _ _ _ _ hbody]
  exact congrArg _ (if_pos hleads)

/-- WFI of a strand that does not lead a quiescent core (R62). -/
theorem wfiWaits (hleads : ¬((s.core s.cur.place.core).quiescent &&
    mhas (s.core s.cur.place.core).barWaiting s.cur.place.strand) = true) :
    ∃ t, exec .wfi s = .next t ∧ t.me.run = .waiting ∧ t.me.wait = .coreBarrier ∧
      mhas (t.core s.cur.place.core).barWaiting s.cur.place.strand = true ∧ s.othersAs t s.cur.place := by
  refine ⟨_, exec_wfi_waits hb hpriv hbody hleads, ?_⟩
  generalize hu : (if ((s.joinBarrier s.cur.place s.me).core s.cur.place.core).barrierMet then
    (s.joinBarrier s.cur.place s.me).later .coreBarrierQuiescent (.core s.cur.place.core)
    else s.joinBarrier s.cur.place s.me) = u
  have hcores : u.cores = (s.joinBarrier s.cur.place s.me).cores := by rw [← hu]; split <;> rfl
  have hcur : u.cur = s.cur := by rw [← hu]; split <;> rfl
  rw [State.me, hcur, State.strand_of_cores hcores, State.core_of_cores hcores, State.strand_joinBarrier,
    State.strand_setStrand_same]
  refine ⟨rfl, rfl, ?_, fun q hq => ?_⟩
  · rw [State.joinBarrier, State.modCore, State.core_setCore_same]
    simp [mhas]
  · rw [State.strand_of_cores hcores, State.strand_joinBarrier, State.strand_setStrand_other _ _ hq]

/-- WFI of the leader of a quiescent core (R62). -/
theorem wfiResumes (hleads : ((s.core s.cur.place.core).quiescent &&
    mhas (s.core s.cur.place.core).barWaiting s.cur.place.strand) = true) (hrun : s.me.run = .ready) :
    ∃ t, exec .wfi s = .next t ∧ (t.core s.cur.place.core).barWaiting = [] ∧ (t.core s.cur.place.core).quiescent = false ∧
      t.me.pc = s.me.complete.pc ∧ ∀ k u, k ≠ s.cur.place.strand → mget (s.core s.cur.place.core).strands k = some u →
        u.run = .waiting → u.wait = .coreBarrier → (t.core s.cur.place.core).strand k = u.finish 0 := by
  refine ⟨_, exec_wfi_leads hb hpriv hbody hleads, ?_⟩
  have hcore : ((s.complete s.cur.place s.me).modCore s.cur.place.core Core.resumeBarrier).core s.cur.place.core =
      ((s.core s.cur.place.core).setStrand s.cur.place.strand s.me.complete).resumeBarrier := by
    rw [State.modCore, State.core_setCore_same, State.complete, State.core_setStrand_same]
  have hstrand : ∀ k, ((s.core s.cur.place.core).setStrand s.cur.place.strand s.me.complete).resumeBarrier.strand k =
      ((mget (mset (s.core s.cur.place.core).strands s.cur.place.strand s.me.complete) k).map fun u =>
        if u.run = .waiting ∧ u.wait = .coreBarrier then u.finish 0 else u).getD .reset :=
    fun k => by rw [Core.strand, mgetD, Core.resumeBarrier, mget_mmap]; rfl
  rw [hcore]
  refine ⟨rfl, rfl, ?_, fun k u hk hu hwaiting hwait => ?_⟩
  · have hme : ((s.complete s.cur.place s.me).modCore s.cur.place.core Core.resumeBarrier).me = s.me.complete := by
      rw [State.me, State.strand]
      refine (congrArg (fun x : Core => x.strand s.cur.place.strand) hcore).trans ?_
      rw [hstrand, mget_mset_same, Option.map_some, Option.getD_some, if_neg (by simp [hrun])]
    rw [hme]
  · rw [hstrand, mget_mset_other _ _ hk, hu, Option.map_some, Option.getD_some, if_pos ⟨hwaiting, hwait⟩]

end

theorem exec_halt_inBody (hbody : s.me.inBody = true) : exec .halt s = .next (s.raise s.cur.place causeLoop 6) := by
  have hexec : exec .halt s = execHalt s := rfl
  have hword : wordOf .halt = 6 := by decide
  rw [hexec, execHalt, onStrand_of_bound hb, outsideBody_inside _ _ _ _ hbody, hword]
  rfl

theorem exec_halt_buffered (hbody : s.me.inBody = false) (hsb : (s.core s.cur.place.core).sbOf s.cur.place.strand = true) :
    exec .halt s = .next (s.stall s.cur.place .bufferStrand) := by
  have hexec : exec .halt s = execHalt s := rfl
  rw [hexec, execHalt, onStrand_of_bound hb, outsideBody_outside _ _ _ _ hbody, if_pos hsb]

theorem exec_halt_ends (hbody : s.me.inBody = false) (hsb : (s.core s.cur.place.core).sbOf s.cur.place.strand = false) :
    exec .halt s = .next (s.endStrand s.cur.place) := by
  have hexec : exec .halt s = execHalt s := rfl
  rw [hexec, execHalt, onStrand_of_bound hb, outsideBody_outside _ _ _ _ hbody, if_neg (by simp [hsb])]

end

/-- Settles O26. -/
theorem coreWideInstructions : Obligations.CoreWideInstructions := by
  refine ⟨fun s a b hb => ⟨slotwLoads hb a b, exec_slotw_inBody hb a b, exec_slotw_busy hb a b, exec_slotw_user hb a b⟩,
    fun s hb hpriv hbody => ⟨wfiWaits hb hpriv hbody, wfiResumes hb hpriv hbody⟩, fun s hb => ⟨exec_halt_inBody hb,
      exec_halt_buffered hb, fun hbody hsb => ⟨_, exec_halt_ends hb hbody hsb, s.endStrand_unbinds s.cur.place⟩⟩⟩

end Sys2Proof.Machine
end

section
/-!
PROOFS. Taking a trap and returning from one, and from a user interrupt (O25; R29, R73, R74, R75, R134).
-/
set_option Elab.async false

namespace Sys2Proof.Machine

/-! ### Taking a trap -/

/-- The state in which an instruction acts for the strand at a place, alone. -/
def State.actingAt (s : State) (p : Place) : State := { s with cur := { s.cur with place := p, member := 0 } }

/-- A trap that is delivered to a strand that is no later member of a convoy (R74). -/
theorem State.raise_alone {s : State} {p : Place} (hd : Claims.delivered s p) (hcur : s.cur.member = 0 ∨ s.cur.place ≠ p)
    (cause : Nat) (v : Word) : s.raise p cause v = s.setStrand p ((s.strand p).enterTrap cause v (s.strand p).pc 0) := by
  obtain ⟨hpriv, htvec, hending⟩ := hd
  have hpc : s.trapPc p (s.strand p) = (s.strand p).pc := if_pos hcur
  have hmember : s.trapMember p = 0 := by
    unfold State.trapMember
    split
    next hp => exact hcur.resolve_right (not_not.mpr hp)
    next => rfl
  rw [State.raise_delivered _ _ _ hending hpriv htvec, hpc, hmember]

theorem trapTaken_actingAt {s : State} {p : Place} (hd : Claims.delivered s p) (hcur : s.cur.member = 0 ∨ s.cur.place ≠ p)
    (cause : Nat) (v : Word) : Claims.trapTaken (s.actingAt p) ((s.raise p cause v).actingAt p) cause v := by
  have hr := State.raise_alone hd hcur cause v
  have hme : ((s.raise p cause v).actingAt p).me = (s.strand p).enterTrap cause v (s.strand p).pc 0 := by
    rw [hr]; exact s.strand_setStrand_same p _
  obtain ⟨hs, hm, hv, hw, hvec, htask, hpc, hrun⟩ := (s.strand p).enterTrap_registers cause v (s.strand p).pc 0
  unfold Claims.trapTaken
  rw [hme]
  exact ⟨rfl, rfl, rfl, rfl, rfl, rfl, rfl, rfl, rfl, hpc, rfl, hrun,
    ⟨fun r _ => hs r, hm, hv, hw, hvec, htask, rfl, rfl, rfl, rfl⟩,
    hr ▸ s.othersAs_setStrand p _, hr ▸ s.memoryAs_setStrand p _, State.raise_mem ..⟩

/-! ### Returning -/

section
variable {s : State} (hb : s.bound = true) (hbody : s.me.inBody = false)
include hb hbody

theorem exec_eret_sup (hpriv : s.me.trap.priv = true) : exec .eret s = .next (s.setStrand s.cur.place s.me.leaveTrap) := by
  have hexec : exec .eret s = execEret s := rfl
  rw [hexec, execEret, needSup_of_sup hb hpriv, outsideBody_outside _ _ _ _ hbody]

theorem exec_uiret_handler (hpriv : s.me.trap.priv = false) (hui : s.me.inUi = true) :
    exec .uiret s = .next (s.setStrand s.cur.place s.me.leaveUi) := by
  have hexec : exec .uiret s = execUiret s := rfl
  rw [hexec, execUiret, onStrand_of_bound hb, outsideBody_outside _ _ _ _ hbody, if_pos (by simp [hpriv, hui])]

theorem exec_uiret_outside (hui : s.me.inUi = false) :
    exec .uiret s = .next (s.raise s.cur.place causeIllegal 4) := by
  have hexec : exec .uiret s = execUiret s := rfl
  have hword : wordOf .uiret = 4 := by decide
  rw [hexec, execUiret, onStrand_of_bound hb, outsideBody_outside _ _ _ _ hbody, if_neg (by simp [hui]), State.illegal, hword]
  rfl

end

/-- Settles O25. -/
theorem trapsAndReturns : Obligations.TrapsAndReturns := by
  refine ⟨⟨fun s p cause v hpriv htvec hending hcur => trapTaken_actingAt ⟨hpriv, htvec, hending⟩ hcur cause v,
    fun s hb hpriv hbody => ⟨_, exec_eret_sup hb hbody hpriv, s.othersAs_setStrand _ _, ?_⟩,
    fun t cause v m hpc hpriv => ⟨hpc, hpriv, rfl, rfl, rfl, rfl, rfl, rfl, rfl, rfl⟩⟩,
    fun s hb hpriv hbody => ⟨fun hui => ⟨_, exec_uiret_handler hb hbody hpriv hui, s.othersAs_setStrand _ _, ?_⟩,
      fun hui => exec_uiret_outside hb hbody hui⟩⟩
  · rw [State.me_setStrand]
    exact ⟨rfl, rfl, rfl, rfl, rfl, rfl, rfl⟩
  · rw [State.me_setStrand]
    exact ⟨rfl, rfl, rfl, rfl, rfl, rfl⟩

end Sys2Proof.Machine
end

section
/-!
PROOFS. Integer vector instructions without flags (O34): each computes the row of R153 at the element width, on the elements as the
numbers that the model keeps them as.
-/
set_option Elab.async false

namespace Sys2Proof.Machine

/-! ### The rows of R153 -/

section
variable {w : Nat}

theorem elemIs_plain {v : Nat} {r : BitVec w} (h : BitVec.ofNat w v = r) : ElemIs w (plain v) (r, 0) := ⟨h, rfl⟩

theorem elemIs_plainInt {v : Int} {r : BitVec w} (h : BitVec.ofInt w v = r) : ElemIs w (plainInt w v) (r, 0) :=
  ⟨(ofNat_ofInt w v).trans h, rfl⟩

theorem ofInt_natCast_sub (x y : Nat) : BitVec.ofInt w ((x : Int) - y) = BitVec.ofNat w x - BitVec.ofNat w y := by
  refine BitVec.eq_of_toInt_eq ?_
  rw [BitVec.toInt_ofInt, BitVec.toInt_sub, BitVec.toInt_ofNat', BitVec.toInt_ofNat', Int.bmod_sub_bmod, Int.sub_bmod_bmod]

/-- The quotient by m, of m values, is that of the residue of m² values. -/
theorem emod_mul_self_ediv_emod (v : Int) {m : Int} (hm : m ≠ 0) : v % (m * m) / m % m = v / m % m := by
  have hsplit : v = v % (m * m) + m * (m * (v / (m * m))) := by rw [← mul_assoc, Int.emod_add_mul_ediv]
  have hquot : v / m = v % (m * m) / m + m * (v / (m * m)) := by
    conv_lhs => rw [hsplit]
    rw [Int.add_mul_ediv_left _ _ hm]
  rw [hquot, Int.add_mul_emod_self_left]

/-- Bits w to 2w - 1 of a number of 2w bits are those of its quotient by 2^w. -/
theorem extractLsb'_ofInt (v : Int) : (BitVec.ofInt (2 * w) v).extractLsb' w w = BitVec.ofInt w (v / (2 ^ w : Nat)) := by
  have hpos : 0 < 2 ^ w := Nat.two_pow_pos w
  have hpow : 2 ^ (2 * w) = 2 ^ w * 2 ^ w := by rw [two_mul, Nat.pow_add]
  refine BitVec.eq_of_toNat_eq ?_
  rw [BitVec.extractLsb'_toNat, BitVec.toNat_ofInt, BitVec.toNat_ofInt, Nat.shiftRight_eq_div_pow, hpow]
  generalize 2 ^ w = m at hpos
  have hm : (m : Int) ≠ 0 := by omega
  zify
  rw [Int.toNat_of_nonneg (Int.emod_nonneg _ (mul_ne_zero hm hm)), Int.toNat_of_nonneg (Int.emod_nonneg _ hm),
    emod_mul_self_ediv_emod v hm]

variable (x y : BitVec w)

theorem elemIs_mulh : ElemIs w (plainInt w (x.toInt * y.toInt / (2 ^ w : Nat)))
    ((x.signExtend (2 * w) * y.signExtend (2 * w)).extractLsb' w w, 0) := by
  refine elemIs_plainInt ?_
  rw [← extractLsb'_ofInt, BitVec.ofInt_mul, BitVec.signExtend, BitVec.signExtend]

theorem elemIs_mulhu {x y : Nat} (hx : x < 2 ^ w) (hy : y < 2 ^ w) : ElemIs w (plain (x * y / 2 ^ w))
    (((BitVec.ofNat w x).setWidth (2 * w) * (BitVec.ofNat w y).setWidth (2 * w)).extractLsb' w w, 0) := by
  have h := extractLsb'_ofInt (w := w) ((x * y : Nat) : Int)
  refine elemIs_plain ?_
  rw [← BitVec.ofInt_natCast, Int.natCast_ediv, ← h, BitVec.ofInt_natCast, BitVec.ofNat_mul]
  have hwide : ∀ z, z < 2 ^ w → (BitVec.ofNat w z).setWidth (2 * w) = BitVec.ofNat (2 * w) z := fun z hz => by
    refine BitVec.eq_of_toNat_eq ?_
    rw [BitVec.toNat_setWidth, BitVec.toNat_ofNat, BitVec.toNat_ofNat, Nat.mod_eq_of_lt hz]
  rw [hwide x hx, hwide y hy]

theorem elemIs_sra (n : Nat) : ElemIs w (plainInt w (x.toInt / (2 ^ n : Nat))) (x.sshiftRight n, 0) := by
  refine elemIs_plainInt ?_
  rw [BitVec.sshiftRight, Int.shiftRight_eq_div_pow]

theorem elemIs_abs : ElemIs w (plainInt w x.toInt.natAbs) (if x.msb then -x else x, 0) := by
  refine elemIs_plainInt ?_
  by_cases h : x.msb = true
  · have hneg : x.toInt < 0 := by simpa [BitVec.msb_eq_toInt] using h
    rw [if_pos h, Int.ofNat_natAbs_of_nonpos hneg.le, BitVec.ofInt_neg, BitVec.ofInt_toInt]
  · have hpos : 0 ≤ x.toInt := by simpa [BitVec.msb_eq_toInt] using h
    rw [if_neg h, Int.natAbs_of_nonneg hpos, BitVec.ofInt_toInt]

end

/-- The element function of a two-source instruction computes its row at every width, from numbers of that many bits. -/
def ComputesIntRow (i : Instr) (g : Nat → Nat → Nat → Nat → ElemRes) : Prop :=
  ∀ w x y z, x < 2 ^ w → y < 2 ^ w →
    ElemIs w (g w x y z) ((Claims.intRow w (BitVec.ofNat w x) (BitVec.ofNat w y) (BitVec.ofNat w z) i).getD 0, 0)

theorem exec_intRow {s : State} {i : Instr} {d a : VReg} {b : VSrc} {r : BitVec s.me.sewW}
    (hregs : Claims.vregs i = some (d, a, b)) (hrow : Claims.intRow s.me.sewW 0 0 0 i = some r) :
    ∃ g, exec i s = vintOp s i d a b g ∧ Claims.vecNeeds i = srcReg a :: srcOf b ++ [dstReg d] ∧
      s.vecCheck s.cur.place s.me i = none ∧ Claims.allElements i = false ∧ ComputesIntRow i g := by
  unfold Claims.intRow at hrow
  split at hrow
  case h_19 => cases hrow
  all_goals cases hregs
  · exact ⟨fun _ x y _ => plain (x + y), rfl, rfl, rfl, rfl, fun w x y z _ _ => elemIs_plain (BitVec.ofNat_add ..)⟩
  · exact ⟨fun w x y _ => plainInt w ((x : Int) - y), rfl, rfl, rfl, rfl, fun w x y z _ _ =>
      elemIs_plainInt (ofInt_natCast_sub x y)⟩
  · exact ⟨fun w x y _ => plainInt w ((y : Int) - x), rfl, rfl, rfl, rfl, fun w x y z _ _ =>
      elemIs_plainInt (ofInt_natCast_sub y x)⟩
  · exact ⟨fun _ x y _ => plain (x * y), rfl, rfl, rfl, rfl, fun w x y z _ _ => elemIs_plain (BitVec.ofNat_mul ..)⟩
  · refine ⟨fun w x y _ => plainInt w (toInt w x * toInt w y / (2 ^ w : Nat)), rfl, rfl, rfl, rfl, fun w x y z _ _ => ?_⟩
    simp only [toInt_eq_toInt_ofNat]
    exact elemIs_mulh _ _
  · exact ⟨fun w x y _ => plain (x * y / 2 ^ w), rfl, rfl, rfl, rfl, fun w x y z hx hy => elemIs_mulhu hx hy⟩
  · exact ⟨fun _ x y z => plain (z + x * y), rfl, rfl, rfl, rfl, fun w x y z _ _ =>
      elemIs_plain (by rw [BitVec.ofNat_add, BitVec.ofNat_mul]; rfl)⟩
  · refine ⟨fun w x y z => plainInt w ((z : Int) - x * y), rfl, rfl, rfl, rfl, fun w x y z _ _ => elemIs_plainInt ?_⟩
    rw [← Int.natCast_mul, ofInt_natCast_sub, BitVec.ofNat_mul]
    rfl
  · refine ⟨fun w x y _ => plain (if toInt w x < toInt w y then x else y), rfl, rfl, rfl, rfl, fun w x y z _ _ => elemIs_plain ?_⟩
    rw [toInt_eq_toInt_ofNat, toInt_eq_toInt_ofNat, apply_ite (BitVec.ofNat w)]
    simp [Claims.intRow, BitVec.slt]
  · refine ⟨fun w x y _ => plain (if toInt w x > toInt w y then x else y), rfl, rfl, rfl, rfl, fun w x y z _ _ => elemIs_plain ?_⟩
    rw [toInt_eq_toInt_ofNat, toInt_eq_toInt_ofNat, apply_ite (BitVec.ofNat w)]
    simp [Claims.intRow, BitVec.slt]
  · refine ⟨fun _ x y _ => plain (min x y), rfl, rfl, rfl, rfl, fun w x y z hx hy => elemIs_plain ?_⟩
    rw [min_def_lt, apply_ite (BitVec.ofNat w)]
    simp [Claims.intRow, BitVec.ult, Nat.mod_eq_of_lt hx, Nat.mod_eq_of_lt hy]
  · refine ⟨fun _ x y _ => plain (max x y), rfl, rfl, rfl, rfl, fun w x y z hx hy => elemIs_plain ?_⟩
    rw [max_comm, max_def_lt, apply_ite (BitVec.ofNat w)]
    simp [Claims.intRow, BitVec.ult, Nat.mod_eq_of_lt hx, Nat.mod_eq_of_lt hy]
  · exact ⟨fun _ x y _ => plain (x &&& y), rfl, rfl, rfl, rfl, fun w x y z _ _ => elemIs_plain BitVec.ofNat_and⟩
  · exact ⟨fun _ x y _ => plain (x ||| y), rfl, rfl, rfl, rfl, fun w x y z _ _ => elemIs_plain BitVec.ofNat_or⟩
  · exact ⟨fun _ x y _ => plain (x ^^^ y), rfl, rfl, rfl, rfl, fun w x y z _ _ => elemIs_plain BitVec.ofNat_xor⟩
  · refine ⟨fun w x y _ => plain (x * 2 ^ (y % w)), rfl, rfl, rfl, rfl, fun w x y z hx hy => elemIs_plain ?_⟩
    refine BitVec.eq_of_toNat_eq ?_
    rw [Claims.intRow, Option.getD_some, toNat_ofNat_lt hy, BitVec.toNat_shiftLeft, toNat_ofNat_lt hx, Nat.shiftLeft_eq,
      BitVec.toNat_ofNat]
  · refine ⟨fun w x y _ => plain (x / 2 ^ (y % w)), rfl, rfl, rfl, rfl, fun w x y z hx hy => elemIs_plain ?_⟩
    refine BitVec.eq_of_toNat_eq ?_
    rw [Claims.intRow, Option.getD_some, toNat_ofNat_lt hy, BitVec.toNat_ushiftRight, toNat_ofNat_lt hx, Nat.shiftRight_eq_div_pow,
      toNat_ofNat_lt (Nat.lt_of_le_of_lt (Nat.div_le_self ..) hx)]
  · refine ⟨fun w x y _ => plainInt w (toInt w x / (2 ^ (y % w) : Nat)), rfl, rfl, rfl, rfl, fun w x y z _ hy => ?_⟩
    simp only [toInt_eq_toInt_ofNat]
    rw [Claims.intRow, Option.getD_some, toNat_ofNat_lt hy]
    exact elemIs_sra _ _

/-! ### The skeleton without flags -/

/-- The meaning of an integer vector instruction on a strand that may run it: the skeleton under a mask, whose element function
computes given values without flags. -/
def RunsElems (s : State) (i : Instr) (d : VReg) (f : Claims.ElemFn s.me.sewW) : Prop :=
  ∃ m g, exec i s = .next (vecRun s s.cur.place s.me (Claims.vecNeeds i) d m g) ∧
    (∀ e, e < 512 → (m.getLsbD e = true ↔ Claims.allElements i = true ∨ (s.me.m s.me.vec.vmsel).getLsbD e = true)) ∧
    ∀ e, ElemIs s.me.sewW (g (s.resided (Claims.vecNeeds i)) e) (f e) ∧ (f e).2 = 0

section
variable {s : State} {i : Instr} (hready : s.vecReady (Claims.vecNeeds i) = true)
include hready

theorem runsElems_of_vecOp {d : VReg} {f : Claims.ElemFn s.me.sewW} {g : Strand → Nat → ElemRes}
    (hexec : exec i s = vecOp s i (Claims.vecNeeds i) d g) (hcheck : s.vecCheck s.cur.place s.me i = none)
    (hall : Claims.allElements i = false) (hf : ∀ e, ElemIs s.me.sewW (g (s.resided (Claims.vecNeeds i)) e) (f e) ∧ (f e).2 = 0) :
    RunsElems s i d f :=
  ⟨_, g, hexec.trans (vecOp_ready hready hcheck d g), fun e _ => by simp [hall], hf⟩

theorem runsElems_intRow {d a : VReg} {b : VSrc} {r : BitVec s.me.sewW} (hregs : Claims.vregs i = some (d, a, b))
    (hrow : Claims.intRow s.me.sewW 0 0 0 i = some r) : RunsElems s i d fun e =>
      ((Claims.intRow s.me.sewW (Claims.el s.me a e) (Claims.src s.me b e) (Claims.el s.me d e) i).getD 0, 0) := by
  obtain ⟨g, hexec, hneeds, hcheck, hall, hg⟩ := exec_intRow hregs hrow
  refine runsElems_of_vecOp hready (hexec.trans (by rw [vintOp, hneeds])) hcheck hall fun e => ⟨?_, rfl⟩
  rw [State.srcElem_resided]
  exact hg _ _ _ _ (elem_lt ..) (srcElem_lt ..)

theorem runsElems_vmerge (c : Bool) (d a : VReg) (b : VSrc) (hi : i = .vmerge c d a b) : RunsElems s i d fun e =>
    (if (s.me.m s.me.vec.vmsel).getLsbD e then Claims.el s.me a e else Claims.src s.me b e, 0) := by
  subst hi
  obtain ⟨hb, ha, hv, -⟩ := State.vecReady_iff.mp hready
  have hexec : exec (.vmerge c d a b) s = execVmerge c d a b s := rfl
  refine ⟨_, _, hexec.trans (needLanes_of_vector hb hv _ _), fun e he => ?_, fun e => ⟨elemIs_plain ?_, rfl⟩⟩
  · rw [BitVec.getLsbD_allOnes, decide_eq_true he]
    exact iff_of_true rfl (.inl rfl)
  · rw [State.maskOf_alone ha, apply_ite (BitVec.ofNat s.me.sewW), State.srcElem_resided]
    rfl

theorem runsElems_vint {d : VReg} {f : Claims.ElemFn s.me.sewW} (h : Claims.vint s.me i = some (d, f)) : RunsElems s i d f := by
  unfold Claims.vint at h
  split at h
  case h_1 c _ a b =>
    cases h
    exact runsElems_vmerge hready c d a b rfl
  case h_2 c d' b =>
    cases h
    exact runsElems_of_vecOp hready rfl rfl rfl fun e => ⟨elemIs_plain (by rw [State.srcElem_resided]; rfl), rfl⟩
  case h_3 c d' a =>
    cases h
    refine runsElems_of_vecOp hready rfl rfl rfl fun e => ⟨?_, rfl⟩
    simp only [toInt_eq_toInt_ofNat]
    exact elemIs_abs _
  case h_4 =>
    split at h
    next hregs hrow =>
      cases h
      exact runsElems_intRow hready hregs hrow
    next => cases h

theorem RunsElems.result {d : VReg} {f : Claims.ElemFn s.me.sewW} (h : RunsElems s i d f) :
    ∃ m g, exec i s = .next (s.complete s.cur.place ((s.resided (Claims.vecNeeds i)).vectorDone d
        (computeElems (s.me.v d) s.me.sewW (activeIn m s.me.vec.vstart0 s.me.vec.vl) g).1 0)) ∧
      (∀ e, e < 512 → (m.getLsbD e = true ↔ Claims.allElements i = true ∨ (s.me.m s.me.vec.vmsel).getLsbD e = true)) ∧
      ∀ e, BitVec.ofNat s.me.sewW (g e).1 = (f e).1 := by
  obtain ⟨m, g, hexec, hm, hg⟩ := h
  have hflags : (computeElems (s.me.v d) s.me.sewW (activeIn m s.me.vec.vstart0 s.me.vec.vl)
      (g (s.resided (Claims.vecNeeds i)))).2 = 0 := by
    refine BitVec.eq_of_getLsbD_eq fun k _ => ?_
    rw [getLsbD_computeElems]
    simp [(hg _).1.2, (hg _).2]
  refine ⟨m, g (s.resided (Claims.vecNeeds i)), hexec.trans ?_, hm, fun e => (hg e).1.1⟩
  rw [vecRun_ready hready, hflags]

end

theorem Strand.elem_lt_512 (t : Strand) {e : Nat} (h : t.sewW * (e + 1) ≤ 4096) : e < 512 := by
  have hw : 8 ≤ t.sewW := Nat.le_mul_of_pos_right _ (Nat.two_pow_pos _)
  have hmul := Nat.mul_le_mul_right (e + 1) hw
  omega

/-- Settles O34. -/
theorem intVectorResults : Obligations.IntVectorResults := by
  intro i s d f hready hf
  obtain ⟨m, g, hexec, hm, hg⟩ := (runsElems_vint hready hf).result hready
  refine ⟨_, hexec, s.othersAs_complete _ _, s.memoryAs_complete _ _, ?_⟩
  rw [State.me_complete]
  refine ⟨fun e he => ?_, Claims.vectorFrame_resided (Claims.vectorFrame_vectorDone ..),
    by rw [Strand.complete_vec_vectorDone]; simp⟩
  rw [Strand.complete_v_vectorDone, elem_computeElems _ _ _ _ he]
  simp only [← hm e (s.me.elem_lt_512 he)]
  by_cases hactive : e ∈ activeIn m s.me.vec.vstart0 s.me.vec.vl
  · rw [if_pos hactive, if_pos (mem_activeIn.mp hactive), ofNat_mod_two_pow, hg]
  · rw [if_neg hactive, if_neg (hactive ∘ mem_activeIn.mpr)]

end Sys2Proof.Machine
end

section
/-!
PROOFS. What a scalar access leaves alone in every next state (O17): a trap, a wait and a completion change their strand and no byte but
those that a store writes.
-/
set_option Elab.async false

namespace Sys2Proof.Machine

/-- The strand that acts keeps its registers but one, and every other strand and every byte of memory is as before. -/
def State.keepsAllBut (s t : State) (d : SReg) : Prop := s.othersAs t s.cur.place ∧ s.me.keepsBut t.me d ∧ s.memoryAs t

theorem Strand.keepsBut_setS_complete (t : Strand) (d : SReg) (v : Word) : t.keepsBut (t.setS d v).complete d := by
  have htrap : (t.setS d v).complete.trap = t.trap := t.setS_trap d v
  refine ⟨fun r hr => Strand.s_setS_other t v hr, fun r => ?_, fun r => ?_, fun r => ?_, t.setS_vec d v, t.setS_task d v,
    by rw [htrap], by rw [htrap], by rw [htrap], by rw [htrap]⟩
  · exact congrArg (fun m => if r = 0 then BitVec.allOnes 512 else mgetD m r.val 0) (t.setS_masks d v)
  · exact congrArg (fun m => mgetD m r.val 0) (t.setS_vectors d v)
  · exact congrArg (fun m => if r = 0 then 0 else mgetD m r.val 0) (t.setS_routes d v)

section
variable {s : State} (d : SReg)

theorem State.keepsAllBut_setStrand {t : Strand} (h : s.me.keepsBut t d) : s.keepsAllBut (s.setStrand s.cur.place t) d :=
  ⟨s.othersAs_setStrand _ t, by rw [State.me_setStrand]; exact h, s.memoryAs_setStrand _ t⟩

theorem State.keepsAllBut_stall (l : Lack) : s.keepsAllBut (s.stall s.cur.place l) d :=
  State.keepsAllBut_setStrand d ⟨fun _ _ => rfl, fun _ => rfl, fun _ => rfl, fun _ => rfl, rfl, rfl, rfl, rfl, rfl, rfl⟩

/-- What becomes due later changes no strand and no byte. -/
theorem State.keepsAllBut_later {t : State} (h : s.keepsAllBut t d) (i : Instr) (g : Given) :
    s.keepsAllBut (t.later i g) d :=
  h

theorem State.keepsAllBut_askWalk (va kind : Nat) : s.keepsAllBut (s.askWalk s.cur.place va kind) d :=
  State.keepsAllBut_later d (State.keepsAllBut_stall d _) _ _

theorem State.keepsAllBut_stallFor (l : Lack) : s.keepsAllBut (s.stallFor s.cur.place l) d := by
  cases l with
  | line n => exact State.keepsAllBut_later d (State.keepsAllBut_stall d _) _ _
  | _ => exact State.keepsAllBut_stall d _

theorem State.keepsAllBut_raise (hd : s.delivers = true) (cause : Nat) (tval : Word) :
    s.keepsAllBut (s.raise s.cur.place cause tval) d := by
  simp only [State.delivers, Bool.and_eq_true, Bool.not_eq_true', bne_iff_ne, ne_eq] at hd
  obtain ⟨⟨hpriv, htvec⟩, hending⟩ := hd
  rw [State.raise_delivered _ _ _ hending hpriv htvec]
  exact State.keepsAllBut_setStrand d ⟨fun _ _ => rfl, fun _ => rfl, fun _ => rfl, fun _ => rfl, rfl, rfl, rfl, rfl, rfl, rfl⟩

theorem State.keepsAllBut_setS (v : Word) : s.keepsAllBut (s.complete s.cur.place (s.me.setS d v)) d :=
  State.keepsAllBut_setStrand d (s.me.keepsBut_setS_complete d v)

/-- A read that finds no poisoned byte ends in a completion or in a wait. -/
theorem State.keepsAllBut_finishLoad (sg : Bool) (n : Nat) {r : Fetched} (hr : ∀ a, r ≠ .poisoned a) :
    s.keepsAllBut (s.finishLoad s.cur.place s.me d sg n r) d := by
  cases r with
  | bytes b => exact State.keepsAllBut_setS d _
  | wait l => exact State.keepsAllBut_stallFor d l
  | poisoned a => exact absurd rfl (hr a)

end

/-! ### Loads -/

theorem State.fetchLocal_ne_poisoned {s : State} {p : Place} (h : (s.core p.core).bad = []) (off n a : Nat) :
    s.fetchLocal p off n ≠ .poisoned a := by
  have hclean : (s.core p.core).localPoisoned off n = false := by simp [Core.localPoisoned, h]
  simp only [State.fetchLocal, hclean]
  split <;> simp

theorem State.fetchPhys_ne_poisoned {s : State} (h : s.poisoned = []) (p : Place) (e : TlbEntry) (pa n a : Nat) :
    s.fetchPhys p e pa n ≠ .poisoned a := by
  have hclean : s.physPoisoned pa n = false := by simp [State.physPoisoned, h]
  simp only [State.fetchPhys, hclean]
  split
  · simp
  · simp
  · split
    · simp
    · split <;> simp

theorem State.dirty_modDie {s : State} {d : Nat} {f : Die → Die} (hf : ∀ x, (f x).dirty = x.dirty) (e : Nat) :
    ((s.modDie d f).die e).dirty = (s.die e).dirty := by
  by_cases he : e = d
  · rw [he, State.modDie, State.die_setDie_same, hf]
  · rw [State.modDie, State.die_setDie_other _ _ he]

/-- A granary that takes a copy of a host line changes no strand, no local byte and no device byte. -/
theorem State.cacheHostLine_frame (s : State) (d pa : Nat) :
    (s.cacheHostLine d pa).cores = s.cores ∧ (s.cacheHostLine d pa).cur = s.cur ∧
      ∀ e key gen x, isHost x = false → (s.cacheHostLine d pa).physByte e key gen x = s.physByte e key gen x := by
  unfold State.cacheHostLine
  split
  · refine ⟨rfl, rfl, fun e key gen x hx => ?_⟩
    simp only [State.physByte, hx, State.devByte]
    rw [State.dirty_modDie (by intro y; rfl)]
    rfl
  · exact ⟨rfl, rfl, fun _ _ _ _ _ => rfl⟩

/-! ### The frame of an access -/

/-- Every other strand, the strand's registers but one, and the local and physical bytes that two predicates choose are as before. -/
def State.keeps (s t : State) (d : SReg) (L : Nat → Nat → Prop) (M : Nat → Prop) : Prop :=
  s.othersAs t s.cur.place ∧ s.me.keepsBut t.me d ∧ (∀ c y, L c y → (t.core c).readLocalByte y = (s.core c).readLocalByte y) ∧
    ∀ e key gen pa, M pa → t.physByte e key gen pa = s.physByte e key gen pa

theorem State.keepsAllBut.keeps {s t : State} {d : SReg} (h : s.keepsAllBut t d) (L : Nat → Nat → Prop) (M : Nat → Prop) :
    s.keeps t d L M := by
  obtain ⟨hothers, hme, hbytes, hlocal⟩ := h
  exact ⟨hothers, hme, fun c y _ => hlocal c y, fun e key gen pa _ => hbytes e key gen pa⟩

theorem loadOp_keeps {s t : State} {d a : SReg} {imm : BitVec 13} {n : Nat} {sg : Bool} (hd : s.delivers = true)
    (hpoison : s.poisoned = []) (hbad : (s.core s.cur.place.core).bad = []) (h : loadOp s d a imm n sg = .next t) :
    s.keeps t d (fun _ _ => True) (fun pa => isHost pa = false) := by
  obtain ⟨-, rfl⟩ := onStrand_next h
  dsimp only
  split
  case h_1 c htarget => exact (State.keepsAllBut_raise d hd _ _).keeps ..
  case h_2 htarget => exact (State.keepsAllBut_askWalk d _ _).keeps ..
  case h_3 off htarget => exact (State.keepsAllBut_finishLoad d sg n (State.fetchLocal_ne_poisoned hbad off n)).keeps ..
  case h_4 pa e htarget =>
    obtain ⟨hcores, hcur, hbytes⟩ := s.cacheHostLine_frame (dieOf s.cur.place.core) pa
    have hstrand := State.strand_of_cores hcores
    have hme : (s.cacheHostLine (dieOf s.cur.place.core) pa).me = s.me := by rw [State.me, hcur, hstrand]; rfl
    have hload := State.keepsAllBut_finishLoad (s := s.cacheHostLine (dieOf s.cur.place.core) pa) d sg n
      (State.fetchPhys_ne_poisoned hpoison s.cur.place e pa n)
    rw [hcur, hme] at hload
    obtain ⟨ho, hm, hb, hl⟩ := hload
    rw [hcur] at ho
    rw [hme] at hm
    exact ⟨fun q hq => (ho q hq).trans (hstrand q), hm, fun c y _ => (hl c y).trans (by rw [State.core_of_cores hcores]),
      fun e' key gen x hx => (hb e' key gen x).trans (hbytes e' key gen x hx)⟩

/-- A change of a core that leaves its strands, followed by the completion of the strand that acts. -/
theorem State.keeps_modCore_complete {s : State} {f : Core → Core} (hf : ∀ x, (f x).strands = x.strands) {L : Nat → Nat → Prop}
    (hL : ∀ c y, L c y → ((s.modCore s.cur.place.core f).core c).readLocalByte y = (s.core c).readLocalByte y)
    (M : Nat → Prop) : s.keeps ((s.modCore s.cur.place.core f).complete s.cur.place s.me) 0 L M := by
  obtain ⟨hbytes, hlocal⟩ := (s.modCore s.cur.place.core f).memoryAs_complete s.cur.place s.me
  have hothers := (s.modCore s.cur.place.core f).othersAs_complete s.cur.place s.me
  have hme : ((s.modCore s.cur.place.core f).complete s.cur.place s.me).me = s.me.complete :=
    State.me_complete (s.modCore s.cur.place.core f) s.me
  refine ⟨fun q hq => (hothers q hq).trans (State.strand_modCore hf q), ?_, fun c y h => (hlocal c y).trans (hL c y h),
    fun e key gen pa _ => hbytes e key gen pa⟩
  rw [hme]
  exact ⟨fun _ _ => rfl, fun _ => rfl, fun _ => rfl, fun _ => rfl, rfl, rfl, rfl, rfl, rfl, rfl⟩

theorem storeOp_keeps {s t : State} {b a : SReg} {imm : BitVec 13} {n : Nat} (hd : s.delivers = true)
    (h : storeOp s b a imm n = .next t) :
    s.keeps t 0 (fun c y => ∀ off, s.target s.cur.place s.me (effAddr s.me a imm) n 1 = .buffer off →
      c ≠ s.cur.place.core ∨ y < off ∨ off + n ≤ y) (fun _ => True) := by
  obtain ⟨-, rfl⟩ := onStrand_next h
  dsimp only
  split
  case h_1 c htarget => exact (State.keepsAllBut_raise 0 hd _ _).keeps ..
  case h_2 htarget => exact (State.keepsAllBut_askWalk 0 _ _).keeps ..
  case h_3 off htarget =>
    unfold State.localAccess
    split
    · exact (State.keepsAllBut_stall 0 _).keeps ..
    · refine State.keeps_modCore_complete (fun x => Core.writeLocal_strands ..) (fun c y hy => ?_) _
      by_cases hc : c = s.cur.place.core
      · have hout := (hy off htarget).resolve_left (not_not.mpr hc)
        rw [hc, State.modCore, State.core_setCore_same, Core.readLocalByte_writeLocal_outside _ _ _ (by rwa [length_leBytes])]
      · rw [State.modCore, State.core_setCore_other _ _ hc]
  case h_4 pa e htarget =>
    split
    · exact (State.keepsAllBut_stall 0 _).keeps ..
    · refine State.keeps_modCore_complete (by intro x; rfl) (fun c y _ => ?_) _
      by_cases hc : c = s.cur.place.core
      · rw [hc, State.modCore, State.core_setCore_same]
        rfl
      · rw [State.modCore, State.core_setCore_other _ _ hc]

/-- Settles O17. -/
theorem accessFrame : Obligations.AccessFrame := by
  refine ⟨fun i s t d a imm n sg hform hd hpoison hbad h => ?_, fun i s t b a imm n hform hd h => ?_⟩
  · obtain ⟨hothers, hme, hlocal, hbytes⟩ := loadOp_keeps hd hpoison hbad ((exec_loadForm hform).symm.trans h)
    exact ⟨hothers, hme, fun c y => hlocal c y trivial, hbytes⟩
  · obtain ⟨hothers, hme, hlocal, hbytes⟩ := storeOp_keeps hd ((exec_storeForm hform).symm.trans h)
    exact ⟨hothers, hme, fun e key gen pa => hbytes e key gen pa trivial, hlocal⟩

end Sys2Proof.Machine
end

section
/-!
PROOFS. What the walks of tables, the page service, the granary and the elements of a vector access leave of the strands: all of them.
-/
set_option Elab.async false

namespace Sys2Proof.Machine

/-- The same cores act for the same strand. -/
def State.coresAs (s t : State) : Prop := t.cores = s.cores ∧ t.cur = s.cur

/-- The same strand acts, and every strand is as before. -/
def State.strandsAs (s t : State) : Prop := t.cur = s.cur ∧ ∀ q, t.strand q = s.strand q

section
variable {s t u : State}

theorem State.coresAs.refl (s : State) : s.coresAs s := ⟨rfl, rfl⟩

theorem State.coresAs.trans (h : s.coresAs t) (h' : t.coresAs u) : s.coresAs u := ⟨h'.1.trans h.1, h'.2.trans h.2⟩

theorem State.coresAs.strandsAs (h : s.coresAs t) : s.strandsAs t := ⟨h.2, State.strand_of_cores h.1⟩

theorem State.coresAs_foldl {α : Type} {f : State → α → State} (hf : ∀ (s : State) a, s.coresAs (f s a)) (l : List α) (s : State) :
    s.coresAs (l.foldl f s) := by
  induction l generalizing s with
  | nil => exact .refl s
  | cons a l ih => exact (hf s a).trans (ih _)

theorem State.strandsAs.refl (s : State) : s.strandsAs s := ⟨rfl, fun _ => rfl⟩

theorem State.strandsAs.trans (h : s.strandsAs t) (h' : t.strandsAs u) : s.strandsAs u :=
  ⟨h'.1.trans h.1, fun q => (h'.2 q).trans (h.2 q)⟩

theorem State.strandsAs.me (h : s.strandsAs t) : t.me = s.me := by rw [State.me, h.1, h.2, State.me]

theorem State.strandsAs_foldl {α : Type} {f : State → α → State} (hf : ∀ (s : State) a, s.strandsAs (f s a)) (l : List α)
    (s : State) : s.strandsAs (l.foldl f s) := by
  induction l generalizing s with
  | nil => exact .refl s
  | cons a l ih => exact (hf s a).trans (ih _)

theorem State.strandsAs_modCore (s : State) (c : Nat) {f : Core → Core} (hf : ∀ x, (f x).strands = x.strands) :
    s.strandsAs (s.modCore c f) := ⟨rfl, State.strand_modCore hf⟩

/-- A strand changed at the acting place, from a state that the same strands are in. -/
theorem State.strandsAs.othersAs_setStrand (h : s.strandsAs t) (x : Strand) :
    s.othersAs (t.setStrand s.cur.place x) s.cur.place :=
  fun q hq => (t.othersAs_setStrand _ x q hq).trans (h.2 q)

theorem State.strandsAs.me_setStrand (h : s.strandsAs t) (x : Strand) : (t.setStrand s.cur.place x).me = x := by
  rw [← h.1]
  exact t.me_setStrand x

end

/-! ### Tables, translations and the page service -/

section
variable (s : State)

theorem State.coresAs_writeBack (d l : Nat) : s.coresAs (s.writeBack d l) := ⟨rfl, rfl⟩

theorem State.coresAs_rawWrite (pa : Nat) (b : List Byte) : s.coresAs (s.rawWrite pa b) :=
  (State.coresAs_foldl (fun s l => State.coresAs_foldl (fun s d => s.coresAs_writeBack d l) _ s) _ s).trans ⟨rfl, rfl⟩

theorem State.coresAs_markLeaf (d a : Nat) (store : Bool) : s.coresAs (s.markLeaf d a store) := by
  unfold State.markLeaf
  extract_lets e marked
  split
  · exact .refl s
  · exact s.coresAs_rawWrite ..

theorem State.coresAs_keepLevels (d ctx va : Nat) : s.coresAs (s.keepLevels d ctx va) := by
  unfold State.keepLevels
  split <;> exact ⟨rfl, rfl⟩

theorem State.strandsAs_fillTlb (c : Nat) (e : TlbEntry) : s.strandsAs (s.fillTlb c e) := by
  unfold State.fillTlb
  extract_lets v same s1 s2
  have h1 : s.strandsAs s1 := s.strandsAs_modCore c (by intro x; rfl)
  exact h1.trans (State.coresAs.strandsAs ⟨rfl, rfl⟩)

theorem State.strandsAs_translate (c va kind : Nat) : s.strandsAs (s.translate c va kind).1 := by
  unfold State.translate
  dsimp only
  split
  · exact .refl s
  · split
    · exact s.strandsAs_fillTlb ..
    · split
      · exact (((s.coresAs_markLeaf ..).trans (State.coresAs_markLeaf ..)).trans (State.coresAs_keepLevels ..)).strandsAs.trans
          (State.strandsAs_fillTlb ..)
      · exact (s.coresAs_keepLevels ..).strandsAs

theorem State.coresAs_setBusy (d ctx va : Nat) (v : Bool) : s.coresAs (s.setBusy d ctx va v) := by
  unfold State.setBusy
  split
  · exact .refl s
  · split
    · exact .refl s
    · exact s.coresAs_rawWrite ..

theorem State.coresAs_openService (d ctx : Nat) (x : Xlat) (va : Nat) (write : Bool) (who : Option Place) :
    s.coresAs (s.openService d ctx x va write who) := by
  unfold State.openService
  split
  · exact .refl s
  · extract_lets y stn host r s1 s2 q
    split
    · exact ⟨rfl, rfl⟩
    · split
      · exact .refl s
      · have h2 : s.coresAs s2 := by
          refine State.coresAs.trans (t := s1) ⟨rfl, rfl⟩ ?_
          unfold s2
          split
          · exact .refl s1
          · exact s1.coresAs_setBusy ..
        split <;> exact h2.trans ⟨rfl, rfl⟩

/-! ### Memory -/

theorem State.coresAs_releaseEffect (p : Place) (scope : Nat) : s.coresAs (s.releaseEffect p scope) := by
  unfold State.releaseEffect
  split
  · exact State.coresAs_foldl (fun s l => s.coresAs_writeBack _ l) _ s
  · exact .refl s

theorem State.coresAs_acquireEffect (p : Place) (scope : Nat) : s.coresAs (s.acquireEffect p scope) :=
  ⟨s.acquireEffect_cores p scope, s.acquireEffect_cur p scope⟩

theorem State.coresAs_cacheHostLine (d pa : Nat) : s.coresAs (s.cacheHostLine d pa) := by
  obtain ⟨hcores, hcur, -⟩ := s.cacheHostLine_frame d pa
  exact ⟨hcores, hcur⟩

theorem State.coresAs_freshenLine (line : Nat) (key : Key) (gen : Nat) : s.coresAs (s.freshenLine line key gen) := by
  refine State.coresAs.trans (t := s.retagLine line gen) ?_ ⟨rfl, rfl⟩
  unfold State.retagLine
  split <;> exact ⟨rfl, rfl⟩

theorem State.coresAs_physWrite (d core : Nat) (key : Key) (gen pa : Nat) (bs : List Byte) :
    s.coresAs (s.physWrite d core key gen pa bs) := by
  induction bs generalizing s pa with
  | nil => exact .refl s
  | cons b bs ih =>
    have hline : s.coresAs (if isHost pa then s else s.freshenLine (pa / 64) key gen) := by
      split
      · exact .refl s
      · exact s.coresAs_freshenLine ..
    exact (hline.trans ⟨rfl, rfl⟩).trans (ih _ _)

/-! ### The elements of a vector access -/

theorem State.strandsAs_vlocate (p : Place) (t : Strand) (a : VAccess) (x : Int) : s.strandsAs (s.vlocate p t a x).1 := by
  obtain h | h := s.vlocate_cases p t a x
  · rw [h]; exact .refl s
  · rw [h]; exact s.strandsAs_translate ..

theorem State.strandsAs_vscan (p : Place) (t : Strand) (a : VAccess) (addr : Nat → Int) (is : List Nat) :
    s.strandsAs (s.vscan p t a addr is).st := by
  induction is generalizing s with
  | nil => exact .refl s
  | cons i r ih =>
    have hlocate := s.strandsAs_vlocate p t a (addr i)
    rw [State.vscan]
    dsimp only
    split
    · exact hlocate
    · split
      · exact hlocate
      · exact hlocate.trans (ih _)

theorem State.coresAs_vcache (p : Place) (good : List (Nat × VLoc)) : s.coresAs (s.vcache p good) :=
  State.coresAs_foldl (fun s e => by
    obtain ⟨-, l⟩ := e
    cases l with
    | buffer off => exact .refl s
    | phys pa x => exact s.coresAs_cacheHostLine _ pa) good s

theorem State.strandsAs_vwrite (p : Place) (a : VAccess) (v : Nat) (l : VLoc) : s.strandsAs (s.vwrite p a v l) := by
  cases l with
  | buffer off => exact s.strandsAs_modCore p.core fun x => Core.writeLocal_strands ..
  | phys pa e => exact (s.coresAs_physWrite ..).strandsAs

/-- The elements that a scan reaches are the first of those it is given, in their order. -/
theorem State.vscan_good_prefix (p : Place) (t : Strand) (a : VAccess) (addr : Nat → Int) (is : List Nat) :
    (s.vscan p t a addr is).good.map Prod.fst <+: is := by
  induction is generalizing s with
  | nil => exact List.prefix_rfl
  | cons i r ih =>
    rw [State.vscan]
    dsimp only
    split
    · exact List.nil_prefix
    · split
      · exact List.nil_prefix
      · exact List.cons_prefix_cons.mpr ⟨rfl, ih _⟩

end

end Sys2Proof.Machine
end

section
/-!
PROOFS. Bytes written to memory by a core are there for its die (R126, R246, R248): a byte that the die holds dirty under its line's
generation stays so until the byte or its line's generation is written.
-/
set_option Elab.async false

namespace Sys2Proof.Machine

/-- A die holds a byte of memory dirty, under a generation if it is device memory. -/
def State.holdsByte (s : State) (d gen pa : Nat) (b : Byte) : Prop :=
  mget (s.die d).dirty pa = some b ∧ (isHost pa = false → mgetD s.lineTag (pa / 64) 0 = gen)

theorem State.physByte_of_holdsByte {s : State} {d gen pa : Nat} {b : Byte} (h : s.holdsByte d gen pa b) (key : Key) :
    s.physByte d key gen pa = b := by
  obtain ⟨hdirty, htag⟩ := h
  unfold State.physByte
  split
  next => simp only [State.hostByte, hdirty]
  next hhost =>
    rw [Bool.not_eq_true] at hhost
    simp only [State.devByte, htag hhost, hdirty, ne_eq, not_true_eq_false, if_false]

theorem isHost_of_line {a b : Nat} (h : a / 64 = b / 64) : isHost a = isHost b := by
  unfold isHost hostBase
  rw [decide_eq_decide]
  omega

/-- Whether a write at an address under a generation leaves what a die holds at another: it is host memory, the line keeps its
generation, or it is another line. -/
def leavesTag (y gen a gen' : Nat) : Prop := gen' = gen ∨ isHost y = true ∨ y / 64 ≠ a / 64

section
variable {s : State} {d gen y : Nat} {b : Byte}

theorem State.holdsByte_retagLine (h : s.holdsByte d gen y b) {a gen' : Nat} (ha : isHost a = false) (htag : leavesTag y gen a gen') :
    (s.retagLine (a / 64) gen').holdsByte d gen y b := by
  obtain ⟨hdirty, hgen⟩ := h
  unfold State.retagLine
  split
  next => exact ⟨hdirty, hgen⟩
  next hstale =>
    have hline : y / 64 ≠ a / 64 := by
      intro hsame
      have hy : isHost y = false := (isHost_of_line hsame).trans ha
      rcases htag with rfl | hhost | hline
      · exact hstale (hsame ▸ hgen hy)
      · rw [hy] at hhost; cases hhost
      · exact hline hsame
    refine ⟨?_, fun hy => ?_⟩
    · simp only [State.die, mgetD, mget_mmap]
      cases hdie : mget s.dies d with
      | none => simp [State.die, mgetD, hdie] at hdirty ⊢; exact hdirty
      | some x =>
        have hx : mget x.dirty y = some b := by simpa [State.die, mgetD, hdie] using hdirty
        simpa [mget_mdelRange_outside x.dirty (show y < 64 * (a / 64) ∨ 64 * (a / 64) + 64 ≤ y by omega)] using hx
    · rw [mgetD_mput, if_neg hline]
      exact hgen hy

theorem State.holdsByte_rekeyLine (h : s.holdsByte d gen y b) (line : Nat) (key : Key) : (s.rekeyLine line key).holdsByte d gen y b := h

/-- The line that a byte is written to, made current before it. -/
theorem State.holdsByte_currentLine (h : s.holdsByte d gen y b) {a gen' : Nat} (key : Key) (htag : leavesTag y gen a gen') :
    (if isHost a then s else s.freshenLine (a / 64) key gen').holdsByte d gen y b := by
  split
  next => exact h
  next ha => exact State.holdsByte_rekeyLine (State.holdsByte_retagLine h (by simpa using ha) htag) _ key

theorem State.mget_dirty_granaryByte (core a : Nat) (c : Byte) :
    mget ((s.granaryByte d core a c).die d).dirty y = if y = a then some c else mget (s.die d).dirty y := by
  rw [State.granaryByte, State.modDie, State.die_setDie_same, mget_mset]

theorem State.tag_currentLine (a : Nat) (key : Key) (gen' : Nat) (ha : isHost a = false) :
    mgetD (if isHost a then s else s.freshenLine (a / 64) key gen').lineTag (a / 64) 0 = gen' := by
  rw [ha]
  show mgetD (s.retagLine (a / 64) gen').lineTag (a / 64) 0 = gen'
  unfold State.retagLine
  split
  next htag => exact htag
  next => rw [mgetD_mput, if_pos rfl]

theorem State.holdsByte_granaryByte (h : s.holdsByte d gen y b) (core : Nat) {a : Nat} (c : Byte) (ha : y ≠ a) :
    (({ s with poisoned := mdel s.poisoned a }).granaryByte d core a c).holdsByte d gen y b := by
  obtain ⟨hdirty, hgen⟩ := h
  exact ⟨(State.mget_dirty_granaryByte core a c).trans ((if_neg ha).trans hdirty), hgen⟩

theorem State.holdsByte_granaryByte_same (core : Nat) {a : Nat} (c : Byte)
    (htag : isHost a = false → mgetD s.lineTag (a / 64) 0 = gen) :
    (({ s with poisoned := mdel s.poisoned a }).granaryByte d core a c).holdsByte d gen a c :=
  ⟨(State.mget_dirty_granaryByte core a c).trans (if_pos rfl), htag⟩

/-- Bytes written elsewhere leave what a die holds. -/
theorem State.holdsByte_physWrite (h : s.holdsByte d gen y b) (core : Nat) (key : Key) (gen' a : Nat) (bs : List Byte)
    (hout : y < a ∨ a + bs.length ≤ y) (htag : ∀ i, i < bs.length → leavesTag y gen (a + i) gen') :
    (s.physWrite d core key gen' a bs).holdsByte d gen y b := by
  induction bs generalizing s a with
  | nil => exact h
  | cons c bs ih =>
    rw [List.length_cons] at hout htag
    rw [State.physWrite]
    refine ih (State.holdsByte_granaryByte (State.holdsByte_currentLine h key (htag 0 (by omega))) core c (by omega)) (a + 1)
      (by omega) fun i hi => ?_
    have := htag (i + 1) (by omega)
    rwa [← Nat.add_assoc, Nat.add_right_comm] at this

/-- A die holds what one of its cores has written. -/
theorem State.holdsByte_physWrite_same (core : Nat) (key : Key) (a : Nat) (bs : List Byte) {j : Nat} (hb : bs[j]? = some b) :
    (s.physWrite d core key gen a bs).holdsByte d gen (a + j) b := by
  induction bs generalizing s a j with
  | nil => cases hb
  | cons c bs ih =>
    cases j with
    | zero =>
      cases hb
      rw [State.physWrite]
      exact State.holdsByte_physWrite (State.holdsByte_granaryByte_same core b (State.tag_currentLine a key gen)) core key gen (a + 1)
        bs (by omega) fun i _ => .inl rfl
    | succ j =>
      rw [State.physWrite, Nat.add_comm j 1, ← Nat.add_assoc]
      exact ih (a + 1) hb

end

/-! ### Local bytes -/

theorem Core.readLocalByte_writeLocal_inside (x : Core) (a : Nat) (bs : List Byte) {j : Nat} {b : Byte} (hb : bs[j]? = some b) :
    (x.writeLocal a bs).readLocalByte (a + j) = b := by
  induction bs generalizing x a j with
  | nil => cases hb
  | cons c bs ih =>
    cases j with
    | zero =>
      cases hb
      rw [Core.writeLocal, Core.readLocalByte_writeLocal_outside _ _ _ (by omega), Core.readLocalByte_writeLocalByte]
      exact if_pos rfl
    | succ j =>
      have := ih (x.writeLocalByte a c) (a + 1) (j := j) hb
      rwa [Nat.add_assoc, Nat.add_comm 1 j] at this

theorem getElem?_leBytes (n v : Nat) {j : Nat} (hj : j < n) : (leBytes n v)[j]? = some (BitVec.ofNat 8 (v / 256 ^ j)) := by
  induction n generalizing v j with
  | zero => omega
  | succ n ih =>
    cases j with
    | zero => simp [leBytes]
    | succ j => rw [leBytes, List.getElem?_cons_succ, ih _ (by omega), Nat.div_div_eq_div_mul, Nat.pow_succ']

end Sys2Proof.Machine
end

section
/-!
PROOFS. An element of a vector access (O42): its checks in the order of R167, the elements loaded before one that fails, and what the
failure does to the strand (R56, R74, R167, R356).
-/
set_option Elab.async false

namespace Sys2Proof.Machine

/-! ### The checks of one element -/

/-- Where the units of a buffer end that vector accesses reach (R32, R47). -/
theorem inBuffer_iff {space n : Nat} {x : Int} (hsize : n = 1 ∨ n = 2 ∨ n = 4) (h1 : 1 ≤ space) (h4 : space ≤ 4)
    (halign : x % (n : Int) = 0) :
    (0 ≤ x && inBuffer space x.toNat n) = true ↔
      0 ≤ x ∧ x < if space = 1 then 98304 else if space = 4 then 24576 else 65536 := by
  have hbound : inBuffer space x.toNat n = true ↔ x.toNat + n ≤ if space = 1 then 98304 else if space = 4 then 24576 else 65536 := by
    have hlimit : (if space = 4 then loftBase else bufSize space) = if space = 1 then 98304 else if space = 4 then 24576 else 65536 := by
      interval_cases space <;> rfl
    simp [inBuffer, hlimit, h1, h4]
  rw [Bool.and_eq_true, decide_eq_true_eq, hbound]
  rcases hsize with rfl | rfl | rfl <;> split_ifs <;> omega

section
variable {s : State} {p : Place} {t : Strand} {a : VAccess} {x : Int} (hslot : a.slot = none)
include hslot

theorem vlocate_buffers (hsize : a.size = 1 ∨ a.size = 2 ∨ a.size = 4) (h1 : 1 ≤ a.space) (h4 : a.space ≤ 4) :
    (x % (a.size : Int) ≠ 0 → (s.vlocate p t a x).2 = .error (.trap causeMisalign (tvalOf x))) ∧
    (x % (a.size : Int) = 0 → (x < 0 ∨ (if a.space = 1 then 98304 else if a.space = 4 then 24576 else 65536) ≤ x) →
      (s.vlocate p t a x).2 = .error (.trap causeSpace (tvalOf x))) ∧
    (x % (a.size : Int) = 0 → 0 ≤ x → x < (if a.space = 1 then 98304 else if a.space = 4 then 24576 else 65536) →
      (s.vlocate p t a x).2 = .ok (.buffer (bufBase a.space + x.toNat))) := by
  have hspace : a.space ≠ 0 := by omega
  simp only [State.vlocate, hslot, hspace, Bool.false_eq_true, if_false]
  refine ⟨fun h => by rw [if_pos h], fun h hout => ?_, fun h h0 hlt => ?_⟩
  · rw [if_neg (not_not.mpr h), if_neg]
    rw [inBuffer_iff hsize h1 h4 h]
    omega
  · rw [if_neg (not_not.mpr h), if_pos ((inBuffer_iff hsize h1 h4 h).mpr ⟨h0, hlt⟩)]

theorem vlocate_memory (h0 : a.space = 0) {v : Word} (hv : tvalOf x = v) :
    (v.toNat % a.size ≠ 0 → (s.vlocate p t a x).2 = .error (.trap causeMisalign v)) ∧
    (v.toNat % a.size = 0 → 2 ^ 57 ≤ v.toNat → (s.vlocate p t a x).2 = .error (.trap (pageCause a.kind) v)) ∧
    (v.toNat % a.size = 0 → v.toNat < 2 ^ 57 →
      (∀ e, (s.translate p.core v.toNat a.kind).2 = .ok e → (s.vlocate p t a x).2 = .ok (.phys (e.pa v.toNat) e)) ∧
      ((s.translate p.core v.toNat a.kind).2 = .error .bad → (s.vlocate p t a x).2 = .error (.trap (pageCause a.kind) v)) ∧
      ((s.translate p.core v.toNat a.kind).2 = .error .evicted → t.walked = none →
        (s.vlocate p t a x).2 = .error (.page v a.kind .evicted))) := by
  simp only [State.vlocate, hslot, h0, hv, Bool.false_eq_true, if_false, if_true]
  refine ⟨fun h => by rw [if_pos h], fun h hhigh => by rw [if_neg (not_not.mpr h), if_pos hhigh], fun h hlow => ?_⟩
  rw [if_neg (not_not.mpr h), if_neg (not_le.mpr hlow)]
  refine ⟨fun e he => by rw [he], fun he => by rw [he]; rfl, fun he hw => ?_⟩
  rw [he]
  simp [Xlat.satisfiable, hw]

end

/-- The page-fault cause of a load or a store. -/
theorem pageCause_of_le_one {kind : Nat} (h : kind ≤ 1) : pageCause kind = if kind = 0 then causeLoadPage else causeStorePage := by
  have hkind : kind ≠ 2 := by omega
  simp [pageCause, hkind]

/-! ### The elements loaded below a fault -/

theorem leNat_lt (l : List Byte) : leNat l < 256 ^ l.length := by
  induction l with
  | nil => simp [leNat]
  | cons b l ih =>
    have hb := b.isLt
    rw [leNat, List.length_cons, Nat.pow_succ]
    omega

theorem Core.length_readLocal (x : Core) (a n : Nat) : (x.readLocal a n).length = n := by
  induction n generalizing a with
  | zero => rfl
  | succ n ih => rw [Core.readLocal, List.length_cons, ih]

theorem State.length_physRead (s : State) (d : Nat) (key : Key) (gen a n : Nat) : (s.physRead d key gen a n).length = n := by
  induction n generalizing a with
  | zero => rfl
  | succ n ih => rw [State.physRead, List.length_cons, ih]

theorem State.vread_lt (s : State) (p : Place) (a : VAccess) (l : VLoc) : s.vread p a l < 2 ^ (8 * a.size) := by
  rw [Nat.pow_mul]
  cases l with
  | buffer off => simpa [State.vread, Core.length_readLocal] using leNat_lt ((s.core p.core).readLocal off a.size)
  | phys pa e => simpa [State.vread, State.length_physRead] using leNat_lt (s.physRead (dieOf p.core) e.key e.gen pa a.size)

/-- Elements set to what a function gives at the places of a list that names each at most once. -/
theorem elem_foldl_setElem (w : Nat) (g : VLoc → Nat) (good : List (Nat × VLoc)) (hnodup : (good.map Prod.fst).Nodup) (img : VImage)
    {k : Nat} (hk : w * (k + 1) ≤ 4096) :
    let r := good.foldl (fun (m : VImage) e => setElem m w e.1 (g e.2)) img
    (∀ l, (k, l) ∈ good → elem r w k = g l % 2 ^ w) ∧ ((∀ l, (k, l) ∉ good) → elem r w k = elem img w k) := by
  induction good generalizing img with
  | nil => exact ⟨fun _ h => absurd h List.not_mem_nil, fun _ => rfl⟩
  | cons e good ih =>
    obtain ⟨i, v⟩ := e
    obtain ⟨hi, hnodup⟩ := List.nodup_cons.mp hnodup
    obtain ⟨hin, hout⟩ := ih hnodup (setElem img w i (g v))
    rw [List.foldl_cons]
    refine ⟨fun l hl => ?_, fun hnone => ?_⟩
    · rcases List.mem_cons.mp hl with heq | hl
      · cases heq
        rw [hout fun l hl => hi (List.mem_map.mpr ⟨(k, l), hl, rfl⟩), elem_setElem_same _ _ hk]
      · exact hin l hl
    · have hki : k ≠ i := fun h => hnone v (h ▸ List.mem_cons_self)
      rw [hout fun l hl => hnone l (List.mem_cons_of_mem _ hl), elem_setElem_other _ _ hk hki]

theorem nodup_activeIn (m : MImage) (lo hi : Nat) : (activeIn m lo hi).Nodup := by
  refine List.Nodup.filterMap (fun a b c ha hb => ?_) List.nodup_range
  simp only [Option.mem_def, Option.ite_none_right_eq_some, Option.some.injEq] at ha hb
  omega

/-- A register image whose elements are those of an access below its fault, and the rest the register's. -/
def LoadedImage (s : State) (p : Place) (d : VReg) (f : VForm) (c : VScan) (img : VImage) : Prop :=
  ∀ k, s.me.sewW * (k + 1) ≤ 4096 →
    (∀ l, (k, l) ∈ c.good → elem img s.me.sewW k = (c.st.vcache p c.good).vread p f.acc l) ∧
    ((∀ l, (k, l) ∉ c.good) → elem img s.me.sewW k = elem (s.me.v d) s.me.sewW k)

theorem LoadedImage.loadedBelow {s t : State} {p : Place} {d : VReg} {f : VForm} {c : VScan} {img : VImage}
    (h : LoadedImage s p d f c img) (ht : t.me.vectors = (s.me.setV d img).vectors) : Claims.loadedBelow s t p d f c := by
  have hv : ∀ r, t.me.v r = (s.me.setV d img).v r := Strand.v_of_vectors ht
  refine ⟨fun r hr => (hv r).trans (Strand.v_setV_other _ _ hr), fun k hk => ?_⟩
  obtain ⟨hin, hout⟩ := h k hk
  rw [hv, Strand.v_setV_same]
  split
  next g hg =>
    obtain ⟨i, l⟩ := g
    obtain rfl : i = k := by simpa using List.find?_some hg
    exact hin l (List.mem_of_find?_eq_some hg)
  next hg => exact hout fun l hl => by simpa using List.find?_eq_none.mp hg (k, l) hl

theorem loadedImage_foldl {s : State} (p : Place) (d : VReg) {f : VForm} (hsize : 8 * f.acc.size = s.me.sewW) {c : VScan}
    (hnodup : (c.good.map Prod.fst).Nodup) :
    LoadedImage s p d f c (c.good.foldl (fun (m : VImage) (e : Nat × VLoc) =>
      setElem m (8 * f.acc.size) e.1 ((c.st.vcache p c.good).vread p f.acc e.2)) (s.me.v d)) := by
  intro k hk
  rw [← hsize] at hk ⊢
  obtain ⟨hin, hout⟩ := elem_foldl_setElem (8 * f.acc.size) ((c.st.vcache p c.good).vread p f.acc) c.good hnodup (s.me.v d) hk
  exact ⟨fun l hl => (hin l hl).trans (Nat.mod_eq_of_lt (State.vread_lt ..)), hout⟩

theorem loadedImage_nil {s : State} (p : Place) (d : VReg) (f : VForm) {c : VScan} (hc : c.good = []) :
    LoadedImage s p d f c (s.me.v d) :=
  fun _ _ => ⟨fun _ hl => absurd (hc ▸ hl) List.not_mem_nil, fun _ => rfl⟩

/-! ### What the fault does -/

/-- A strand that differs from another at most in its vector registers and where they lie. -/
def Strand.sameButVectors (t u : Strand) : Prop :=
  ∃ m l r st n, u = { t with vectors := m, loft := l, inRecord := r, stamps := st, issueNo := n }

theorem State.sameButVectors_resided (s : State) (needs : List (Nat × Bool)) : s.me.sameButVectors (s.resided needs) :=
  ⟨_, _, _, _, _, rfl⟩

theorem State.sameButVectors_setV (s : State) (needs : List (Nat × Bool)) (d : VReg) (img : VImage) :
    s.me.sameButVectors ((s.resided needs).setV d img) := ⟨_, _, _, _, _, rfl⟩

/-- The strand that acts has become another, and every other strand is as before. -/
def State.changedTo (s t : State) (u : Strand) : Prop := t.cur = s.cur ∧ t.me = u ∧ s.othersAs t s.cur.place

section
variable {s t : State} {u : Strand}

theorem State.changedTo.setStrand (h : s.changedTo t u) (v : Strand) : s.changedTo (t.setStrand s.cur.place v) v := by
  obtain ⟨hcur, -, hothers⟩ := h
  refine ⟨hcur, ?_, hothers.trans (t.othersAs_setStrand _ v)⟩
  rw [← hcur]
  exact t.me_setStrand v

theorem State.strandsAs.changedTo (h : s.strandsAs t) : s.changedTo t s.me := ⟨h.1, h.me, fun q _ => h.2 q⟩

theorem State.changedTo.strandsAs (h : s.changedTo t u) {t' : State} (h' : t.strandsAs t') : s.changedTo t' u := by
  obtain ⟨hcur, hme, hothers⟩ := h
  exact ⟨h'.1.trans hcur, h'.me.trans hme, fun q hq => (h'.2 q).trans (hothers q hq)⟩

theorem State.changedTo.strand_eq (h : s.changedTo t u) : t.strand s.cur.place = u := by
  obtain ⟨hcur, hme, -⟩ := h
  rw [← hme, State.me, hcur]

end

theorem State.strandsAs.member_eq {s S : State} (hS : s.strandsAs S) (ha : s.alone = true) : S.member s.cur.place = 0 := by
  obtain ⟨hmember, -, -, -⟩ := State.alone_facts ha
  simp [State.member, hS.1, hmember]

/-- A strand as another is when its instruction has stopped at an element, but for its vector registers and where they lie. -/
def Strand.stoppedAs (t u : Strand) (e : Nat) : Prop :=
  u.vec = { t.vec with vstart0 := e } ∧ u.scalars = t.scalars ∧ u.masks = t.masks ∧ u.routes = t.routes ∧ u.task = t.task ∧
    u.held = t.held ∧ u.time = t.time ∧ u.pc = t.pc ∧ u.trap = t.trap ∧ u.ending = t.ending

theorem Strand.sameButVectors.stoppedAs {t u : Strand} (h : t.sameButVectors u) (e : Nat) : t.stoppedAs (u.progress 0 e) e := by
  obtain ⟨m, l, r, st, n, rfl⟩ := h
  exact ⟨rfl, rfl, rfl, rfl, rfl, rfl, rfl, rfl, rfl, rfl⟩

section
variable {s S : State} {u : Strand} {e : Nat} (hu : s.me.stoppedAs u e) (hS : s.changedTo S u)
include hu hS

/-- A fault that no page service can mend (R167). -/
theorem vfail_trap (hmember : s.cur.member = 0) (hd : s.delivers = true) (cause : Nat) (x : Word) :
    Claims.elementTrap s (S.vfail s.cur.place (.trap cause x)) e cause x ∧
      (S.vfail s.cur.place (.trap cause x)).me.vectors = u.vectors ∧ S.memoryAs (S.vfail s.cur.place (.trap cause x)) := by
  obtain ⟨hvec, hscalars, hmasks, hroutes, htask, hheld, htime, hpc, htrap, hend⟩ := hu
  simp only [State.delivers, Bool.and_eq_true, Bool.not_eq_true', bne_iff_ne, ne_eq] at hd
  obtain ⟨⟨hpriv, htvec⟩, hending⟩ := hd
  rw [← htrap] at hpriv htvec
  have hr := State.raise_alone (s := S) (p := s.cur.place)
    (by rw [Claims.delivered, hS.strand_eq]; exact ⟨hpriv, htvec, hend.trans hending⟩) (.inl (hS.1.symm ▸ hmember)) cause x
  rw [hS.strand_eq] at hr
  obtain ⟨-, hme, hothers⟩ := hS.setStrand (u.enterTrap cause x u.pc 0)
  rw [State.vfail, hr]
  unfold Claims.elementTrap Claims.stoppedAt
  rw [hme]
  exact ⟨⟨⟨hvec, hscalars, hmasks, hroutes, htask, hheld, congrArg (·.instret) htime, hothers⟩, rfl, rfl, congrArg addr57 hpc, rfl,
    hpriv, rfl, rfl, congrArg (·.tvec) htrap, rfl⟩, rfl, S.memoryAs_setStrand _ _⟩

/-- A fault that the page service can mend (R56, R167, R356). -/
theorem parkOn_stopped (x : Word) (kind : Nat) (why : Xlat) :
    Claims.elementParked s (S.parkOn s.cur.place x kind why) e x kind ∧
      (S.parkOn s.cur.place x kind why).me.vectors = u.vectors := by
  obtain ⟨hvec, hscalars, hmasks, hroutes, htask, hheld, htime, hpc, htrap, -⟩ := hu
  unfold State.parkOn
  extract_lets d s1 on
  have h1 : s.changedTo s1 u := hS.strandsAs (State.coresAs_openService ..).strandsAs
  rw [State.modStrand, h1.strand_eq]
  unfold Claims.elementParked Claims.stoppedAt
  have hattached : ∀ v, (s1.setStrand s.cur.place v).attached s.cur.place = on := fun _ => rfl
  rw [hattached]
  cases on with
  | true =>
    obtain ⟨-, hme, hothers⟩ := h1.setStrand { u.begun none with run := .parked, lack := .none, wait := .page x.toNat kind }
    rw [if_pos rfl, hme]
    exact ⟨⟨⟨hvec, hscalars, hmasks, hroutes, htask, hheld, congrArg (·.instret) htime, hothers⟩, hpc, htrap,
      fun _ => ⟨rfl, rfl⟩, nofun⟩, rfl⟩
  | false =>
    obtain ⟨-, hme, hothers⟩ := h1.setStrand ((u.begun none).stall (.service x.toNat kind))
    rw [if_neg (by decide), hme]
    exact ⟨⟨⟨hvec, hscalars, hmasks, hroutes, htask, hheld, congrArg (·.instret) htime, hothers⟩, hpc, htrap, nofun,
      fun _ => ⟨rfl, rfl⟩⟩, rfl⟩

end

end Sys2Proof.Machine
end

section
/-!
PROOFS. Vector loads and stores that fault at an element (O42; R167, R168, R170): what they leave below the element, and at it.
-/
set_option Elab.async false

namespace Sys2Proof.Machine

/-! ### Loads -/

section
variable {s : State}

theorem State.vscan_resided (needs : List (Nat × Bool)) (r : State) (p : Place) (a : VAccess) (addr : Nat → Int) (is : List Nat) :
    r.vscan p (s.resided needs) a addr is = r.vscan p s.me a addr is := by
  induction is generalizing r with
  | nil => rfl
  | cons i is ih => simp only [State.vscan, ih]; rfl

/-- An access that stops has reached fewer elements than it was given. -/
theorem State.length_good_of_stop (p : Place) (t : Strand) (a : VAccess) (addr : Nat → Int) (is : List Nat) {x : Nat × VStop}
    (h : (s.vscan p t a addr is).stop = some x) : (s.vscan p t a addr is).good.length < is.length := by
  induction is generalizing s with
  | nil => cases h
  | cons i is ih =>
    rw [State.vscan] at h ⊢
    dsimp only at h ⊢
    split
    next => exact Nat.succ_pos _
    next v hv =>
      rw [hv] at h
      dsimp only at h
      split
      next => exact Nat.succ_pos _
      next hwait =>
        rw [hwait] at h
        exact Nat.succ_lt_succ (ih h)

theorem State.services_modDie {s : State} {d : Nat} {f : Die → Die} (hf : ∀ x, (f x).services = x.services) (e : Nat) :
    ((s.modDie d f).die e).services = (s.die e).services := by
  by_cases he : e = d
  · rw [he, State.modDie, State.die_setDie_same, hf]
  · rw [State.modDie, State.die_setDie_other _ _ he]

theorem State.services_cacheHostLine (s : State) (d pa e : Nat) : ((s.cacheHostLine d pa).die e).services = (s.die e).services := by
  unfold State.cacheHostLine
  split
  · exact State.services_modDie (by intro x; rfl) e
  · rfl

theorem State.services_vcache (s : State) (p : Place) (good : List (Nat × VLoc)) (e : Nat) :
    ((s.vcache p good).die e).services = (s.die e).services := by
  unfold State.vcache
  induction good generalizing s with
  | nil => rfl
  | cons g good ih =>
    obtain ⟨-, l⟩ := g
    rw [List.foldl_cons, ih]
    cases l with
    | buffer off => rfl
    | phys pa x => exact s.services_cacheHostLine ..

theorem State.services_acquireEffect (s : State) (p : Place) (scope e : Nat) :
    ((s.acquireEffect p scope).die e).services = (s.die e).services := by
  unfold State.acquireEffect
  split
  · exact State.services_modDie (by intro x; rfl) e
  · rfl

/-- A load whose element faults (R167, R168): the elements below it are loaded, and it stops there, or VLDFF completes. -/
theorem vloadRun_fail (ha : s.alone = true) (needs : List (Nat × Bool)) (d : VReg) (f : VForm) (ff bc : Bool)
    (hsize : 8 * f.acc.size = s.me.sewW) {is : List Nat} (his : is = activeIn (s.me.m s.me.vec.vmsel) s.me.vec.vstart0 s.me.vec.vl)
    {c : VScan} (hc : c = s.vscan s.cur.place s.me f.acc f.addr (if bc then is.take 1 else is)) {e : Nat} {w : VFail}
    (hstop : c.stop = some (e, .fail w)) (hclean : ∀ g ∈ c.good, c.st.vpoisoned s.cur.place f.acc g.2 = false)
    (hw : ∀ pa, w ≠ .spoilt pa) :
    ∃ img S, LoadedImage s s.cur.place d f c img ∧ s.strandsAs S ∧ (∀ g, (S.die g).services = (c.st.die g).services) ∧
      vloadRun s s.cur.place (s.resided needs) d f ff bc =
        if ff && is.head? != some e then S.complete s.cur.place (S.endVstart s.cur.place
          { (s.resided needs).setV d img with vec := { s.me.vec with vl := e } })
        else (S.setStrand s.cur.place (((s.resided needs).setV d img).progress (S.member s.cur.place) e)).vfail s.cur.place w := by
  have hS : s.strandsAs ((c.st.vcache s.cur.place c.good).acquireEffect s.cur.place s.me.vec.scope) :=
    (hc ▸ s.strandsAs_vscan ..).trans ((State.coresAs_vcache ..).trans (State.coresAs_acquireEffect ..)).strandsAs
  have hservices : ∀ g, (((c.st.vcache s.cur.place c.good).acquireEffect s.cur.place s.me.vec.scope).die g).services =
      (c.st.die g).services := fun g => (State.services_acquireEffect ..).trans (State.services_vcache ..)
  have hmask : s.maskOf s.cur.place (s.resided needs) = s.me.m s.me.vec.vmsel := State.maskOf_alone ha
  have hactives : s.actives s.cur.place (s.resided needs) (s.me.m s.me.vec.vmsel) = is := (State.actives_alone ha _ _).trans his.symm
  have hfind : c.good.find? (fun e => c.st.vpoisoned s.cur.place f.acc e.2) = none :=
    List.find?_eq_none.mpr fun g hg => by simp [hclean g hg]
  obtain ⟨-, -, -, hmid⟩ := State.alone_facts ha
  have hmid : (s.resided needs).midMask.isSome = false := by rw [show (s.resided needs).midMask = none from hmid]; rfl
  unfold vloadRun
  extract_lets mask is' c' s1 wd put img t1
  obtain rfl : is' = is := by simp only [is', mask, hmask, hactives]
  obtain rfl : c' = c := by simp only [c', State.vscan_resided]; exact hc.symm
  have himg : LoadedImage s s.cur.place d f c' img := by
    cases bc with
    | true =>
      have hlength := State.length_good_of_stop (s := s) _ _ _ _ _ (hc ▸ hstop)
      have hnil : c'.good = [] := List.eq_nil_of_length_eq_zero (by
        rw [← hc, if_pos rfl, List.length_take] at hlength
        omega)
      have hvalue : img = s.me.v d := by simp [img, hnil]
      exact hvalue ▸ loadedImage_nil s.cur.place d f hnil
    | false =>
      refine loadedImage_foldl s.cur.place d hsize ?_
      have hprefix := s.vscan_good_prefix s.cur.place s.me f.acc f.addr is'
      rw [hc]
      exact hprefix.sublist.nodup (his ▸ nodup_activeIn ..)
  refine ⟨img, _, himg, hS, hservices, ?_⟩
  rw [hfind, hstop]
  dsimp only
  have hnext : (c'.good.isEmpty && (VStop.fail w).isWait) = false := by simp [VStop.isWait]
  rw [hnext, hmid]
  cases w with
  | trap cause x => simp only [Bool.true_and, Bool.or_false]; rfl
  | page x kind why => simp only [Bool.true_and, Bool.or_false]; rfl
  | spoilt pa => exact absurd rfl (hw pa)

end

/-- An element is a whole number of bytes. -/
theorem Strand.eight_mul_sewW_div (t : Strand) : 8 * (t.sewW / 8) = t.sewW := Nat.mul_div_cancel' ⟨_, rfl⟩

theorem Claims.vload_size {s : State} {i : Instr} {d : VReg} {f : VForm} {bc : Bool} (h : Claims.vload s i = some (d, f, bc)) :
    8 * f.acc.size = s.me.sewW := by
  unfold Claims.vload at h
  split at h <;> cases h <;> exact s.me.eight_mul_sewW_div

section
variable {s : State} {i : Instr} (hready : s.vecReady (Claims.vecNeeds i) = true)
  (hcheck : s.vecCheck s.cur.place s.me i = none)
include hready hcheck

omit hready hcheck in
theorem vform_resided (needs : List (Nat × Bool)) (a : SReg) (idx : Option VReg) (bc : Bool) (kind : Nat) :
    vform (s.resided needs) a idx bc kind = vform s.me a idx bc kind := by
  cases idx <;> rfl

omit hready hcheck in
theorem vringForm_resided (x : Core) (needs : List (Nat × Bool)) (a : SReg) (store : Bool) :
    vringForm x (s.resided needs) a store = vringForm x s.me a store := rfl

theorem vldOp_ready {d : VReg} {a : SReg} {idx : Option VReg} (hneeds : Claims.vecNeeds i = idxNeeds idx ++ [dstReg d])
    (ff bc : Bool) : vldOp s i d a idx ff bc =
      .next (vloadRun s s.cur.place (s.resided (Claims.vecNeeds i)) d (vform s.me a idx bc 0) ff bc) := by
  obtain ⟨hb, -, hv, -⟩ := State.vecReady_iff.mp hready
  rw [vldOp, vecGate_pass hb hv hcheck, ← hneeds, State.withResident_ready hready, vform_resided]

theorem vstOp_ready {d : VReg} {a : SReg} {idx : Option VReg} (hneeds : Claims.vecNeeds i = idxNeeds idx ++ [srcReg d]) :
    vstOp s i d a idx = .next (vstoreRun s s.cur.place (s.resided (Claims.vecNeeds i)) d (vform s.me a idx false 1)) := by
  obtain ⟨hb, -, hv, -⟩ := State.vecReady_iff.mp hready
  rw [vstOp, vecGate_pass hb hv hcheck, ← hneeds, State.withResident_ready hready, vform_resided]

/-- The meaning of a vector load on a strand that may run it. -/
theorem exec_vload {d : VReg} {f : VForm} {bc : Bool} (h : Claims.vload s i = some (d, f, bc)) :
    ∃ ff, (ff = true ↔ ∃ b r a, i = .vldff b r a) ∧
      exec i s = .next (vloadRun s s.cur.place (s.resided (Claims.vecNeeds i)) d f ff bc) := by
  unfold Claims.vload at h
  split at h
  case h_1 c r a =>
    cases h
    have hexec : exec (.vld c d a) s = vldOp s (.vld c d a) d a none false false := rfl
    exact ⟨false, by simp, hexec.trans (vldOp_ready hready hcheck rfl ..)⟩
  case h_2 c r a =>
    cases h
    have hexec : exec (.vldff c d a) s = vldOp s (.vldff c d a) d a none true false := rfl
    exact ⟨true, by simp, hexec.trans (vldOp_ready hready hcheck rfl ..)⟩
  case h_3 c r a b =>
    cases h
    have hexec : exec (.vldx c d a b) s = vldOp s (.vldx c d a b) d a (some b) false false := rfl
    exact ⟨false, by simp, hexec.trans (vldOp_ready hready hcheck rfl ..)⟩
  case h_4 c r a =>
    cases h
    have hexec : exec (.vldq c d a) s = execVldq c d a s := rfl
    obtain ⟨hb, -, hv, -⟩ := State.vecReady_iff.mp hready
    refine ⟨false, by simp, hexec.trans ?_⟩
    have hrun := State.withResident_ready hready fun u =>
      vloadRun s s.cur.place u d (vringForm (s.core s.cur.place.core) u a false) false false
    rw [execVldq, vecGate_pass hb hv hcheck]
    exact congrArg _ (hrun.trans (by rw [vringForm_resided]))
  case h_5 c r a =>
    cases h
    have hexec : exec (.vldbc c d a) s = vldOp s (.vldbc c d a) d a none false true := rfl
    exact ⟨false, by simp, hexec.trans (vldOp_ready hready hcheck rfl ..)⟩
  case h_6 => cases h

/-- The meaning of a vector store on a strand that may run it. -/
theorem exec_vstore {d : VReg} {f : VForm} (h : Claims.vstore s i = some (d, f)) :
    exec i s = .next (vstoreRun s s.cur.place (s.resided (Claims.vecNeeds i)) d f) := by
  unfold Claims.vstore at h
  split at h
  case h_1 c r a =>
    cases h
    have hexec : exec (.vst c d a) s = vstOp s (.vst c d a) d a none := rfl
    exact hexec.trans (vstOp_ready hready hcheck rfl)
  case h_2 c r a b =>
    cases h
    have hexec : exec (.vstx c d a b) s = vstOp s (.vstx c d a b) d a (some b) := rfl
    exact hexec.trans (vstOp_ready hready hcheck rfl)
  case h_3 c r a =>
    cases h
    have hexec : exec (.vstq c d a) s = execVstq c d a s := rfl
    obtain ⟨hb, -, hv, -⟩ := State.vecReady_iff.mp hready
    have hrun := State.withResident_ready hready fun u =>
      vstoreRun s s.cur.place u d (vringForm (s.core s.cur.place.core) u a true)
    rw [hexec, execVstq, vecGate_pass hb hv hcheck]
    exact congrArg _ (hrun.trans (by rw [vringForm_resided]))
  case h_4 => cases h

end

/-! ### Stores -/

section
variable (p : Place) (a : VAccess) (img : VImage)

/-- The elements of a list stored one after another. -/
def State.storeElems (s : State) (good : List (Nat × VLoc)) : State :=
  good.foldl (fun s e => s.vwrite p a (elem img (8 * a.size) e.1) e.2) s

variable {s : State}

theorem State.strandsAs_storeElems (good : List (Nat × VLoc)) : s.strandsAs (s.storeElems p a img good) :=
  State.strandsAs_foldl (fun s _ => s.strandsAs_vwrite ..) good s

theorem readLocalByte_storeElems {y : Nat} (good : List (Nat × VLoc))
    (h : ∀ g ∈ good, ∀ o, g.2 = .buffer o → y < o ∨ o + a.size ≤ y) :
    ((s.storeElems p a img good).core p.core).readLocalByte y = (s.core p.core).readLocalByte y := by
  induction good generalizing s with
  | nil => rfl
  | cons e good ih =>
    refine (ih fun g hg => h g (List.mem_cons_of_mem _ hg)).trans ?_
    obtain ⟨i, l⟩ := e
    cases l with
    | buffer off =>
      have hout := h _ List.mem_cons_self off rfl
      simp only [State.vwrite, State.modCore, State.core_setCore_same]
      exact Core.readLocalByte_writeLocal_outside _ _ _ (by rwa [length_leBytes])
    | phys pa x => exact congrArg (·.readLocalByte y) (State.core_of_cores (State.coresAs_physWrite ..).1 _)

theorem holdsByte_storeElems {gen y : Nat} {b : Byte} (good : List (Nat × VLoc)) (hs : s.holdsByte (dieOf p.core) gen y b)
    (h : ∀ g ∈ good, ∀ q z, g.2 = .phys q z → (y < q ∨ q + a.size ≤ y) ∧
      (z.gen = gen ∨ isHost y = true ∨ ∀ i, i < a.size → y / 64 ≠ (q + i) / 64)) :
    (s.storeElems p a img good).holdsByte (dieOf p.core) gen y b := by
  induction good generalizing s with
  | nil => exact hs
  | cons e good ih =>
    refine ih ?_ fun g hg => h g (List.mem_cons_of_mem _ hg)
    obtain ⟨i, l⟩ := e
    cases l with
    | buffer off => exact hs
    | phys q z =>
      obtain ⟨hout, htag⟩ := h _ List.mem_cons_self q z rfl
      refine State.holdsByte_physWrite hs _ _ _ _ _ (by rwa [length_leBytes]) fun i hi => ?_
      rw [length_leBytes] at hi
      exact htag.imp_right (Or.imp_right fun hline => hline i hi)

/-- Elements that are stored read as stored (R166). -/
theorem stored_storeElems (good : List (Nat × VLoc)) : Claims.stored (s.storeElems p a img good) p a.size img good := by
  intro pre e l post j hgood hj b
  have hsplit : s.storeElems p a img good =
      (((s.storeElems p a img pre).vwrite p a (elem img (8 * a.size) e) l).storeElems p a img post) := by
    rw [hgood, State.storeElems, List.foldl_append, List.foldl_cons]
    rfl
  have hbyte := getElem?_leBytes a.size (elem img (8 * a.size) e) hj
  rw [hsplit]
  refine ⟨fun off hl hpost => ?_, fun pa x hl hpost => ?_⟩
  · rw [readLocalByte_storeElems p a img post hpost, hl]
    simp only [State.vwrite, State.modCore, State.core_setCore_same]
    exact Core.readLocalByte_writeLocal_inside _ _ _ hbyte
  · refine State.physByte_of_holdsByte (holdsByte_storeElems p a img post ?_ hpost) x.key
    rw [hl]
    exact State.holdsByte_physWrite_same _ _ _ _ hbyte

end

theorem Claims.stored_of_memoryAs {s t : State} {p : Place} {size : Nat} {img : VImage} {good : List (Nat × VLoc)}
    (h : Claims.stored s p size img good) (hm : s.memoryAs t) : Claims.stored t p size img good := by
  intro pre e l post j hgood hj b
  obtain ⟨hbuf, hphys⟩ := h pre e l post j hgood hj
  exact ⟨fun off hl hpost => (hm.2 _ _).trans (hbuf off hl hpost), fun pa x hl hpost => (hm.1 _ _ _ _).trans (hphys pa x hl hpost)⟩

theorem Claims.vstore_size {s : State} {i : Instr} {d : VReg} {f : VForm} (h : Claims.vstore s i = some (d, f)) :
    8 * f.acc.size = s.me.sewW := by
  unfold Claims.vstore at h
  split at h <;> cases h <;> exact s.me.eight_mul_sewW_div

/-- A store whose element faults (R167): the elements below it are stored, and it stops there. -/
theorem vstoreRun_fail {s : State} (ha : s.alone = true) (needs : List (Nat × Bool)) (d : VReg) (f : VForm)
    (hsize : 8 * f.acc.size = s.me.sewW) (hrelease : s.releaseWait s.cur.place s.me.vec.scope = none) {c : VScan}
    (hc : c = (s.releaseEffect s.cur.place s.me.vec.scope).vscan s.cur.place s.me f.acc f.addr
      (activeIn (s.me.m s.me.vec.vmsel) s.me.vec.vstart0 s.me.vec.vl)) {e : Nat} {w : VFail} (hstop : c.stop = some (e, .fail w)) :
    ∃ S, s.strandsAs S ∧ Claims.stored S s.cur.place f.acc.size (s.me.v d) c.good ∧
      vstoreRun s s.cur.place (s.resided needs) d f =
        (S.setStrand s.cur.place ((s.resided needs).progress (S.member s.cur.place) e)).vfail s.cur.place w := by
  obtain ⟨hcores, hcur⟩ := s.coresAs_releaseEffect s.cur.place s.me.vec.scope
  have hmask : (s.releaseEffect s.cur.place s.me.vec.scope).maskOf s.cur.place (s.resided needs) = s.me.m s.me.vec.vmsel := by
    rw [← State.maskOf_alone ha, State.maskOf, State.maskOf, hcur]
    rfl
  have hactives : (s.releaseEffect s.cur.place s.me.vec.scope).actives s.cur.place (s.resided needs) (s.me.m s.me.vec.vmsel) =
      activeIn (s.me.m s.me.vec.vmsel) s.me.vec.vstart0 s.me.vec.vl := by
    refine Eq.trans ?_ (State.actives_alone ha (s.resided needs) _)
    rw [State.actives, State.actives, State.stopAt, State.stopAt, State.member, State.member, hcur]
  refine ⟨c.st.storeElems s.cur.place f.acc (s.me.v d) c.good, ?_, stored_storeElems s.cur.place f.acc (s.me.v d) c.good, ?_⟩
  · have hscan := (s.releaseEffect s.cur.place s.me.vec.scope).strandsAs_vscan s.cur.place s.me f.acc f.addr
      (activeIn (s.me.m s.me.vec.vmsel) s.me.vec.vstart0 s.me.vec.vl)
    rw [← hc] at hscan
    exact (State.coresAs.strandsAs ⟨hcores, hcur⟩).trans (hscan.trans (State.strandsAs_storeElems ..))
  · rw [State.storeElems, hsize]
    unfold vstoreRun
    rw [State.release, State.resided_vec, hrelease]
    simp only [hmask, hactives, State.vscan_resided, ← hc, hstop]
    rfl

/-- An instruction of a strand that stands alone ends with VSTART0 = 0. -/
theorem changedTo_complete {s S : State} (ha : s.alone = true) (hS : s.strandsAs S) (u : Strand) :
    s.changedTo (S.complete s.cur.place (S.endVstart s.cur.place u)) (Strand.complete { u with vec := { u.vec with vstart0 := 0 } }) := by
  have hend : S.endVstart s.cur.place u = { u with vec := { u.vec with vstart0 := 0 } } := by
    rw [← State.endVstart_alone ha, State.endVstart, State.endVstart, State.member, State.member, State.stopAt, State.stopAt, hS.1]
  rw [hend]
  exact hS.changedTo.setStrand _

/-- A VLDFF that is shortened at a later element has completed (R168). -/
theorem vldff_shortened {s S : State} (ha : s.alone = true) (hS : s.strandsAs S) {u : Strand} (hu : s.me.sameButVectors u) {e : Nat}
    {t : State} (ht : t = S.complete s.cur.place (S.endVstart s.cur.place { u with vec := { s.me.vec with vl := e } })) :
    t.me.vectors = u.vectors ∧ s.othersAs t s.cur.place ∧ t.me.vec = { s.me.vec with vl := e, vstart0 := 0 } ∧
      t.me.pc = s.me.complete.pc ∧ t.me.run = s.me.run ∧ t.me.trap = s.me.trap ∧ t.me.scalars = s.me.scalars := by
  obtain ⟨-, hme, hothers⟩ := changedTo_complete ha hS { u with vec := { s.me.vec with vl := e } }
  rw [← ht] at hme hothers
  obtain ⟨hsusp, hloops, hupc, hrun, htrap, hscalars⟩ : u.suspended = s.me.suspended ∧ u.loops = s.me.loops ∧ u.pc = s.me.pc ∧
      u.run = s.me.run ∧ u.trap = s.me.trap ∧ u.scalars = s.me.scalars := by
    obtain ⟨m, l, r, st, n, rfl⟩ := hu
    exact ⟨rfl, rfl, rfl, rfl, rfl, rfl⟩
  have hpc : (Strand.complete { u with vec := { s.me.vec with vl := e, vstart0 := 0 } }).pc = s.me.complete.pc :=
    Strand.complete_pc_of_nest hsusp hloops hupc
  rw [hme]
  exact ⟨rfl, hothers, rfl, hpc, hrun, htrap, hscalars⟩

/-- Settles O42. -/
theorem vectorFaults : Obligations.VectorFaults := by
  refine ⟨fun s p t a x hslot hsize => ⟨fun h1 h4 => vlocate_buffers hslot hsize h1 h4, fun h0 hkind => ?_⟩, ?_, ?_⟩
  · intro cause
    have hcause : pageCause a.kind = cause := pageCause_of_le_one hkind
    exact hcause ▸ vlocate_memory hslot h0 rfl
  · intro i s d f bc e w hready hload hcheck p is c hstop hclean later
    obtain ⟨-, ha, -, -⟩ := State.vecReady_iff.mp hready
    obtain ⟨hmember, -, -, -⟩ := State.alone_facts ha
    obtain ⟨ff, hff, hexec⟩ := exec_vload hready hcheck hload
    have hlater : (ff && is.head? != some e) = true ↔ later := by
      rw [Bool.and_eq_true, hff, bne_iff_ne]
    have hrun := vloadRun_fail ha (Claims.vecNeeds i) d f ff bc (Claims.vload_size hload) (is := is) rfl (c := c) rfl hstop hclean
    have hstopped : ∀ img, s.me.stoppedAs (((s.resided (Claims.vecNeeds i)).setV d img).progress 0 e) e := fun img =>
      (s.sameButVectors_setV _ d img).stoppedAs e
    refine ⟨fun cause x hw hnot hd => ?_, fun x kind why hw hnot => ?_, fun hw hlate => ?_⟩
    · obtain ⟨img, S, himg, hS, -, hrun⟩ := hrun (by rw [hw]; nofun)
      rw [if_neg (mt hlater.mp hnot), hS.member_eq ha, hw] at hrun
      obtain ⟨htrap, hvectors, -⟩ := vfail_trap (hstopped img) (hS.changedTo.setStrand _) hmember hd cause x
      exact ⟨_, hexec.trans (by rw [hrun]), htrap, himg.loadedBelow hvectors⟩
    · obtain ⟨img, S, himg, hS, -, hrun⟩ := hrun (by rw [hw]; nofun)
      rw [if_neg (mt hlater.mp hnot), hS.member_eq ha, hw] at hrun
      obtain ⟨hparked, hvectors⟩ := parkOn_stopped (hstopped img) (hS.changedTo.setStrand _) x kind why
      exact ⟨_, hexec.trans (by rw [hrun]; rfl), hparked, himg.loadedBelow hvectors⟩
    · obtain ⟨img, S, himg, hS, hservices, hrun⟩ := hrun hw
      rw [if_pos (hlater.mpr hlate)] at hrun
      obtain ⟨hvectors, hothers, hvec, hpc, hmrun, htrap, hscalars⟩ := vldff_shortened ha hS
        (s.sameButVectors_setV (Claims.vecNeeds i) d img) rfl
      exact ⟨_, hexec.trans (by rw [hrun]), himg.loadedBelow hvectors, hothers, hvec, hpc, hmrun, htrap, hscalars, hservices⟩
  · intro i s d f e w hready hstore hcheck hrelease p is c hstop
    obtain ⟨-, ha, -, -⟩ := State.vecReady_iff.mp hready
    obtain ⟨hmember, -, -, -⟩ := State.alone_facts ha
    have hexec := exec_vstore hready hcheck hstore
    obtain ⟨S, hS, hstored, hrun⟩ :=
      vstoreRun_fail ha (Claims.vecNeeds i) d f (Claims.vstore_size hstore) hrelease (c := c) rfl hstop
    rw [hS.member_eq ha] at hrun
    have hstopped := (s.sameButVectors_resided (Claims.vecNeeds i)).stoppedAs e
    have hchanged := hS.changedTo.setStrand ((s.resided (Claims.vecNeeds i)).progress 0 e)
    have hstored := Claims.stored_of_memoryAs hstored
      (S.memoryAs_setStrand s.cur.place ((s.resided (Claims.vecNeeds i)).progress 0 e))
    refine ⟨fun cause x hw hd => ?_, fun x kind why hw => ?_⟩
    · obtain ⟨htrap, hvectors, hmem⟩ := vfail_trap hstopped hchanged hmember hd cause x
      exact ⟨_, hexec.trans (by rw [hrun, hw]), htrap, hvectors, Claims.stored_of_memoryAs hstored hmem⟩
    · obtain ⟨hparked, hvectors⟩ := parkOn_stopped hstopped hchanged x kind why
      exact ⟨_, hexec.trans (by rw [hrun, hw]; rfl), hparked, congrArg (·.vectors) hchanged.2.1, hvectors, hstored⟩

end Sys2Proof.Machine
end

section
/-!
PROOFS. Traps that a unit raises, and steps of the store buffer, the granary and a bay (O53; R55, R76, R78, R126, R202, R246, R248, R257,
R373).
-/
set_option Elab.async false

namespace Sys2Proof.Machine

/-! ### ENGINE_TRAP -/

theorem exec_engineTrap {s : State} {p : Place} {c : Nat} {v : Word} {r : List (Nat × Word)} (hgiven : s.given = .place p)
    (hpend : (s.strand p).pendTrap = (c, v) :: r) :
    exec .engineTrap s = .next ((s.setStrand p { s.strand p with pendTrap := r }).raise p causeEngine v) := by
  have hexec : exec .engineTrap s = execEngineTrap s := rfl
  rw [hexec, execEngineTrap, onPlace_of_given hgiven]
  simp only [Strand.takePending, hpend]

theorem engineTrap_taken {s : State} {p : Place} {c : Nat} {v : Word} {r : List (Nat × Word)} (hgiven : s.given = .place p)
    (hpend : (s.strand p).pendTrap = (c, v) :: r) (hd : Claims.delivered s p) :
    ∃ t, exec .engineTrap s = .next t ∧ Claims.trapped s t p causeEngine v ∧ (t.strand p).pendTrap = r ∧ s.othersAs t p := by
  obtain ⟨hpriv, htvec, hending⟩ := hd
  have hu := State.strand_setStrand_same s p { s.strand p with pendTrap := r }
  have hr := State.raise_delivered (s := s.setStrand p { s.strand p with pendTrap := r }) p causeEngine v
    (by rw [hu]; exact hending) (by rw [hu]; exact hpriv) (by rw [hu]; exact htvec)
  refine ⟨_, (exec_engineTrap hgiven hpend).trans (by rw [hr, hu]), ?_, ?_, ?_⟩
  · unfold Claims.trapped
    rw [State.strand_setStrand_same]
    exact ⟨rfl, rfl, rfl, rfl, rfl, rfl, rfl, rfl⟩
  · rw [State.strand_setStrand_same]
    rfl
  · exact (s.othersAs_setStrand p _).trans (State.othersAs_setStrand _ p _)

/-! ### A kernel that is faulted -/

theorem State.core_of_mmap {s t : State} {f : Nat → Core → Core} (h : t.cores = mmap f s.cores) (c : Nat) :
    t.core c = if mhas s.cores c then f c (s.core c) else s.core c := by
  unfold State.core mgetD mhas
  rw [h, mget_mmap]
  cases mget s.cores c <;> rfl

/-- A core that runs a kernel, or belongs to a context, is listed. -/
theorem State.mhas_cores {s : State} {c : Nat} (h : s.core c ≠ .reset) : mhas s.cores c = true := by
  rw [mhas, Option.isSome_iff_ne_none]
  exact fun hnone => h (by rw [State.core, mgetD, hnone]; rfl)

/-- A core whose kernel is faulted (R75, R328): what the fault does to each core that runs the kernel. -/
def Core.faultFor (x : Core) (k : Nat) : Core :=
  if x.kern = some k then { x.endStrands.cancelCopies 8 fun _ _ => true with barriers := [], views := [] } else x

section
variable {s : State} {k : Nat} {q : Kernel} (hq : mget s.kernels k = some q) (hrun : q.state = .running) (p : Place) (cause : Nat)
  (tval : Word)
include hq hrun

theorem State.kernel_faultKernel : mget (s.faultKernel k p cause tval).kernels k =
    some { q with state := .faulted, cause := cause, tval := tval, faultAt := p, rendezvous := [], groups := [] } := by
  have hlive : ¬(q.state = .faulted ∨ q.state = .retired) := by simp [hrun]
  simp only [State.faultKernel, hq, if_neg hlive]
  exact mget_mset_same _ _ _

theorem State.cores_faultKernel : (s.faultKernel k p cause tval).cores = mmap (fun _ x => x.faultFor k) s.cores := by
  have hlive : ¬(q.state = .faulted ∨ q.state = .retired) := by simp [hrun]
  simp only [State.faultKernel, hq, if_neg hlive]
  rfl

theorem State.core_faultKernel {c : Nat} (hc : (s.core c).kern = some k) :
    (s.faultKernel k p cause tval).core c = (s.core c).faultFor k := by
  have hlisted : mhas s.cores c = true := State.mhas_cores fun h => by rw [h] at hc; cases hc
  rw [State.core_of_mmap (State.cores_faultKernel hq hrun p cause tval), if_pos hlisted]

end

/-- A strand that is not within a vector instruction ends with its kernel, at once (R328). -/
theorem Core.strand_endStrands {x : Core} {k : Nat} (h : (x.strand k).mid = false) : x.endStrands.strand k = .reset := by
  have hnone : mget (mfilter (fun j _ => (x.strand j).mid) x.strands) k = none := by
    by_contra hsome
    obtain ⟨v, hv⟩ := Option.ne_none_iff_exists'.mp hsome
    rw [mget_mfilter_passes hv] at h
    cases h
  rw [Core.strand, Core.endStrands, mgetD, mget_mmap, hnone]
  rfl

theorem Core.locks_endStrands {x : Core} {k b : Nat} (h : (x.strand k).mid = false) : mget x.endStrands.locks b ≠ some k := by
  intro hlock
  have hstays : (x.strand k).mid = true := mget_mfilter_passes (p := fun _ j => (x.strand j).mid) (m := x.locks) hlock
  rw [hstays] at h
  cases h

/-! ### LOCK_WATCHDOG -/

/-- A core with a strand's bay locks cleared (R78). -/
def Core.dropLocks (x : Core) (k : Nat) : Core :=
  { x with locks := mfilter (fun _ h => h != k) x.locks, lockFrom := mdel x.lockFrom k }

section
variable {s : State} {p : Place} {n k : Nat} (hgiven : s.given = .place p) (hfrom : mget (s.core p.core).lockFrom p.strand = some n)
  (hlate : n + 4096 ≤ s.now) (hheld : (s.core p.core).heldBays p.strand ≠ 0) (hkern : (s.core p.core).kern = some k)
include hgiven hfrom hlate hheld hkern

theorem exec_lockWatchdog : exec .lockWatchdog s = .next ((s.modCore p.core fun y => y.dropLocks p.strand).faultKernel k p
    causeLockWatchdog (BitVec.ofNat 64 ((s.core p.core).heldBays p.strand))) := by
  have hexec : exec .lockWatchdog s = execLockWatchdog s := rfl
  rw [hexec, execLockWatchdog, onPlace_of_given hgiven]
  simp [hfrom, hlate, hheld, hkern, Core.dropLocks]

theorem lockWatchdog_faults {q : Kernel} (hq : mget s.kernels k = some q) (hrun : q.state = .running)
    (hmid : (s.strand p).mid = false) : ∃ t, exec .lockWatchdog s = .next t ∧
      ((mget t.kernels k).map fun w => (w.state, w.cause, w.tval)) =
        some (.faulted, causeLockWatchdog, BitVec.ofNat 64 ((s.core p.core).heldBays p.strand)) ∧
      (t.strand p).run = .unbound ∧ ∀ b, mget (t.core p.core).locks b ≠ some p.strand := by
  have hq' : mget (s.modCore p.core fun y => y.dropLocks p.strand).kernels k = some q := hq
  have hcore : (s.modCore p.core fun y => y.dropLocks p.strand).core p.core = (s.core p.core).dropLocks p.strand := by
    rw [State.modCore, State.core_setCore_same]
  have hkern' : ((s.core p.core).dropLocks p.strand).kern = some k := hkern
  have hfault := State.core_faultKernel hq' hrun p causeLockWatchdog (BitVec.ofNat 64 ((s.core p.core).heldBays p.strand))
    (hcore ▸ hkern')
  rw [hcore, Core.faultFor, if_pos hkern'] at hfault
  refine ⟨_, exec_lockWatchdog hgiven hfrom hlate hheld hkern, ?_, ?_, fun b => ?_⟩
  · rw [State.kernel_faultKernel hq' hrun]
    rfl
  · rw [State.strand, hfault]
    exact congrArg Strand.run (Core.strand_endStrands (x := (s.core p.core).dropLocks p.strand) hmid)
  · rw [hfault]
    exact Core.locks_endStrands (x := (s.core p.core).dropLocks p.strand) hmid

end

/-! ### STORE_BUFFER_DRAIN and BAY_SCRUB_COMPLETE -/

theorem onItem_of_given {s : State} {c i : Nat} (h : s.given = .item c i) (f : Nat → Nat → State) : onItem s f = .next (f c i) := by
  simp only [onItem, h]

theorem storeBufferDrain_drains {s : State} {c : Nat} {e : SbEntry} {r : List SbEntry} (hgiven : s.given = .core c)
    (hsb : (s.core c).sb = e :: r) (howned : mhas s.owned (e.pa / 64) = false) (hopen : s.memoryOpen c e.pa = true) :
    ∃ t, exec .storeBufferDrain s = .next t ∧ (t.core c).sb = r ∧
      ∀ j b, e.bytes[j]? = some b → t.physByte (dieOf c) e.key e.gen (e.pa + j) = b := by
  have hexec : exec .storeBufferDrain s = execStoreBufferDrain s := rfl
  have hdrain : s.drainOne c = (s.modCore c fun x => { x with sb := r, drains := x.drains + 1 }).physWrite (dieOf c) c e.key e.gen
      e.pa e.bytes := by
    rw [State.drainOne, hsb]
  refine ⟨s.drainOne c, ?_, ?_, fun j b hb => ?_⟩
  · rw [hexec, execStoreBufferDrain, onCore_of_given hgiven]
    simp [hsb, howned, hopen]
  · rw [hdrain, State.core_of_cores (State.coresAs_physWrite ..).1, State.modCore, State.core_setCore_same]
  · rw [hdrain]
    exact State.physByte_of_holdsByte (State.holdsByte_physWrite_same _ _ _ _ hb) _

theorem bayScrubComplete_ends {s : State} {c b : Nat} (hgiven : s.given = .item c b) :
    ∃ t, exec .bayScrubComplete s = .next t ∧ mget (t.core c).scrub b = none ∧
      ∀ a, (t.core c).readLocalByte a = (s.core c).readLocalByte a := by
  have hexec : exec .bayScrubComplete s = execBayScrubComplete s := rfl
  refine ⟨_, hexec.trans (onItem_of_given hgiven _), ?_, fun a => ?_⟩
  · rw [State.modCore, State.core_setCore_same]
    exact mget_mdel_same _ _
  · rw [State.modCore, State.core_setCore_same]
    rfl

/-! ### GRANARY_WRITEBACK -/

theorem mget_none_of_lt {β : Type} {m : SMap β} {lo k : Nat} (h : msortedFrom lo m = true) (hk : k < lo) : mget m k = none := by
  induction m generalizing lo with
  | nil => rfl
  | cons e r ih =>
    obtain ⟨a, v⟩ := e
    simp only [msortedFrom, Bool.and_eq_true, decide_eq_true_eq] at h
    obtain ⟨hlo, hr⟩ := h
    rw [mget, if_neg (by omega), ih hr (by omega)]

/-- Bytes taken home from a map in its canonical form. -/
theorem mgetD_foldl_mput {m : SMap Byte} {lo : Nat} (h : msortedFrom lo m = true) (mem : SMap Byte) (k : Nat) :
    mgetD (m.foldl (fun a e => mput 0 a e.1 e.2) mem) k 0 = (mget m k).getD (mgetD mem k 0) := by
  induction m generalizing lo mem with
  | nil => rfl
  | cons e r ih =>
    obtain ⟨a, v⟩ := e
    simp only [msortedFrom, Bool.and_eq_true] at h
    obtain ⟨-, hr⟩ := h
    rw [List.foldl_cons, ih hr, mgetD_mput, mget]
    by_cases hk : a = k
    · subst hk
      rw [mget_none_of_lt hr (Nat.lt_succ_self a), if_pos rfl, if_pos rfl]
      rfl
    · rw [if_neg hk, if_neg fun h => hk h.symm]

/-- A device byte of a line that is held under no other key. -/
theorem State.devByte_of_key {s : State} {d : Nat} {key : Key} {gen pa : Nat} (hkey : mgetD s.lineKey (pa / 64) key = key) :
    s.devByte d key gen pa =
      if mgetD s.lineTag (pa / 64) 0 ≠ gen then 0 else (mget (s.die d).dirty pa).getD (s.homeByte pa) := by
  unfold State.devByte
  refine if_congr Iff.rfl rfl ?_
  cases mget (s.die d).dirty pa with
  | some b => rfl
  | none =>
    rw [mgetD] at hkey
    cases hk : mget s.lineKey (pa / 64) with
    | none => rfl
    | some k =>
      rw [hk] at hkey
      exact if_pos hkey

section
variable (s : State) (d line : Nat)

theorem State.dirty_evictDieLine : ((s.evictDieLine d line).die d).dirty = mfilter (fun k _ => !(k / 64 == line)) (s.die d).dirty := by
  rw [State.evictDieLine, State.modDie, State.die_setDie_same, State.writeBack, State.die_setDie_same]

theorem State.writers_evictDieLine : mget ((s.evictDieLine d line).die d).writers line = none := by
  rw [State.evictDieLine, State.modDie, State.die_setDie_same, State.writeBack, State.die_setDie_same]
  exact mget_mdel_same _ _

theorem State.hostLines_evictDieLine : mget ((s.evictDieLine d line).die d).hostLines line = none := by
  rw [State.evictDieLine, State.modDie, State.die_setDie_same]
  exact mget_mdel_same _ _

variable {s d line} {pa : Nat} (hpa : pa / 64 = line)
include hpa

theorem State.mget_dirty_evictDieLine : mget ((s.evictDieLine d line).die d).dirty pa = none := by
  rw [State.dirty_evictDieLine]
  by_contra hsome
  obtain ⟨v, hv⟩ := Option.ne_none_iff_exists'.mp hsome
  simpa [hpa] using mget_mfilter_passes hv

theorem State.homeByte_evictDieLine (hsorted : msorted (s.die d).dirty = true) :
    (s.evictDieLine d line).homeByte pa = (mget (s.die d).dirty pa).getD (s.homeByte pa) := by
  have hmem : (s.evictDieLine d line).mem = (mfilter (fun k _ => k / 64 == line) (s.die d).dirty).foldl
    (fun m e => mput 0 m e.1 e.2) s.mem := rfl
  rw [State.homeByte, hmem, mgetD_foldl_mput (msorted_mfilter _ hsorted), mget_mfilter_key _ (by simpa using hpa)]
  rfl

/-- A line that is written back is seen as before under the key that it is held under. -/
theorem State.devByte_evictDieLine (hsorted : msorted (s.die d).dirty = true) {key : Key} (hkey : mgetD s.lineKey line key = key)
    (gen : Nat) : (s.evictDieLine d line).devByte d key gen pa = s.devByte d key gen pa := by
  have hkey' : mgetD (s.evictDieLine d line).lineKey (pa / 64) key = key := hpa ▸ hkey
  have htag : (s.evictDieLine d line).lineTag = s.lineTag := rfl
  rw [State.devByte_of_key hkey', State.devByte_of_key (hpa ▸ hkey), htag, State.mget_dirty_evictDieLine hpa,
    State.homeByte_evictDieLine hpa hsorted]
  rfl

end

theorem granaryWriteback_cleans {s : State} {d line : Nat} {key : Key} (hgiven : s.given = .item d line) (hline : line < 2 ^ 42)
    (hsorted : msorted (s.die d).dirty = true) (hkey : mgetD s.lineKey line key = key) :
    ∃ t, exec .granaryWriteback s = .next t ∧ mget (t.die d).writers line = none ∧ mget (t.die d).hostLines line = none ∧
      ∀ pa, pa / 64 = line → mget (t.die d).dirty pa = none ∧ ∀ gen, t.physByte d key gen pa = s.physByte d key gen pa := by
  have hexec : exec .granaryWriteback s = execGranaryWriteback s := rfl
  refine ⟨_, hexec.trans (onItem_of_given hgiven _), s.writers_evictDieLine d line, s.hostLines_evictDieLine d line, fun pa hpa =>
    ⟨State.mget_dirty_evictDieLine hpa, fun gen => ?_⟩⟩
  have hdevice : isHost pa = false := by
    rw [isHost, hostBase, decide_eq_false_iff_not]
    omega
  simp only [State.physByte, hdevice]
  exact State.devByte_evictDieLine hpa hsorted hkey gen

/-! ### UNCORRECTED_TRAP -/

/-- Every mark of a damaged line, every owner and every poison of a context is kept. -/
def State.keepsDamage (s t : State) : Prop :=
  t.poisoned = s.poisoned ∧ ∀ c, (t.core c).bad = (s.core c).bad ∧ (t.core c).owner.id = (s.core c).owner.id ∧
    ((s.core c).owner.poison = true → (t.core c).owner.poison = true)

section
variable {s t u : State}

theorem State.keepsDamage.refl (s : State) : s.keepsDamage s := ⟨rfl, fun _ => ⟨rfl, rfl, id⟩⟩

theorem State.keepsDamage.trans (h : s.keepsDamage t) (h' : t.keepsDamage u) : s.keepsDamage u := by
  refine ⟨h'.1.trans h.1, fun c => ?_⟩
  obtain ⟨hbad, hid, hpoison⟩ := h.2 c
  obtain ⟨hbad', hid', hpoison'⟩ := h'.2 c
  exact ⟨hbad'.trans hbad, hid'.trans hid, hpoison' ∘ hpoison⟩

theorem State.keepsDamage_modCore (s : State) (c : Nat) {f : Core → Core} (hbad : ∀ x, (f x).bad = x.bad)
    (howner : ∀ x, (f x).owner = x.owner) : s.keepsDamage (s.modCore c f) := by
  refine ⟨rfl, fun e => ?_⟩
  by_cases he : e = c
  · rw [he, State.modCore, State.core_setCore_same, hbad, howner]
    exact ⟨rfl, rfl, id⟩
  · rw [State.modCore, State.core_setCore_other _ _ he]
    exact ⟨rfl, rfl, id⟩

theorem State.keepsDamage_of_mmap {f : Nat → Core → Core} (hpoisoned : t.poisoned = s.poisoned) (h : t.cores = mmap f s.cores)
    (hf : ∀ c x, (f c x).bad = x.bad ∧ (f c x).owner.id = x.owner.id ∧ (x.owner.poison = true → (f c x).owner.poison = true)) :
    s.keepsDamage t := by
  refine ⟨hpoisoned, fun c => ?_⟩
  rw [State.core_of_mmap h]
  split
  · exact hf c _
  · exact ⟨rfl, rfl, id⟩

theorem Core.faultFor_damage (x : Core) (k : Nat) : (x.faultFor k).bad = x.bad ∧ (x.faultFor k).owner = x.owner := by
  unfold Core.faultFor
  split <;> exact ⟨rfl, rfl⟩

theorem State.keepsDamage_faultKernel (s : State) (k : Nat) (p : Place) (cause : Nat) (v : Word) :
    s.keepsDamage (s.faultKernel k p cause v) := by
  unfold State.faultKernel
  split
  · exact .refl s
  · split
    · exact .refl s
    · refine State.keepsDamage_of_mmap (f := fun _ x => x.faultFor k) rfl rfl fun c x => ?_
      obtain ⟨hbad, howner⟩ := x.faultFor_damage k
      rw [hbad, howner]
      exact ⟨rfl, rfl, id⟩

theorem State.keepsDamage_setStrand (s : State) (p : Place) (x : Strand) : s.keepsDamage (s.setStrand p x) :=
  s.keepsDamage_modCore p.core (f := fun y => y.setStrand p.strand x) (fun _ => rfl) fun _ => rfl

theorem State.keepsDamage_raise (s : State) (p : Place) (cause : Nat) (v : Word) : s.keepsDamage (s.raise p cause v) := by
  unfold State.raise
  dsimp only
  split
  · exact s.keepsDamage_modCore p.core (by intro x; rfl) (by intro x; rfl)
  · split
    · split
      · exact (s.keepsDamage_setStrand p _).trans (State.keepsDamage_faultKernel ..)
      · exact s.keepsDamage_modCore p.core (by intro x; rfl) (by intro x; rfl)
    · exact s.keepsDamage_setStrand p _

/-- A core whose context has been poisoned (R373). -/
def Core.poisonFor (x : Core) (ctx : Nat) : Core := if x.owner.id = ctx then { x with owner := { x.owner with poison := true } } else x

theorem Core.poisonFor_damage (x : Core) (ctx : Nat) : (x.poisonFor ctx).bad = x.bad ∧ (x.poisonFor ctx).owner.id = x.owner.id ∧
    (x.owner.poison = true → (x.poisonFor ctx).owner.poison = true) := by
  unfold Core.poisonFor
  split
  · exact ⟨rfl, rfl, fun _ => rfl⟩
  · exact ⟨rfl, rfl, id⟩

/-- A context's error poisons the owner of each core that belongs to it (R373), and leaves every mark. -/
theorem State.poisonContext_damage (s : State) (ctx : Nat) (p : Place) (v : Word) : s.keepsDamage (s.poisonContext ctx p v) ∧
    ∀ c, (s.core c).owner.id = ctx → ctx ≠ 0 → ((s.poisonContext ctx p v).core c).owner.poison = true := by
  unfold State.poisonContext
  split
  next h => exact ⟨.refl s, fun _ _ hctx => absurd h hctx⟩
  next =>
    extract_lets hit s1
    have hfaults : s1.keepsDamage ((mfilter (fun _ k => k.ctx == ctx) s1.kernels).foldl
        (fun s e => s.faultKernel e.1 p causeUncorrected v) s1) := by
      exact List.foldlRecOn (motive := s1.keepsDamage) _ _ (.refl s1) fun u hu e _ => hu.trans (u.keepsDamage_faultKernel ..)
    have hcores : s1.cores = mmap (fun _ x => x.poisonFor ctx) s.cores := rfl
    have hpoison : s.keepsDamage s1 := State.keepsDamage_of_mmap rfl hcores fun _ x => x.poisonFor_damage ctx
    refine ⟨hpoison.trans hfaults, fun c hid hctx => ?_⟩
    have hlisted : mhas s.cores c = true := State.mhas_cores fun h => hctx (by rw [← hid, h]; rfl)
    obtain ⟨-, -, hkept⟩ := hfaults.2 c
    refine hkept ?_
    rw [State.core_of_mmap hcores, if_pos hlisted, Core.poisonFor, if_pos hid]

end

theorem mhas_foldl_mset {α : Type} (g : α → Nat) (l : List α) (m : NSet) {k : Nat} (h : mhas m k = true ∨ ∃ i ∈ l, g i = k) :
    mhas (l.foldl (fun (m : NSet) i => mset m (g i) ()) m) k = true := by
  induction l generalizing m with
  | nil => exact h.resolve_right (by simp)
  | cons a l ih =>
    refine ih _ ?_
    rcases h with h | ⟨i, hi, rfl⟩
    · left
      rw [mhas, mget_mset]
      split
      · rfl
      · exact h
    · rcases List.mem_cons.mp hi with rfl | hi
      · left
        rw [mhas, mget_mset_same]
        rfl
      · exact .inr ⟨i, hi, rfl⟩

/-- The marks of a map of damaged bytes with every byte of a line marked. -/
def markLine (m : NSet) (line : Nat) : NSet := (List.range 64).foldl (fun (m : NSet) i => mset m (64 * line + i) ()) m

theorem mhas_markLine (m : NSet) (b : Nat) : mhas (markLine m (b / 64)) b = true :=
  mhas_foldl_mset (fun i => 64 * (b / 64) + i) _ m (.inr ⟨b % 64, List.mem_range.mpr (Nat.mod_lt _ (by decide)), by omega⟩)

section
variable (s : State) (c a : Nat)

theorem State.bad_spoil_local : ((s.spoil c true a).core c).bad = markLine (s.core c).bad (a / 64) := by
  have hspoil : s.spoil c true a = s.modCore c fun x => { x with bad := markLine x.bad (a / 64) } := rfl
  rw [hspoil, State.modCore, State.core_setCore_same]

theorem State.poisoned_spoil_device : (s.spoil c false a).poisoned = markLine s.poisoned (a / 64) := by
  simp only [State.spoil, Bool.false_eq_true, if_false]
  rfl

/-- Every byte of the line that an error has hit is marked (R373), in every state that keeps the marks. -/
theorem State.marks_spoil {isLocal : Bool} {t : State} (h : State.keepsDamage (s.spoil c isLocal a) t) {b : Nat}
    (hb : b / 64 = a / 64) : if isLocal then mhas (t.core c).bad b = true else mhas t.poisoned b = true := by
  obtain ⟨hpoisoned, hcores⟩ := h
  obtain ⟨hbad, -, -⟩ := hcores c
  cases isLocal with
  | true =>
    show mhas (t.core c).bad b = true
    rw [hbad, State.bad_spoil_local, ← hb]
    exact mhas_markLine _ b
  | false =>
    show mhas t.poisoned b = true
    rw [hpoisoned, State.poisoned_spoil_device, ← hb]
    exact mhas_markLine _ b

theorem State.owner_spoil (isLocal : Bool) : ((s.spoil c isLocal a).core c).owner = (s.core c).owner := by
  cases isLocal with
  | true =>
    have hspoil : s.spoil c true a = s.modCore c fun x => { x with bad := markLine x.bad (a / 64) } := rfl
    rw [hspoil, State.modCore, State.core_setCore_same]
  | false =>
    have hcores : (s.spoil c false a).cores = s.cores := by simp only [State.spoil, Bool.false_eq_true, if_false]
    rw [State.core_of_cores hcores]

theorem State.uncorrected_damage (p : Place) (v : Word) : s.keepsDamage (s.uncorrected p v) ∧
    ((s.core p.core).owner.id ≠ 0 → ((s.uncorrected p v).core p.core).owner.poison = true) := by
  have hraise := s.keepsDamage_raise p causeUncorrected v
  obtain ⟨-, hid, -⟩ := hraise.2 p.core
  obtain ⟨hdamage, hpoison⟩ := (s.raise p causeUncorrected v).poisonContext_damage (s.core p.core).owner.id p v
  exact ⟨hraise.trans hdamage, hpoison p.core hid⟩

end

theorem uncorrectedTrap_marks {s : State} {p : Place} {isLocal : Bool} {a : Nat} (hgiven : s.given = .error p isLocal a) :
    ∃ t, exec .uncorrectedTrap s = .next t ∧
      (∀ b, b / 64 = a / 64 → if isLocal then mhas (t.core p.core).bad b = true else mhas t.poisoned b = true) ∧
      ((s.core p.core).owner.id ≠ 0 → (t.core p.core).owner.poison = true) := by
  have hexec : exec .uncorrectedTrap s = execUncorrectedTrap s := rfl
  rw [hexec, execUncorrectedTrap, ← s.owner_spoil p.core a isLocal]
  simp only [hgiven]
  generalize hs1 : s.spoil p.core isLocal a = s1
  have hnext : ∀ t, s1.keepsDamage t ∧ ((s1.core p.core).owner.id ≠ 0 → (t.core p.core).owner.poison = true) →
      ∃ u, Host.Outcome.next t = (.next u : Res) ∧
        (∀ b, b / 64 = a / 64 → if isLocal then mhas (u.core p.core).bad b = true else mhas u.poisoned b = true) ∧
        ((s1.core p.core).owner.id ≠ 0 → (u.core p.core).owner.poison = true) := fun t ⟨ht, hpoison⟩ => by
    subst hs1
    exact ⟨t, rfl, fun b hb => State.marks_spoil s p.core a ht hb, hpoison⟩
  refine hnext _ ?_
  split
  · obtain ⟨hdamage, hpoison⟩ := s1.poisonContext_damage (s1.core p.core).owner.id p (BitVec.ofNat 64 a)
    exact ⟨hdamage, hpoison p.core rfl⟩
  · exact s1.uncorrected_damage p _

/-- Settles O53. -/
theorem trapAndMemorySteps : Obligations.TrapAndMemorySteps := by
  refine ⟨⟨fun _ _ _ _ _ => engineTrap_taken, fun _ _ _ _ => uncorrectedTrap_marks, ?_⟩,
    fun _ _ _ _ => storeBufferDrain_drains, fun _ _ _ _ => granaryWriteback_cleans, fun _ _ _ => bayScrubComplete_ends⟩
  intro s p n k q hgiven hfrom hlate hheld hkern hq hrun hmid
  exact lockWatchdog_faults hgiven hfrom hlate hheld hkern hq hrun hmid

end Sys2Proof.Machine
end

section
/-!
PROOFS. Words and instructions (O1, O2): every printed word of the spec is the encoding of the instruction beside it, and the round
trip of each constructor gives the round trip of all (R102 to R105).
-/
set_option Elab.async false

namespace Sys2Proof.Laws.Encoding

/-- Settles O2: the round trip of an instruction is that of its constructor, whatever its operands. -/
theorem decodeEncodeAgree : Obligations.DecodeEncodeAgree :=
  @Instr.rec Statement
    trap slotw add sub and or xor sll srl sra slt sltu mul mulh mulhu div divu rem remu min max minu maxu clz ctz popc addi
    andi ori xori slti sltiu slli srli srai lui addpc ldb ldbu ldh ldhu ldw ldwu ldd stb sth stw std beq bne blt bge bltu bgeu
    jal jalr loopi loop amoadd amoswap amocas amomin amomax amominu amomaxu amoand amoor amoxor fence fenceacq fencerel
    fenceeng wfev take post postw retire wake signal recoat ldfull ldfullk stfull stfill feclr setvl vadd vsub vrsub vmul
    vmulh vmulhu vmadd vmsub vdiv vdivu vrem vremu vmin vmax vminu vmaxu vand vor vxor vsll vsrl vsra vsadd vsaddu vssub
    vssubu vmerge vmv vabs vclz vpopc vfadd vfsub vfmul vfma vfms vfnma vfdiv vfsqrt vfmin vfmax vfabs vfneg vfcvt vfcvti
    vicvtf vfclass vxchg vslideup vslidedn vslide1up vslide1dn vgather vcompress vextr vinsr viota vredsum vredmin vredmax
    vredminu vredmaxu vredand vredor vredxor vfredsum vscan vceq vcne vclt vcltu vcle vcleu vcgt vcgtu vfceq vfclt vfcle vfcun
    mand mor mxor mandn mnot mpopc mfirst mskft mskbf mfromv mtov vld vldff vldx vst vstx vldq vstq vldbc mma mopa mslide mrdc
    mzero mdrain ringcfg rwaitf rwaite radvh radvt rstat cpy cpywait cpystat cpycan wld wst wnarrow wdlg wstripe wclr winfo
    wmint wgen send sendv recv rld rst rstf rldv rstv ramo wlease wrelease wlstat gbar garrive gwait gred ginfo vexp2 vlog2
    vrcp vrsqrt vsin vcos vtanh vsigm mlds mldss csrr csrw csrs csrc ecall brk eret uiret wfi halt yield sleep mswap
    loftMovesComplete resourceAvailable loadMissFill storeBufferDrain granaryWriteback coreBarrierQuiescent matrixOpComplete
    timecmpMatch yieldExpiry userInterruptEntry engineTrap uncorrectedTrap lockWatchdog fewaitLimit barwaitLimit
    withdrawalAnswer copyStart copyLineWrite copyDone copyFail cpycanComplete translationWalk pageServiceComplete priResponse
    atsInvalidation shootdownComplete shootdown evict destroyKeySlot generateKeySlot skimPage maintRequestDiscard switchHeader
    gatewayHeader remoteAccessArrival messageArrival taskPacketArrival responseArrival acknowledgementArrival refusalArrival
    nackArrival nackResend keepWaitingTimer keepWaitingNotice responseTimerExpiry portGenAdvance linkRetry routeRemint
    laneLoss channelLockLoss blockedHeadTimeout tokenVisit recoverySinkApply leaseRequestArrival leaseGrant retuneComplete
    leaseTermExpiry leaseRequestTimeout starvationTimeout reclaimExpiry counterArm counterSignal armAnswer zeroNotice
    taskAging balancerRound balanceCommand migrationSend migrationArrival migrationRefused hqTailWrite hqEnableWrite
    hqRegWrite hostLaunch hostPost counterSet balance dutyReply token occupancy kernelLaunch bayScrubComplete kernelRetire
    recoatHandover barrierArrival barrierReleaseSent barrierRelease watchArrival watchAnswer leaveNotice withdrawalArrival
    lock unlock scrubComplete suspend suspendComplete restore migrate migrationChunk confirm migrationAck
    migrationCommitTimeout alarmNotice alarmLevel2 alarmLevel3 sensorLimit tamperMesh coldStart warmStart setDuty fwStage
    fwActivate readLog getMeasurements keyExchange migrationOffer migrationAbort

/-- Settles O1: each printed word is the encoding of its instruction, and function 0 of SYS is undefined. -/
theorem specWordsDecode : Obligations.SpecWordsDecode := by
  have div := decodeEncodeAgree (.div 7 5 6) rfl _ rfl
  have srai := decodeEncodeAgree (.srai 5 5 3) rfl _ rfl
  have ldw := decodeEncodeAgree (.ldw 5 6 8) rfl _ rfl
  have mlds := decodeEncodeAgree (.mlds 5) rfl _ rfl
  have mswap := decodeEncodeAgree .mswap rfl _ rfl
  have wlease := decodeEncodeAgree (.wlease 7 3 5) rfl _ rfl
  have wrelease := decodeEncodeAgree (.wrelease 7 5) rfl _ rfl
  have ecall := decodeEncodeAgree .ecall rfl _ rfl
  exact ⟨div, srai, ldw, mlds, mswap, wlease, wrelease, ecall, rfl⟩

end Sys2Proof.Laws.Encoding
end

section
/-!
PROOFS. The placed instruction (O6): withFetchWord leaves one READY strand whose fetch reads the placed word, so a step runs what that word
decodes to (R59, R101, R106).
-/
set_option Elab.async false

namespace Sys2Proof.Machine

/-! ### Bytes in memory, read as the cores see them -/

theorem State.physRead_eq_of_physByte {s : State} {d gen a : Nat} {key : Key} {bs : List Byte}
    (h : ∀ j, j < bs.length → s.physByte d key gen (a + j) = bs.getD j 0) : s.physRead d key gen a bs.length = bs := by
  induction bs generalizing a with
  | nil => rfl
  | cons b r ih =>
    have hhead : s.physByte d key gen a = b := h 0 (Nat.succ_pos _)
    have htail : s.physRead d key gen (a + 1) r.length = r := ih fun j hj => by
      rw [Nat.add_assoc, Nat.add_comm 1 j]
      exact h (j + 1) (Nat.succ_lt_succ hj)
    rw [List.length_cons, State.physRead, hhead, htail]

/-! ### The fetch of a word -/

/-- A word outside a LOOP nest, of a translated line that is in the instruction cache, free and sound, is read from memory. -/
theorem State.fetchWord_of_cached {s : State} {p : Place} {t : Strand} {pc : Word} {e : TlbEntry} (hnest : t.inNest pc = false)
    (hlow : pc.toNat < 2 ^ 57) (htlb : (s.core p.core).tlbFind pc.toNat 2 = some e) (hfree : s.ownedWait (e.pa pc.toNat) = none)
    (hcached : mhas (s.core p.core).icache (e.pa pc.toNat / 64) = true) (hsound : s.physPoisoned (e.pa pc.toNat) 4 = false) :
    s.fetchWord p t pc = .word (BitVec.ofNat 32 (leNat (s.physRead (dieOf p.core) e.key e.gen (e.pa pc.toNat) 4))) := by
  simp only [State.fetchWord, hnest, if_neg (Nat.not_le.mpr hlow), htlb, hfree, hcached, hsound, Bool.false_eq_true, if_false,
    Bool.not_true, Bool.false_and]

theorem Core.fillCode_strands (x : Core) (n choice : Nat) : (x.fillCode n choice).strands = x.strands := by
  unfold Core.fillCode
  split <;> rfl

theorem State.strandsAs_cacheCode (s : State) (p : Place) (t : Strand) (pc : Word) : s.strandsAs (s.cacheCode p t pc) := by
  unfold State.cacheCode
  split
  next => exact .refl s
  next =>
    split
    next => exact .refl s
    next => exact s.strandsAs_modCore p.core fun x => x.fillCode_strands _ _

theorem State.coresAs_noted (s : State) (p : Place) (i : Instr) : s.coresAs (s.noted p i) := by
  unfold State.noted
  split <;> exact ⟨rfl, rfl⟩

/-- Outside a LOOP nest a fetch captures no word: the strand that issues is as before. -/
theorem State.captured_of_no_loops {t : Strand} (h : t.loops = []) (s : State) (p : Place) (pc : Word) (w : IWord) :
    s.captured p t pc w = t := by
  simp [State.captured, Strand.missed, Strand.capture, Strand.inNest, Strand.replaying, h]

theorem State.fetched_me {s : State} {t : Strand} (h : t.loops = []) (pc : Word) (w : IWord) :
    (s.fetched s.cur.place t pc w).me = t := by
  rw [State.fetched, State.captured_of_no_loops h]
  exact (State.strandsAs_foldl (fun s a => s.strandsAs_cacheCode _ t a) _ _).me.trans (s.me_setStrand t)

/-! ### The strand that issues -/

/-- Both words of a reset slot table name strand 0 in every entry (R58). -/
theorem Core.slotEntry_of_zero {x : Core} (h0 : x.slot0 = 0) (h1 : x.slot1 = 0) (e : Nat) : x.slotEntry e = 0 := by
  simp [Core.slotEntry, h0, h1, bits]

/-! ### The placed word -/

/-- The place of the one bound strand of a placed state. -/
def placedPlace : Place := { core := 0, strand := 0 }

section
variable (s : State) (w : Nat)

theorem State.strand_placed : (s.withFetchWord 32 w).strand placedPlace = placedStrand := rfl

theorem State.mayPause_placed : (s.withFetchWord 32 w).mayPause placedPlace = false := rfl

/-- At every clk the placed strand is the one that issues. -/
theorem State.nextStrand_placed : (s.withFetchWord 32 w).nextStrand = some placedPlace := by
  have hchoose : ∀ x : Core, x.slot0 = 0 → x.slot1 = 0 → x.ready 0 = true → x.choose s.now = some 0 := by
    intro x h0 h1 hready
    simp [Core.choose, Core.slotEntry_of_zero h0 h1, hready]
  show nextIssue s.now 0 (s.withFetchWord 32 w).cores = _
  rw [State.withFetchWord, nextIssue, if_pos (Nat.zero_le 0), hchoose _ rfl rfl rfl]
  rfl

/-- The line of the placed word has generation 0 and the key of its page, and no die holds a byte of it dirty: its bytes read as they
stand at home. -/
theorem State.physByte_placed {j : Nat} (hj : j < 4) :
    (s.withFetchWord 32 w).physByte 0 0 0 (placedAt + j) = (s.withFetchWord 32 w).homeByte (placedAt + j) := by
  have hline : (placedAt + j) / 64 = placedAt / 64 := by unfold placedAt; omega
  have hhost : isHost (placedAt + j) = false := isHost_of_lt_deviceSize (by unfold placedAt deviceSize; omega)
  have htag : mgetD (s.withFetchWord 32 w).lineTag (placedAt / 64) 0 = 0 := by
    rw [State.withFetchWord, mgetD, mget_mdel_same, Option.getD_none]
  have hkey : mget (s.withFetchWord 32 w).lineKey (placedAt / 64) = some 0 := mget_mset_same ..
  have hclean : mget ((s.withFetchWord 32 w).die 0).dirty (placedAt + j) = none := rfl
  simp [State.physByte, hhost, State.devByte, hline, htag, hkey, hclean]

theorem State.homeByte_placed {j : Nat} (hj : j < 4) :
    (s.withFetchWord 32 w).homeByte (placedAt + j) = (leBytes 4 (w % 2 ^ 32)).getD j 0 := by
  rw [State.homeByte, State.withFetchWord, mgetD_writeBytes, length_leBytes, if_pos ⟨Nat.le_add_right .., Nat.add_lt_add_left hj _⟩,
    Nat.add_sub_cancel_left]

theorem State.physRead_placed : (s.withFetchWord 32 w).physRead 0 0 0 placedAt 4 = leBytes 4 (w % 2 ^ 32) :=
  State.physRead_eq_of_physByte (bs := leBytes 4 (w % 2 ^ 32)) fun _ hj =>
    (s.physByte_placed w hj).trans (s.homeByte_placed w hj)

/-- The placed strand fetches the placed word. -/
theorem State.fetch_placed (hw : w < 2 ^ 32) :
    (s.withFetchWord 32 w).fetch placedPlace placedStrand placedStrand.pc = .word (BitVec.ofNat 32 w) := by
  have haddr : (s.withFetchWord 32 w).fetchAddr placedPlace placedStrand placedStrand.pc = placedStrand.pc := rfl
  have hread : (s.withFetchWord 32 w).physRead (dieOf placedPlace.core) placedEntry.key placedEntry.gen
      (placedEntry.pa placedStrand.pc.toNat) 4 = leBytes 4 (w % 2 ^ 32) := s.physRead_placed w
  rw [State.fetch, haddr, State.fetchWord_of_cached (e := placedEntry) rfl (by decide) rfl rfl rfl rfl, hread, leNat_leBytes,
    Nat.mod_mod, Nat.mod_eq_of_lt hw]

end

/-- Settles O6: the step of O4 runs the placed word, and neither the fetch nor the issue changes the placed strand or memory. -/
theorem placedInstructionRuns : Obligations.PlacedInstructionRuns := by
  intro s w i hw hdecode hconvoy
  have hsingle : (convoyMajor (wordMajor (BitVec.ofNat 32 w)) &&
      (wordC (BitVec.ofNat 32 w) || (s.withFetchWord 32 w).mayPause placedPlace)) = false := by
    rw [State.mayPause_placed, Bool.or_false, Bool.and_comm]
    exact hconvoy
  obtain ⟨-, hrun⟩ := stepRunsDecoded (s.withFetchWord 32 w) placedPlace (BitVec.ofNat 32 w) rfl
    (Nat.zero_ne_add_one _) (s.nextStrand_placed w) rfl rfl rfl (s.fetch_placed w hw)
  refine ⟨_, hrun i hsingle hdecode, ?_⟩
  generalize hissued : (((s.withFetchWord 32 w).issueAs placedPlace).noted placedPlace i) = issued
  have hplace : issued.cur.place = placedPlace := by
    rw [← hissued, (State.coresAs_noted _ placedPlace i).2]
    rfl
  have hme : (issued.fetched placedPlace placedStrand placedStrand.pc (BitVec.ofNat 32 w)).me = placedStrand := by
    rw [← hplace]
    exact State.fetched_me rfl _ _
  rw [State.strand_placed, State.bound, hme]
  refine ⟨rfl, rfl, ?_⟩
  rw [State.fetched_mem, ← hissued, State.noted_mem, State.issueAs_mem]

end Sys2Proof.Machine
end
